-- ==== Sys2Proof/Word.lean ====
section
/-! DEFINITION. The few word types of the part and the fixed-size containers of its records.

The AJ4460 counts volumes, money and times in whole numbers (spec/00_scope.md, "Units and quantities"), so those are
`Nat` or `Int`; only what the manual treats as bits or as a wrapping counter is a bit vector. -/

namespace Sys2Proof

/-- One byte of a frame or of a record (10.8). -/
abbrev Byte := BitVec 8

/-- A tag identity: "any 64-bit value" (R25). -/
abbrev TagId := BitVec 64

/-- A journal sequence number, counted modulo 4,294,967,296 (R151). -/
abbrev SeqNo := BitVec 32

/-- One value for each of the points A and B. -/
structure Pair (α : Type) where
  a : α
  b : α
  deriving DecidableEq, Repr

/-- One value for each of three like things: the meter channels, or the command ports. -/
structure Triple (α : Type) where
  first : α
  second : α
  third : α
  deriving DecidableEq, Repr

/-- One value for each of four numbered things: compartments, products or price tiers 1..4. -/
structure Quad (α : Type) where
  one : α
  two : α
  three : α
  four : α
  deriving DecidableEq, Repr

/-- A delivery point. -/
inductive PointId where
  | a | b
  deriving DecidableEq, Repr

/-- A meter channel (R1). -/
inductive ChannelId where
  | a | b | load
  deriving DecidableEq, Repr

/-- A command port (R173). -/
inductive PortId where
  | operator | office | service
  deriving DecidableEq, Repr

/-- A number 1..4: of a compartment, a product or a price tier. -/
inductive Num4 where
  | n1 | n2 | n3 | n4
  deriving DecidableEq, Repr

/-- A compartment number (R114). -/
abbrev CompId := Num4

/-- A product number (R49). -/
abbrev ProductId := Num4

/-- A price tier (R45). -/
abbrev Tier := Num4

def PointId.other : PointId → PointId
  | .a => .b
  | .b => .a

def Pair.get {α : Type} (x : Pair α) : PointId → α
  | .a => x.a
  | .b => x.b

def Pair.set {α : Type} (x : Pair α) (p : PointId) (v : α) : Pair α :=
  match p with
  | .a => { x with a := v }
  | .b => { x with b := v }

def Triple.channel {α : Type} (x : Triple α) : ChannelId → α
  | .a => x.first
  | .b => x.second
  | .load => x.third

def Triple.setChannel {α : Type} (x : Triple α) (c : ChannelId) (v : α) : Triple α :=
  match c with
  | .a => { x with first := v }
  | .b => { x with second := v }
  | .load => { x with third := v }

def Triple.port {α : Type} (x : Triple α) : PortId → α
  | .operator => x.first
  | .office => x.second
  | .service => x.third

def Triple.setPort {α : Type} (x : Triple α) (p : PortId) (v : α) : Triple α :=
  match p with
  | .operator => { x with first := v }
  | .office => { x with second := v }
  | .service => { x with third := v }

def Quad.get {α : Type} (x : Quad α) : Num4 → α
  | .n1 => x.one
  | .n2 => x.two
  | .n3 => x.three
  | .n4 => x.four

def Quad.set {α : Type} (x : Quad α) (n : Num4) (v : α) : Quad α :=
  match n with
  | .n1 => { x with one := v }
  | .n2 => { x with two := v }
  | .n3 => { x with three := v }
  | .n4 => { x with four := v }

def Quad.map {α β : Type} (f : α → β) (x : Quad α) : Quad β :=
  { one := f x.one, two := f x.two, three := f x.three, four := f x.four }

def Quad.toList {α : Type} (x : Quad α) : List α := [x.one, x.two, x.three, x.four]

/-- The number a `Num4` stands for. -/
def Num4.toNat : Num4 → Nat
  | .n1 => 1
  | .n2 => 2
  | .n3 => 3
  | .n4 => 4

/-- 1..4 in ascending order. -/
def Num4.all : List Num4 := [.n1, .n2, .n3, .n4]

end Sys2Proof
end

