-- ==== Sys2Proof/Syntax.lean ====
section
/-! DEFINITION. The commands of the part: one constructor for each row of spec/opcode_table.json.

A framed command carries the port it came on, the tag of its frame and its parameters as the raw numbers their bytes
carry (10.8), so that a value outside its field's codes or range is answered by the part's own checks. A field event
carries the line or timer it comes from and what that line reports. -/

namespace Sys2Proof

/-- Where a framed command came from: its port and the tag its master chose (10.8, byte 3). -/
structure Req where
  port : PortId
  tag : Nat
  deriving DecidableEq, Repr

/-- An optional parameter as it stands in a frame: the presence byte, then the value (10.8). -/
structure RawOpt (α : Type) where
  flag : Nat
  value : α
  deriving DecidableEq, Repr

/-- The parameters of PUT_MACHINE (R27, 10.8). -/
structure RawMachine where
  number : Nat
  tagId : RawOpt TagId
  product : Nat
  capacity : Nat
  account : Nat
  shiftAllowance : Nat
  dayAllowance : Nat
  manualPermitted : Nat
  state : Nat
  lastHours : RawOpt Nat
  deriving DecidableEq, Repr

/-- Why a frame is bad (R174). -/
inductive FrameDefect where
  /-- a length below 2 or above 1,024 -/
  | badLength
  /-- a CRC that does not match -/
  | badCrc
  /-- a length that does not suit the parameters of a known command code -/
  | wrongLength
  deriving DecidableEq, Repr

/-- A frame that reaches a port which is ANSWERING (R175): good, with its own tag and code, or bad. -/
inductive ExtraFrame where
  | good (tag code : Nat)
  | bad (why : FrameDefect)
  deriving DecidableEq, Repr

/-- How far the recovery of interrupted work has come (R192). -/
inductive RecoveryPoint where
  /-- nothing is closed yet -/
  | start
  /-- the delivery of point A is closed -/
  | pointA
  /-- the deliveries of both points are closed -/
  | pointB
  /-- the current load entry is closed or ended too -/
  | entry
  /-- the plan is NONE too -/
  | plan
  deriving DecidableEq, Repr

/-- How the part comes out of reset: whether its backup cell held (R164), and the recovery (R192): none where it ends, else
how far it has come when another reset falls into it. -/
structure ResetExit where
  backupHeld : Bool
  cut : Option RecoveryPoint
  deriving DecidableEq, Repr

/-- What a transition of the two meter phases gives (R3). -/
inductive PulseDir where
  | forward
  | reverse
  /-- a transition that gives no direction, such as both phases changing together -/
  | none
  deriving DecidableEq, Repr

/-- The reply of a tag to a valid read, before its hours and level are checked (R30). -/
structure TagReply where
  tag : TagId
  hours : Option Int
  level : Option Int
  deriving DecidableEq, Repr

/-- The supervised pump fault kinds (R104), in the order of their codes (10.8). -/
inductive FaultKind where
  | stall | dryRun | noFlow | supplyLow | supplyHigh | overcurrent
  deriving DecidableEq, Repr

/-- The sensed pump supply against its bounds (R102). -/
inductive SupplySense where
  | below | within | above
  deriving DecidableEq, Repr

/-- A level probe's reading: level in mm, temperature in tenths of a degree (R119). -/
structure ProbeReading where
  level : Int
  temp : Int
  deriving DecidableEq, Repr

/-- The commands and events of the part, in the table's order. -/
inductive Instr where
  -- any port
  | getStatus (r : Req) (sect : Nat)
  | getMachine (r : Req) (key : Nat) (value : BitVec 64)
  | getAccount (r : Req) (account : Nat)
  | getStock (r : Req) (comp : Nat)
  | readJournal (r : Req) (start : SeqNo) (count : Nat)
  | getNotices (r : Req)
  | getTime (r : Req)
  | setNoticeMask (r : Req) (mask enable : Nat)
  | requestAccountRole (r : Req)
  -- OPERATE
  | identifyManual (r : Req) (point machine : Nat) (hours : RawOpt Nat)
  | setPreset (r : Req) (point kind value : Nat)
  | stopPoint (r : Req) (point : Nat)
  | stopRepeat (r : Req) (point : Nat)
  | setPointMode (r : Req) (point mode count : Nat)
  | parkPoint (r : Req) (point : Nat)
  | unparkPoint (r : Req) (point : Nat)
  | clearPumpFault (r : Req)
  -- OPERATE or ACCOUNT
  | openLoadPlan (r : Req) (docket : RawOpt (List Nat))
  | appendLoadEntry (r : Req) (comp target : Nat)
  | stopLoad (r : Req)
  | closeLoadPlan (r : Req)
  | setCompartmentService (r : Req) (comp service : Nat)
  | reconcile (r : Req) (comp : Nat)
  -- ACCOUNT
  | putMachine (r : Req) (m : RawMachine)
  | dropMachine (r : Req) (machine : Nat)
  | putAccount (r : Req) (account : Nat) (code : List Nat) (credit tier closed : Nat)
  | creditAdjust (r : Req) (account credit reset : Nat)
  | putProduct (r : Req) (product : Nat) (code : List Nat) (alpha points : Nat)
  | stagePrices (r : Req) (choice : Nat) (prices : Quad (Quad Nat))
  | setLimitSettings (r : Req) (minimum cap : Nat)
  | adjustStock (r : Req) (comp book : Nat)
  | setStockLimits (r : Req) (comp reorder tolerance : Nat)
  | releaseThrough (r : Req) (seq : SeqNo)
  | setTime (r : Req) (year month day hour minute second : Nat)
  | trimClock (r : Req)
  | setShifts (r : Req) (starts : List (Nat × Nat))
  | setSuctionPolicy (r : Req) (policy point : Nat)
  | yieldAccountRole (r : Req)
  | denyAccountRole (r : Req)
  -- CALIBRATE
  | setKFactor (r : Req) (channel k : Nat)
  | setRatedFlow (r : Req) (channel maximum : Nat)
  | setLinearisation (r : Req) (channel : Nat) (points : List (Nat × Nat))
  | setPointVolumes (r : Req) (point slowdown closeAhead : Nat)
  | setPointTimes (r : Req) (auth hold settle pump : Nat)
  | setSuctionTimes (r : Req) (hold travel : Nat)
  | setPumpFault (r : Req) (kind action deglitch th1 th2 : Nat)
  | setPumpRun (r : Req) (ramp retry limit : Nat)
  | configureCompartment (r : Req) (comp product capacity safeFill heel margin : Nat)
  | removeCompartment (r : Req) (comp : Nat)
  | setStrapping (r : Req) (comp : Nat) (points : List (Nat × Nat))
  | setStockSettle (r : Req) (time : Nat)
  | setLoadSettings (r : Req) (closeAhead noFlow : Nat)
  | setCouplingGrace (r : Req) (time : Nat)
  | setPortSupervision (r : Req) (timeout mode lapse : Nat)
  | setWakeSettle (r : Req) (time : Nat)
  -- frames
  | badFrame (port : PortId) (why : FrameDefect)
  | frameTimeout (port : PortId)
  | frameWhileAnswering (port : PortId) (frame : ExtraFrame)
  | frameDuringRecovery (r : Req) (code : Nat)
  | responseSent (port : PortId)
  | unknownCommandCode (r : Req) (code : Nat)
  -- meters
  | meterPulse (channel : ChannelId) (dir : PulseDir)
  | meterWindowEnd (channel : ChannelId) (probe : Option Int)
  -- nozzle and coupler
  | nozzleOffHook (p : PointId)
  | nozzleOnHook (p : PointId)
  | tagRead (p : PointId) (reply : Option TagReply)
  | couplingGraceExpiry (p : PointId)
  | triggerPress (p : PointId)
  | triggerRelease (p : PointId)
  -- point timers
  | authTimerExpiry (p : PointId)
  | pressWaitExpiry (p : PointId)
  | pumpFaultSuspendExpiry (p : PointId)
  | meterSettleExpiry (p : PointId)
  -- suction and pump
  | selectorArrival
  | suctionHoldExpiry (p : PointId)
  | pumpRampExpiry
  | pumpSenseChange (speed current : Nat) (supply : SupplySense)
  | faultDeglitchExpiry (kind : FaultKind)
  | pumpOvercurrent
  | noFlowTimerExpiry
  | retryTimerExpiry
  | cleanRunExpiry
  | clearTimerExpiry
  | consoleTimerExpiry
  -- stock and loading
  | stockSettleExpiry (c : CompId)
  | levelProbeReading (c : CompId) (reading : Option ProbeReading)
  | highLevelSwitch (c : CompId) (active : Bool)
  | loadNoFlowExpiry
  | loadSettleExpiry
  -- clock and roles
  | clockMinute
  | roleAnswerTimerExpiry
  | roleLapse
  | calibrationSwitchChange (closed : Bool)
  -- power
  | ignitionOff
  | ignitionOn
  | wakeSettleExpiry
  | supplyFail (probes : Triple (Option Int))
  | resetPin
  | powerOn
  | resetExit (x : ResetExit)
  deriving DecidableEq, Repr

end Sys2Proof
end

