-- ==== Sys2Proof/Decode.lean ====
section
/-! DEFINITION. The command a word of the opcode table spells. spec/opcode_table.json gives no row any bits (every row's
"fixed" and "fields" are empty): a command's bytes are the frame of spec/10_command_ports_and_roles.md, 10.8, which
Sys2Proof/Machine/Frames.lean reads. -/

namespace Sys2Proof

/-- No word of the table's bits spells a command: no row has bits. -/
def decodeTableWord (_nbits _w : Nat) : Option Instr := none

end Sys2Proof
end

