-- ==== Sys2Proof/Machine/State.lean ====
section
/-! DEFINITION. The state of the part as plain data: every piece of state the spec names, and the state after reset.

Times are in tenths of a second, volumes in centilitres unless a name ends in `uL`, money in cents, temperatures in
tenths of a degree (spec/00_scope.md). A field's rule stands beside it; "retained" fields keep their value through every
reset (R191). -/

namespace Sys2Proof.Machine

open Sys2Proof

/-- A timer: stopped, or running with the tenths of a second left. -/
abbrev Timer := Option Nat

/-! ### Time (R163) -/

/-- A calendar date. -/
structure Date where
  year : Nat
  month : Nat
  day : Nat
  deriving DecidableEq, Repr

/-- The calendar time, with the tenth of the second in progress (R163). -/
structure DateTime where
  date : Date
  hour : Nat
  minute : Nat
  second : Nat
  tenth : Nat
  deriving DecidableEq, Repr

/-- A shift identity: the date of its site day and its index within it (R168). -/
structure ShiftId where
  date : Date
  index : Nat
  deriving DecidableEq, Repr

/-! ### Names used in several chapters -/

/-- End causes (R88, R145; codes in 10.8). -/
inductive EndCause where
  | preset | limit | operatorStop | nozzleHung | ignitionOff | stockEmpty | authTimeout | triggerTimeout
  | pumpFault | couplingLost | couplingChanged | restart | target | highLevel | supplyStopped | noUllage
  deriving DecidableEq, Repr

/-- Limit sources, in the order of R55. -/
inductive LimitSource where
  | preset | tank | shiftAllowance | dayAllowance | credit | stock | manualCap
  deriving DecidableEq, Repr

/-- Command statuses (R176), in the order of their codes. -/
inductive Status where
  | ok | accepted | busy | wrongRole | badFrame | badParam | notFound | wrongState | full | refused
  deriving DecidableEq, Repr

/-- Refusal reasons (10.8), in the order of their codes from 1. -/
inductive Reason where
  | pointParked | standby | machineBusy | productNotAtPoint | accountStopped | accountClosed | noStock | journalFull
  | belowMinimum | machineSuspended | manualNotPermitted | nozzleOnHook | tagPresent | tagInUse | faultPresent
  | stockHeld | lastCompartment | unknownTag | manualOnly
  deriving DecidableEq, Repr

/-- Notice kinds (R182), in the order of their bits. -/
inductive Notice where
  | restarted | deliveryClosed | deliveryVoid | idRefused | authRefused | creditStop | priceTakeover | pumpFault
  | suctionLost | compartmentEmpty | stockVariance | gaugeInvalid | reorder | idleFlow | loadDone | loadStageEmpty
  | journalHigh | journalFull | clockInvalid | shiftRolled | roleRequested | roleDenied | roleChanged | wrongRole
  | consoleSilent
  deriving DecidableEq, Repr

/-- How a delivery's machine was identified (R35, R42): by tag, with the identity it is supervised by, or by hand. -/
inductive Identity where
  | tag (t : TagId)
  | manual
  deriving DecidableEq, Repr

/-- Identification methods (R35, R42), in the order of their codes. -/
inductive Method where
  | tag | manual
  deriving DecidableEq, Repr

/-- A preset (R71): a volume in cL or an amount in cents. -/
inductive Preset where
  | volume (cL : Nat)
  | amount (cents : Nat)
  deriving DecidableEq, Repr

/-- The owner flags a metering window can set (R3, R5, R6, R9). -/
structure Flags where
  backflow : Bool
  overspeed : Bool
  tempHeld : Bool
  tempDefault : Bool
  deriving DecidableEq, Repr

/-! ### Meter channels (R2) -/

/-- One meter channel. `bound` is its owner: each channel has one possible owner (R1). -/
@[ext] structure Channel where
  forward : Nat
  reverse : Nat
  debt : Nat
  grossRem : Nat
  netRem : Nat
  lastRate : Nat
  held : Option Int
  bound : Bool
  alpha : Option Nat
  idle : Nat
  idleNotified : Bool
  /-- retained -/
  grossTotal : Nat
  netTotal : Nat
  grossCarry : Nat
  netCarry : Nat
  /-- settings (R19), retained -/
  k : Nat
  ratedMax : Nat
  table : List (Nat × Nat)
  deriving DecidableEq, Repr

/-! ### Identification (R25, R30, R31) -/

inductive MachineState where
  | active | suspended
  deriving DecidableEq, Repr

/-- A roster record (R25), retained. -/
structure MachineRec where
  number : Nat
  tagId : Option TagId
  product : ProductId
  capacity : Nat
  account : Nat
  shiftAllowance : Nat
  dayAllowance : Nat
  shiftUsage : Nat
  dayUsage : Nat
  reserved : Nat
  lastHours : Option Nat
  manualPermitted : Bool
  state : MachineState
  deriving DecidableEq, Repr

/-- The coupling state of a ring coupler (R31). -/
inductive Coupling where
  | uncoupled
  /-- one valid read of `t` -/
  | settling1 (t : TagId)
  /-- two consecutive valid reads of `t` -/
  | settling2 (t : TagId)
  /-- with the count of consecutive failed reads, 0..2 -/
  | coupled (t : TagId) (failed : Nat)
  | lost (t : TagId)
  deriving DecidableEq, Repr

/-- A valid read, its hours and level checked (R30). -/
structure ValidRead where
  tag : TagId
  hours : Option Nat
  level : Option Nat
  deriving DecidableEq, Repr

/-- The result of the last identification attempt at a point (R34, R41): ACCEPTED is `status = .ok`; a refusal of R34 or
of an authorisation is `.refused` with its reason; the other refusals of R41 are their status. -/
structure IdOutcome where
  status : Status
  reason : Option Reason
  source : Option LimitSource
  tag : Option TagId
  machine : Option Nat
  deriving DecidableEq, Repr

/-- The identification unit's state for one point (R30), all volatile, and the hook line. -/
@[ext] structure Coupler where
  coupling : Coupling
  lastValid : Option ValidRead
  validCount : BitVec 32
  failedCount : BitVec 32
  outcome : Option IdOutcome
  grace : Timer
  /-- input: the nozzle is off its hook -/
  offHook : Bool
  deriving DecidableEq, Repr

/-! ### Accounts, products, prices (R45, R49, R50), all retained -/

structure Account where
  number : Nat
  code : List Nat
  credit : Nat
  spent : Nat
  reserved : Nat
  tier : Tier
  closed : Bool
  stopped : Bool
  deriving DecidableEq, Repr

structure Product where
  code : List Nat
  alpha : Nat
  points : Pair Bool
  deriving DecidableEq, Repr

/-- The take-over choice of a staged price table (R50), in the order of its codes. -/
inductive TakeOver where
  | now | atShift
  deriving DecidableEq, Repr

/-- 16 prices: by product, then by tier (R50). -/
abbrev PriceTable := Quad (Quad Nat)

structure Prices where
  current : PriceTable
  staged : Option (PriceTable × TakeOver)
  deriving DecidableEq, Repr

/-- Settings of the limit unit (R56). -/
structure LimitSettings where
  minimum : Nat
  manualCap : Nat
  deriving DecidableEq, Repr

/-! ### Delivery points (R66, R67, R90) -/

inductive Mode where
  | holdToRun | autoStop | repeatFill
  deriving DecidableEq, Repr

inductive Stage where
  | fast | slow
  deriving DecidableEq, Repr

/-- Causes of SUSPENDED (R66). -/
inductive Cause where
  | triggerReleased | couplingLost | pumpFault | consoleSilent | suctionLost
  deriving DecidableEq, Repr

/-- The state of a delivery point (R66). IDENTIFYING is left within the step that enters it. -/
inductive PointState where
  | closed
  | identifying
  | authorised
  | waitSuction
  | flowing (stage : Stage)
  | suspended (cause : Cause)
  | finishing
  deriving DecidableEq, Repr

/-- A segment of a delivery (R91): its compartment, its net microlitres and its remaining limit. -/
structure Segment where
  comp : CompId
  net_uL : Nat
  remaining : Nat
  deriving DecidableEq, Repr

/-- A delivery context (R90), retained. It has one segment, or two after a compartment switch (R91): `earlier` is the
first of two. Its existence is the claim on one journal slot (R153). -/
structure Delivery where
  machine : Nat
  ident : Identity
  account : Nat
  product : ProductId
  limit : Nat
  source : LimitSource
  price : Nat
  reservation : Nat
  preset : Option Preset
  hours : Option Nat
  start : DateTime
  startInvalid : Bool
  gross_uL : Nat
  net_uL : Nat
  tempSum : Int
  earlier : Option Segment
  current : Segment
  flags : Flags
  /-- fill number in a REPEAT series, 0 outside one -/
  fill : Nat
  repeatCount : Nat
  /-- the minimum delivery that stood at the authorisation, for a switch of compartments (R56, R61, R113; log entry 35) -/
  minimum : Nat
  deriving DecidableEq, Repr

/-- The last close of a point (R67): the record's sequence number, or none for VOID, with its end cause. -/
structure LastClose where
  seq : Option SeqNo
  cause : EndCause
  deriving DecidableEq, Repr

/-- One delivery point (R67). -/
@[ext] structure Point where
  state : PointState
  /-- outputs -/
  fastValve : Bool
  slowValve : Bool
  /-- retained -/
  parked : Bool
  mode : Mode
  repeatCount : Nat
  /-- volatile -/
  preset : Option Preset
  pendingEnd : Option EndCause
  flowStarted : Bool
  seriesEnds : Bool
  fill : Nat
  lastClose : Option LastClose
  /-- retained -/
  context : Option Delivery
  /-- settings (R69), retained -/
  slowdown : Nat
  closeAhead : Nat
  /-- timers: R73, R81, R82, R79 -/
  authTimer : Timer
  pressWait : Timer
  pumpSuspend : Timer
  meterSettle : Timer
  /-- input: the trigger is held -/
  trigger : Bool
  deriving DecidableEq, Repr

/-- The time settings common to both points (R69) and the coupling grace (R36), retained. -/
structure PointTimes where
  auth : Nat
  holdToRun : Nat
  meterSettle : Nat
  pumpSuspend : Nat
  grace : Nat
  deriving DecidableEq, Repr

/-! ### Suction arbiter (R94) -/

inductive Selector where
  | idle (pos : Option CompId)
  | moving (c : CompId)
  | held (c : CompId)
  deriving DecidableEq, Repr

inductive Claim where
  | none | flowing | held
  deriving DecidableEq, Repr

inductive Policy where
  | fixed
  | lowest (p : PointId)
  | rotate
  deriving DecidableEq, Repr

@[ext] structure Arbiter where
  selector : Selector
  /-- output: the selector motor is driven -/
  motor : Bool
  waiting : Pair (Option CompId)
  admitted : Pair Bool
  claims : Pair Claim
  hold : Pair Timer
  travel : Timer
  lastGranted : Option PointId
  /-- settings (R101), retained -/
  policy : Policy
  holdTime : Nat
  travelTime : Nat
  deriving DecidableEq, Repr

/-! ### Pump controller (R102, R104) -/

inductive PumpState where
  | stopped | starting | running | retryWait | latched
  deriving DecidableEq, Repr

/-- Fault actions (R104), in the order of their codes. -/
inductive FaultAction where
  | latch | retry | report | off | autoClear
  deriving DecidableEq, Repr

/-- One value for each fault kind. -/
structure PerFault (α : Type) where
  stall : α
  dryRun : α
  noFlow : α
  supplyLow : α
  supplyHigh : α
  overcurrent : α
  deriving DecidableEq, Repr

/-- The settings of one fault kind (R104): the thresholds stand in the order of R104, 0 where the kind has none. -/
structure FaultSetting where
  action : FaultAction
  deglitch : Nat
  first : Nat
  second : Nat
  deriving DecidableEq, Repr

@[ext] structure Pump where
  state : PumpState
  /-- output: the pump is driven -/
  drive : Bool
  retryCount : Nat
  /-- the kind that latched the pump, and whether it clears itself -/
  latched : Option (FaultKind × Bool)
  lastFault : Option (FaultKind × FaultAction)
  deglitch : PerFault Timer
  noFlow : Timer
  cleanRun : Timer
  ramp : Timer
  retry : Timer
  clear : Timer
  reported : PerFault Bool
  lowPresent : Bool
  highPresent : Bool
  /-- inputs: sensed speed in per cent of nominal, current in tenths of an ampere, supply -/
  speed : Nat
  current : Nat
  supply : SupplySense
  /-- settings (R104), retained -/
  faults : PerFault FaultSetting
  rampTime : Nat
  retryTime : Nat
  /-- none is UNLIMITED -/
  retryLimit : Option Nat
  deriving DecidableEq, Repr

/-! ### Compartments (R114) -/

inductive CompState where
  | inService | loading | empty | outOfService
  deriving DecidableEq, Repr

/-- What triggered a reconciliation (R126). -/
inductive Trigger where
  | settle | shift | command
  deriving DecidableEq, Repr

inductive RecOutcome where
  | inTolerance | outOfTolerance | noGauge
  deriving DecidableEq, Repr

/-- The last reconciliation of a compartment (R114, R127). -/
structure LastRec where
  trigger : Trigger
  outcome : RecOutcome
  variance : Option Int
  time : DateTime
  deriving DecidableEq, Repr

/-- A configured compartment's record (R114), retained but for the last three fields. -/
@[ext] structure Compartment where
  product : ProductId
  capacity : Nat
  safeFill : Nat
  heel : Nat
  margin : Nat
  reorder : Nat
  tolerance : Nat
  /-- (level mm, litres) (R120) -/
  strapping : List (Nat × Nat)
  book : Nat
  reserved : Nat
  state : CompState
  suctionLost : Bool
  variance : Bool
  reorderSent : Bool
  draining : Bool
  /-- volatile -/
  settle : Timer
  gaugeNoted : Bool
  lastRec : Option LastRec
  deriving DecidableEq, Repr

/-! ### Load sequencer (R131, R132) -/

/-- A load target (R132): FILL or a net volume. -/
inductive Target where
  | fill
  | volume (cL : Nat)
  deriving DecidableEq, Repr

inductive PlanState where
  | none | opened | closing
  deriving DecidableEq, Repr

/-- A staged entry (R132). -/
structure Staged where
  comp : CompId
  target : Target
  deriving DecidableEq, Repr

/-- The states a current entry can rest in (R132). -/
inductive EntryState where
  | due | waiting | loading | settling
  deriving DecidableEq, Repr

/-- A load context (R132); the compartment and the requested target are the entry's. -/
structure LoadContext where
  product : ProductId
  used : Nat
  clamped : Bool
  docket : Option (List Nat)
  start : DateTime
  startInvalid : Bool
  gross_uL : Nat
  net_uL : Nat
  tempSum : Int
  flowBegun : Bool
  flags : Flags
  pendingEnd : Option EndCause
  deriving DecidableEq, Repr

/-- The current entry of the plan (R131, R132). Its existence is the claim on one journal slot (R153). -/
structure Entry where
  comp : CompId
  target : Target
  state : EntryState
  context : Option LoadContext
  deriving DecidableEq, Repr

/-- The last load result (R131): the record's sequence number, or none for NO_RECORD. -/
structure LoadResult where
  seq : Option SeqNo
  comp : CompId
  cause : EndCause
  deriving DecidableEq, Repr

@[ext] structure Loader where
  /-- retained -/
  state : PlanState
  docket : Option (List Nat)
  current : Option Entry
  staged : List Staged
  /-- volatile -/
  paused : Bool
  stageEmpty : Bool
  lastResult : Option LoadResult
  noFlow : Timer
  settle : Timer
  /-- outputs: the inlet valves that are open -/
  inlets : Quad Bool
  /-- inputs: the high-level switches that are active -/
  highLevel : Quad Bool
  /-- settings (R149), retained -/
  closeAhead : Nat
  noFlowTime : Nat
  deriving DecidableEq, Repr

/-! ### Journal (R150, R152) -/

/-- A DELIVERY or CAN_FILL record's own fields (R89). -/
structure DeliveryRecord where
  canFill : Bool
  point : PointId
  machine : Nat
  method : Method
  account : Nat
  product : ProductId
  segments : List (CompId × Nat)
  start : DateTime
  startInvalid : Bool
  gross : Nat
  net : Nat
  mean : Int
  price : Nat
  amount : Nat
  limit : Nat
  source : LimitSource
  overrun : Nat
  hours : Option Nat
  cause : EndCause
  flags : Flags
  hoursBackward : Bool
  recovered : Bool
  deriving DecidableEq, Repr

/-- A RECEIPT record's own fields (R145). -/
structure ReceiptRecord where
  comp : CompId
  product : ProductId
  docket : Option (List Nat)
  target : Target
  used : Nat
  start : DateTime
  startInvalid : Bool
  gross : Nat
  net : Nat
  mean : Int
  bookBefore : Nat
  bookAfter : Nat
  cause : EndCause
  flags : Flags
  clamped : Bool
  recovered : Bool
  deriving DecidableEq, Repr

/-- A VARIANCE record of cause RECONCILE (R127). -/
structure VarianceRecord where
  comp : CompId
  product : ProductId
  trigger : Trigger
  book : Nat
  standing : Nat
  level : Int
  temp : Int
  gaugeGross : Nat
  gaugeNet : Nat
  variance : Int
  tolerance : Nat
  clamped : Bool
  deriving DecidableEq, Repr

/-- Record kinds with their own fields (8.1). -/
inductive RecordBody where
  /-- DELIVERY or CAN_FILL -/
  | delivery (r : DeliveryRecord)
  | receipt (r : ReceiptRecord)
  /-- VARIANCE, cause BOOK_NEGATIVE (R123) -/
  | bookNegative (comp : CompId) (product : ProductId) (point : PointId) (machine before charge shortfall : Nat)
  /-- VARIANCE, cause RECONCILE -/
  | reconcile (r : VarianceRecord)
  /-- STOCK_ADJUST (R125) -/
  | stockAdjust (comp : CompId) (product : ProductId) (oldBook newBook : Nat) (gaugeNet : Option Nat)
  /-- ACCOUNT_RESET (R65) -/
  | accountReset (account : Nat) (code : List Nat) (spentBefore creditBefore creditAfter reserved : Nat)
  /-- PRICE_TAKEOVER (8.1) -/
  | priceTakeover (choice : TakeOver) (prices : PriceTable)
  /-- SHIFT_CLOSE (R159) -/
  | shiftClose (first last : ShiftId) (covered : Nat) (nets counts : Quad Nat)
  deriving DecidableEq, Repr

/-- A stored record with its common part (R152). -/
structure Record where
  seq : SeqNo
  time : DateTime
  timeInvalid : Bool
  body : RecordBody
  deriving DecidableEq, Repr

/-- The shift tally (R158). -/
structure Tally where
  first : ShiftId
  covered : Nat
  nets : Quad Nat
  counts : Quad Nat
  deriving DecidableEq, Repr

@[ext] structure Journal where
  /-- oldest to newest -/
  records : List Record
  next : SeqNo
  reserved : Nat
  tally : Tally
  highMark : Bool
  deriving DecidableEq, Repr

/-! ### Clock (R163) -/

@[ext] structure Clock where
  now : DateTime
  valid : Bool
  /-- 1..3 starts (hour, minute) -/
  shifts : List (Nat × Nat)
  shift : ShiftId
  deriving DecidableEq, Repr

/-! ### Ports and roles (R173, R177, R185) -/

/-- One item of a response's data (10.8): its size in bytes and its value; a negative value is sent in two's complement. -/
structure Field where
  size : Nat
  value : Int
  deriving DecidableEq, Repr

/-- A response (10.8). -/
structure Response where
  tag : Nat
  code : Nat
  status : Status
  reason : Option Reason
  detail : Option LimitSource
  data : List Field
  deriving DecidableEq, Repr

@[ext] structure Port where
  /-- ANSWERING with this response, or READY -/
  sending : Option Response
  extra : Option Response
  silence : Nat
  notices : BitVec 25
  mask : BitVec 25
  enable : Bool
  /-- output: the attention line is asserted -/
  attention : Bool
  deriving DecidableEq, Repr

@[ext] structure Roles where
  /-- the port that holds the account role (R177) -/
  holder : PortId
  /-- the requester of the pending request (R179) -/
  requester : Option PortId
  answer : Timer
  /-- input: the calibration switch is closed (R177) -/
  calibration : Bool
  deriving DecidableEq, Repr

inductive ConsoleMode where
  | report | stop
  deriving DecidableEq, Repr

/-- The console watch (R185) and the supervision settings (R186). -/
@[ext] structure Watch where
  timer : Timer
  silent : Bool
  /-- the console flow block of R74 stands -/
  block : Bool
  /-- none is OFF; retained -/
  timeout : Option Nat
  mode : ConsoleMode
  lapse : Nat
  /-- the model's own: how many CONSOLE_TIMER_EXPIRY rows were waiting when an OPERATOR frame last restarted the timer, less
  those taken since (R186; log entry 32) -/
  overtaken : Nat
  deriving DecidableEq, Repr

/-! ### Supply monitor (R188 to R191) -/

/-- The power state (R188); `inReset` stands from a reset until the recovery has ended, while there is none (R189). -/
inductive PowerState where
  | inReset | standby | wakeSettle | run
  deriving DecidableEq, Repr

inductive ResetKind where
  | powerOn | resetPin | supplyFail
  deriving DecidableEq, Repr

@[ext] structure Power where
  state : PowerState
  wake : Timer
  /-- setting (R188), retained -/
  wakeTime : Nat
  /-- input -/
  ignition : Bool
  /-- retained -/
  flushMark : Bool
  /-- the reset pin was asserted, with the supply good, in the reset in progress -/
  pinSeen : Bool
  /-- the supply has failed and has not been seen to return -/
  supplyOut : Bool
  lastReset : ResetKind
  closedDeliveries : Nat
  closedEntries : Nat
  deriving DecidableEq, Repr

/-! ### The whole part -/

@[ext]
structure State where
  channels : Triple Channel
  couplers : Pair Coupler
  roster : List MachineRec
  accounts : List Account
  products : Quad (Option Product)
  prices : Prices
  limits : LimitSettings
  points : Pair Point
  times : PointTimes
  arbiter : Arbiter
  pump : Pump
  stock : Quad (Option Compartment)
  /-- inputs: the level probes as last sensed (R119) -/
  probes : Quad (Option ProbeReading)
  /-- the compartment settle time (R118), retained -/
  stockSettle : Nat
  loader : Loader
  journal : Journal
  clock : Clock
  ports : Triple Port
  roles : Roles
  watch : Watch
  power : Power
  /-- the MODEL's own: how many free choices have been used (log entry 7) -/
  choices : Nat
  /-- the MODEL's own: the commands waiting, first in, first out -/
  pending : List Instr
  deriving DecidableEq, Repr

/-- The part has no fault that stops it: every command is answered with a status (R176) and every event is acted on or
passed over. No constructor: no step of the model answers a fault. -/
inductive Fault where
  deriving DecidableEq, Repr

/-- Why a command has no meaning in the model. -/
inductive Refusal where
  /-- Raised by an arm of `exec` whose command has no meaning yet (safe: nothing is claimed of it). No arm does. -/
  | notModelled (mnemonic : String)
  deriving DecidableEq, Repr

/-! ### The state after reset -/

def Flags.clear : Flags := { backflow := false, overspeed := false, tempHeld := false, tempDefault := false }

def Quad.all {α : Type} (v : α) : Quad α := { one := v, two := v, three := v, four := v }

/-- 2000-01-01 00:00:00, where a clock without a backup counts from (R163, R164). -/
def DateTime.epoch : DateTime :=
  { date := { year := 2000, month := 1, day := 1 }, hour := 0, minute := 0, second := 0, tenth := 0 }

/-- A factory channel after reset (R2, R19); totalisers at 0 (log entry 4). -/
def Channel.factory (ratedMax : Nat) : Channel :=
  { forward := 0, reverse := 0, debt := 0, grossRem := 0, netRem := 0, lastRate := 0, held := none, bound := false,
    alpha := none, idle := 0, idleNotified := false, grossTotal := 0, netTotal := 0, grossCarry := 0, netCarry := 0,
    k := 1000, ratedMax := ratedMax, table := [] }

/-- A coupler after reset (R30), its nozzle on hook (log entry 4). -/
def Coupler.factory : Coupler :=
  { coupling := .uncoupled, lastValid := none, validCount := 0, failedCount := 0, outcome := none, grace := none,
    offHook := false }

/-- A factory point after reset (R66 to R70), not parked and its trigger released (log entry 4). -/
def Point.factory : Point :=
  { state := .closed, fastValve := false, slowValve := false, parked := false, mode := .holdToRun, repeatCount := 1,
    preset := none, pendingEnd := none, flowStarted := false, seriesEnds := false, fill := 0, lastClose := none,
    context := none, slowdown := 500, closeAhead := 20, authTimer := none, pressWait := none, pumpSuspend := none,
    meterSettle := none, trigger := false }

/-- A factory arbiter after reset (R94, R101). -/
def Arbiter.factory : Arbiter :=
  { selector := .idle none, motor := false, waiting := { a := none, b := none },
    admitted := { a := false, b := false }, claims := { a := .none, b := .none }, hold := { a := none, b := none },
    travel := none, lastGranted := none, policy := .fixed, holdTime := 200, travelTime := 30 }

/-- The default fault settings of R104. -/
def FaultSetting.factory : PerFault FaultSetting :=
  { stall := { action := .latch, deglitch := 5, first := 180, second := 0 }
    dryRun := { action := .retry, deglitch := 10, first := 125, second := 30 }
    noFlow := { action := .report, deglitch := 0, first := 40, second := 100 }
    supplyLow := { action := .autoClear, deglitch := 5, first := 0, second := 0 }
    supplyHigh := { action := .autoClear, deglitch := 5, first := 0, second := 0 }
    overcurrent := { action := .latch, deglitch := 0, first := 0, second := 0 } }

def PerFault.all {α : Type} (v : α) : PerFault α :=
  { stall := v, dryRun := v, noFlow := v, supplyLow := v, supplyHigh := v, overcurrent := v }

/-- A factory pump after reset (R102, R104); its sensed inputs at rest (log entry 4). -/
def Pump.factory : Pump :=
  { state := .stopped, drive := false, retryCount := 0, latched := none, lastFault := none,
    deglitch := PerFault.all none, noFlow := none, cleanRun := none, ramp := none, retry := none, clear := none,
    reported := PerFault.all false, lowPresent := false, highPresent := false, speed := 0, current := 0,
    supply := .within, faults := FaultSetting.factory, rampTime := 15, retryTime := 50, retryLimit := some 3 }

/-- Compartment 1 of a factory part (R114), its settle timer started at the end of the recovery (R193). -/
def Compartment.factory : Compartment :=
  { product := .n1, capacity := 1000000, safeFill := 95, heel := 2000, margin := 500, reorder := 0,
    tolerance := 2000, strapping := [(0, 0), (4000, 10000)], book := 0, reserved := 0, state := .outOfService,
    suctionLost := false, variance := false, reorderSent := false, draining := false, settle := some 600,
    gaugeNoted := false, lastRec := none }

/-- A factory load sequencer after reset (R131, R149). -/
def Loader.factory : Loader :=
  { state := .none, docket := none, current := none, staged := [], paused := false, stageEmpty := false,
    lastResult := none, noFlow := none, settle := none, inlets := Quad.all false, highLevel := Quad.all false,
    closeAhead := 50, noFlowTime := 600 }

/-- A factory journal (R150): an empty tally covering the shift current at that moment. -/
def Journal.factory : Journal :=
  { records := [], next := 1, reserved := 0,
    tally :=
      { first := { date := DateTime.epoch.date, index := 1 }, covered := 1, nets := Quad.all 0,
        counts := Quad.all 0 },
    highMark := false }

/-- A port after reset (R173, R182): RESTARTED pending, and CLOCK_INVALID, which leaving reset with an invalid clock
raises on every port (R164). -/
def Port.factory : Port :=
  { sending := none, extra := none, silence := 0, notices := 0b1000000000000000001#25, mask := BitVec.allOnes 25,
    enable := true, attention := true }

/-- A factory part right after its first POWER_ON reset, its recovery ended (nothing was open) and its ignition off: the
first command is taken next (R193). Log entry 4 names the values the spec does not give. -/
def State.reset : State :=
  { channels := { first := Channel.factory 1500, second := Channel.factory 1500, third := Channel.factory 6000 }
    couplers := { a := Coupler.factory, b := Coupler.factory }
    roster := []
    accounts := []
    products := Quad.all none
    prices := { current := Quad.all (Quad.all 1000), staged := none }
    limits := { minimum := 100, manualCap := 20000 }
    points := { a := Point.factory, b := Point.factory }
    times := { auth := 1200, holdToRun := 600, meterSettle := 20, pumpSuspend := 1200, grace := 100 }
    arbiter := Arbiter.factory
    pump := Pump.factory
    stock := { one := some Compartment.factory, two := none, three := none, four := none }
    probes := Quad.all none
    stockSettle := 600
    loader := Loader.factory
    journal := Journal.factory
    clock :=
      { now := DateTime.epoch, valid := false, shifts := [(0, 0)],
        shift := { date := DateTime.epoch.date, index := 1 } }
    ports := { first := Port.factory, second := Port.factory, third := Port.factory }
    roles := { holder := .office, requester := none, answer := none, calibration := false }
    watch :=
      { timer := none, silent := false, block := false, timeout := some 20, mode := .stop, lapse := 3000
        overtaken := 0 }
    power :=
      { state := .standby, wake := none, wakeTime := 20, ignition := false, flushMark := false,
        pinSeen := false, supplyOut := false, lastReset := .powerOn, closedDeliveries := 0, closedEntries := 0 }
    choices := 0
    pending := [] }

end Sys2Proof.Machine
end

