-- ==== Sys2Proof/Machine/Operands.lean ====
section
/-! DEFINITION. Reading the raw parameters of a command: codes, ranges, durations and optional values (10.8).

A value outside the codes of its field gives `none`, which every command answers with BAD_PARAM. -/

namespace Sys2Proof.Machine

open Sys2Proof

def inRange (lo hi n : Nat) : Bool := decide (lo ≤ n) && decide (n ≤ hi)

def pointOf : Nat → Option PointId
  | 0 => some .a
  | 1 => some .b
  | _ => none

def channelOf : Nat → Option ChannelId
  | 0 => some .a
  | 1 => some .b
  | 2 => some .load
  | _ => none

/-- A compartment, product or tier number. -/
def num4Of : Nat → Option Num4
  | 1 => some .n1
  | 2 => some .n2
  | 3 => some .n3
  | 4 => some .n4
  | _ => none

/-- A yes or no. -/
def yesNo : Nat → Option Bool
  | 0 => some false
  | 1 => some true
  | _ => none

def modeOf : Nat → Option Mode
  | 0 => some .holdToRun
  | 1 => some .autoStop
  | 2 => some .repeatFill
  | _ => none

def takeOverOf : Nat → Option TakeOver
  | 0 => some .now
  | 1 => some .atShift
  | _ => none

def faultKindOf : Nat → Option FaultKind
  | 0 => some .stall
  | 1 => some .dryRun
  | 2 => some .noFlow
  | 3 => some .supplyLow
  | 4 => some .supplyHigh
  | 5 => some .overcurrent
  | _ => none

def faultActionOf : Nat → Option FaultAction
  | 0 => some .latch
  | 1 => some .retry
  | 2 => some .report
  | 3 => some .off
  | 4 => some .autoClear
  | _ => none

def machineStateOf : Nat → Option MachineState
  | 0 => some .active
  | 1 => some .suspended
  | _ => none

/-- Permitted points: bit 0 A, bit 1 B, other bits 0. -/
def permittedOf : Nat → Option (Pair Bool)
  | 0 => some { a := false, b := false }
  | 1 => some { a := true, b := false }
  | 2 => some { a := false, b := true }
  | 3 => some { a := true, b := true }
  | _ => none

/-- SET_SUCTION_POLICY: the point is read with LOWEST only (R101). -/
def policyOf (policy point : Nat) : Option Policy :=
  match policy with
  | 0 => some .fixed
  | 1 => (pointOf point).map .lowest
  | 2 => some .rotate
  | _ => none

def consoleModeOf : Nat → Option ConsoleMode
  | 0 => some .report
  | 1 => some .stop
  | _ => none

/-- A printable character, as a byte; PRESUMED ASCII 20H..7EH (log entry 24). Unsafe: the spec names no set. -/
def printable (b : Nat) : Bool := inRange 0x20 0x7E b

/-- A code of `n` printable characters. -/
def printableCode (n : Nat) (code : List Nat) : Bool := code.length == n && code.all printable

/-- An optional value (10.8): absent must carry `zero`; DEDUCED, log entry 8. The outer `none` is BAD_PARAM. -/
def readOpt {α : Type} [DecidableEq α] (zero : α) (ok : α → Bool) (x : RawOpt α) : Option (Option α) :=
  match x.flag with
  | 0 => if x.value = zero then some none else none
  | 1 => if ok x.value then some (some x.value) else none
  | _ => none

/-- A duration in tenths for a setting in whole seconds of lo..hi (10.8). -/
def wholeSeconds (lo hi d : Nat) : Bool := d % 10 == 0 && inRange (lo * 10) (hi * 10) d

/-- A preset of SET_PRESET (R71, 10.8); the outer `none` is BAD_PARAM, the inner is NONE. -/
def presetOf (kind value : Nat) : Option (Option Preset) :=
  match kind with
  | 0 => if value = 0 then some none else none
  | 1 => if inRange 1 2000000 value then some (some (.volume value)) else none
  | 2 => if inRange 1 99999999 value then some (some (.amount value)) else none
  | _ => none

/-- A load target: 0 is FILL (R132, 10.8). -/
def targetOf (target : Nat) : Option Target :=
  if target = 0 then some .fill else if target ≤ 4000000 then some (.volume target) else none

/-- The fault settings a SET_PUMP_FAULT carries, checked by R104; what the kind does not have is not checked (10.8) and
not kept. -/
def faultSettingOf (kind : FaultKind) (action : FaultAction) (deglitch first second : Nat) : Option FaultSetting :=
  let dg := inRange 1 20 deglitch
  match kind with
  | .stall =>
    if action ≠ .autoClear ∧ dg ∧ inRange 1 2000 first then
      some { action := action, deglitch := deglitch, first := first, second := 0 } else none
  | .dryRun =>
    if action ≠ .autoClear ∧ dg ∧ inRange 110 150 first ∧ inRange 1 2000 second then
      some { action := action, deglitch := deglitch, first := first, second := second } else none
  | .noFlow =>
    if action ≠ .autoClear ∧ inRange 10 5000 first ∧ inRange 20 300 second then
      some { action := action, deglitch := 0, first := first, second := second } else none
  | .supplyLow | .supplyHigh =>
    if (action = .latch ∨ action = .autoClear) ∧ dg then
      some { action := action, deglitch := deglitch, first := 0, second := 0 } else none
  | .overcurrent => none

end Sys2Proof.Machine
end

