-- ==== Sys2Proof/Machine/Calendar.lean ====
section
/-! DEFINITION. The calendar and the shift identity (R163, R166, R168). -/

namespace Sys2Proof.Machine

/-- Leap years of 2000..2099 (R163). -/
def leapYear (y : Nat) : Bool := y % 4 == 0

def monthLength (y m : Nat) : Nat :=
  if m = 2 then (if leapYear y then 29 else 28)
  else if m = 4 ∨ m = 6 ∨ m = 9 ∨ m = 11 then 30 else 31

/-- The day after; after 2099-12-31 the calendar goes to 2000-01-01, told by `true` (R163). -/
def Date.next (d : Date) : Date × Bool :=
  if d.day < monthLength d.year d.month then ({ d with day := d.day + 1 }, false)
  else if d.month < 12 then ({ d with month := d.month + 1, day := 1 }, false)
  else if d.year < 2099 then ({ year := d.year + 1, month := 1, day := 1 }, false)
  else ({ year := 2000, month := 1, day := 1 }, true)

/-- The day before (R168). -/
def Date.prev (d : Date) : Date :=
  if 1 < d.day then { d with day := d.day - 1 }
  else if 1 < d.month then { year := d.year, month := d.month - 1, day := monthLength d.year (d.month - 1) }
  else { year := d.year - 1, month := 12, day := 31 }

/-- :00 of the next minute, and whether the calendar passed its end (R163). -/
def DateTime.nextMinute (t : DateTime) : DateTime × Bool :=
  if t.minute < 59 then ({ t with minute := t.minute + 1, second := 0, tenth := 0 }, false)
  else if t.hour < 23 then ({ t with hour := t.hour + 1, minute := 0, second := 0, tenth := 0 }, false)
  else ({ date := t.date.next.1, hour := 0, minute := 0, second := 0, tenth := 0 }, t.date.next.2)

/-- The next tick of the clock would count into :00 of a minute. -/
def DateTime.atMinuteEnd (t : DateTime) : Bool := t.second == 59 && t.tenth == 9

/-- One tenth of a second later, inside a minute. -/
def DateTime.nextTenth (t : DateTime) : DateTime :=
  if t.tenth < 9 then { t with tenth := t.tenth + 1 } else { t with second := t.second + 1, tenth := 0 }

/-- The minute of the day. -/
def DateTime.dayMinute (t : DateTime) : Nat := t.hour * 60 + t.minute

/-- A shift start as a minute of the day. -/
def startMinute (x : Nat × Nat) : Nat := x.1 * 60 + x.2

/-- The number of starts at or before a minute of the day. -/
def startsBy (shifts : List (Nat × Nat)) (m : Nat) : Nat := (shifts.filter fun x => startMinute x ≤ m).length

/-- The shift identity for a calendar time (R168). -/
def shiftAt (shifts : List (Nat × Nat)) (t : DateTime) : ShiftId :=
  let n := startsBy shifts t.dayMinute
  if n = 0 then { date := t.date.prev, index := shifts.length } else { date := t.date, index := n }

/-- The first start after a minute of the day. -/
def startAfter (m : Nat) : List (Nat × Nat) → Option Nat
  | [] => none
  | x :: rest => if m < startMinute x then some (startMinute x) else startAfter m rest

/-- The tenths of a second to the next shift start (R163). -/
def tenthsToStart (shifts : List (Nat × Nat)) (t : DateTime) : Nat :=
  let into := (t.dayMinute * 60 + t.second) * 10 + t.tenth
  match startAfter t.dayMinute shifts with
  | some m => m * 600 - into
  | none => (1440 + ((shifts.head?.map startMinute).getD 0)) * 600 - into

/-- Whether shift starts rise strictly through the day (R167). -/
def risingStarts : List (Nat × Nat) → Bool
  | [] => true
  | [_] => true
  | a :: b :: rest => decide (startMinute a < startMinute b) && risingStarts (b :: rest)

end Sys2Proof.Machine
end

