-- ==== Sys2Proof/Machine/Flags.lean ====
section
/-! DEFINITION. The owner flags of metering and the account's derived state (R12, R45). -/

namespace Sys2Proof.Machine

/-- Flags once set stay set (R9, R12). -/
def Flags.join (x y : Flags) : Flags :=
  { backflow := x.backflow || y.backflow, overspeed := x.overspeed || y.overspeed,
    tempHeld := x.tempHeld || y.tempHeld, tempDefault := x.tempDefault || y.tempDefault }

/-- The method of an identification (R35, R42). -/
def Identity.method : Identity → Method
  | .tag _ => .tag
  | .manual => .manual

def bit (b : Bool) : Nat := if b then 1 else 0

/-- Bits 0..3 of a record's flags (10.8). -/
def Flags.bits (x : Flags) : Nat :=
  bit x.backflow + 2 * bit x.overspeed + 4 * bit x.tempHeld + 8 * bit x.tempDefault

/-- The state of an account (R45): 0 CLOSED, 1 STOPPED, 2 OPEN, the order of its table. -/
inductive AccountState where
  | closed | stopped | opened
  deriving DecidableEq, Repr

def Account.state (a : Account) : AccountState :=
  if a.closed then .closed else if a.stopped then .stopped else .opened

/-- Whether stopped stands after a close has charged an account (R47). -/
def Account.reached (a : Account) : Bool := a.credit != 0 && decide (a.credit ≤ a.spent)

/-- Whether stopped stands after a re-evaluation by CREDIT_ADJUST (R64). -/
def Account.overdrawn (a : Account) : Bool :=
  a.credit != 0 && (decide (a.credit ≤ a.spent) || decide (a.credit < a.spent + a.reserved))

end Sys2Proof.Machine
end

