-- ==== Sys2Proof/Config.lean ====
section
/-! DEFINITION. What the part fixes, and the one choice its rules leave free.

Settings that a command can write are fields of `State`; the constants here can not be written. -/

namespace Sys2Proof

/-- A FREE VALUE (log entry 7): of two deliveries on a compartment found empty "each is switched or ended in turn, and
either may be first" (R113). The argument counts the uses, so two choices need not agree. It has no body: no proof can
know it. -/
opaque Config.switchBFirst : Nat → Bool

/-- Machine records (R26). -/
def Config.rosterSize : Nat := 512
/-- Journal records (R150). -/
def Config.journalSize : Nat := 2048
/-- A reserving writer needs room above this (R153). -/
def Config.heldBack : Nat := 8
/-- The high mark's threshold (R156). -/
def Config.highWater : Nat := 1536
/-- Staged load entries (R131). -/
def Config.stagedSize : Nat := 4
/-- The greatest count of a window (R3). -/
def Config.countMax : Nat := 65535
/-- The greatest backflow debt (R5), usage (R25), tally net (R158) and 32-bit count. -/
def Config.max32 : Nat := 4294967295
/-- Totalisers roll over here, in cL (R13). -/
def Config.totaliserWrap : Nat := 10000000000
/-- The idle-flow accumulator holds here, in cL (R18). -/
def Config.idleMax : Nat := 999999999
/-- The fixed idle-flow threshold, in cL (R18). -/
def Config.idleThreshold : Nat := 50
/-- The greatest spent, in cents (R45). -/
def Config.spentMax : Nat := 999999999999
/-- The greatest credit limit, in cents (R45). -/
def Config.creditMax : Nat := 99999999999
/-- The greatest book stock, in cL (R114). -/
def Config.bookMax : Nat := 99999999
/-- The fixed ullage bound, in cL (R138). -/
def Config.ullageMin : Nat := 100
/-- The fixed clean-run time, in tenths of a second (R108). -/
def Config.cleanRunTime : Nat := 300
/-- The fixed role answer time, in tenths of a second (R179). -/
def Config.answerTime : Nat := 600
/-- The greatest value the retry counter is held at (R108). -/
def Config.retryMax : Nat := 10
/-- The greatest figure of a shift tally's deliveries and shifts covered (R158). -/
def Config.max16 : Nat := 65535

end Sys2Proof
end

