-- ==== Sys2Proof/Machine/Arith.lean ====
section
/-! DEFINITION. The whole-number arithmetic of volumes, temperatures and money, with the rounding each rule states. -/

namespace Sys2Proof.Machine

/-- `n / d` rounded to nearest, a tie of exactly one half away from zero (R10, R14). -/
def roundAway (n : Int) (d : Nat) : Int :=
  let q : Int := ((2 * n.natAbs + d) / (2 * d) : Nat)
  if n < 0 then -q else q

/-- A volume in centilitres from microlitres, rounded down (R14). -/
def cLof (uL : Nat) : Nat := uL / 10000

/-- The billing amount in cents (R24). -/
def billAmount (net price : Nat) : Nat := (net * price + 500) / 1000

/-- The account reservation: ceil(limit × price / 1,000) cents (R57). -/
def reservationFor (limit price : Nat) : Nat := (limit * price + 999) / 1000

/-- The volume an amount in cents buys at a price, rounded down (R55, R72). -/
def volumeFor (cents price : Nat) : Nat := cents * 1000 / price

/-- The volume correction factor VCF in ppm (R10); an absent α is 0. -/
def correctionFactor (alpha : Nat) (t10 : Int) : Nat :=
  (1000000 - roundAway (alpha * (t10 - 150)) 10).toNat

/-- The mean temperature (R14). -/
def meanTemp (tempSum : Int) (gross_uL : Nat) : Int :=
  if gross_uL = 0 then 150 else roundAway tempSum gross_uL

/-- The factor at `rate` between two neighbouring points, a tie towards the greater factor (R7). -/
def factorBetween (p q : Nat × Nat) (rate : Nat) : Nat :=
  let w := q.1 - p.1
  let x := rate - p.1
  (2 * (p.2 * (w - x) + q.2 * x) + w) / (2 * w)

/-- The factor at a rate above the rate of `p` (R7). -/
def factorAbove (p : Nat × Nat) (rate : Nat) : List (Nat × Nat) → Nat
  | [] => p.2
  | q :: rest => if q.1 ≤ rate then factorAbove q rate rest else factorBetween p q rate

/-- The meter factor MF in ppm (R7). -/
def meterFactor (table : List (Nat × Nat)) (rate : Nat) : Nat :=
  match table with
  | [] => 1000000
  | p :: rest => if rate ≤ p.1 then p.2 else factorAbove p rate rest

/-- The window's flow rate in dL/min (R6). -/
def flowRate (n k : Nat) : Nat := n * 2400 / k

/-- The gauge gross of a level above the level of `p`, and whether the reading is GAUGE_CLAMPED (R120). -/
def gaugeAbove (p : Nat × Nat) (h : Nat) : List (Nat × Nat) → Nat × Bool
  | [] => (p.2 * 100, true)
  | q :: rest =>
    if h = q.1 then (q.2 * 100, false)
    else if q.1 < h then gaugeAbove q h rest
    else (p.2 * 100 + (q.2 - p.2) * 100 * (h - p.1) / (q.1 - p.1), false)

/-- The gauge gross in cL from a level in mm, and whether the reading is GAUGE_CLAMPED (R120). -/
def gaugeGross (table : List (Nat × Nat)) (h : Nat) : Nat × Bool :=
  match table with
  | [] => (0, true)
  | p :: rest =>
    if h < p.1 then (p.2 * 100, true)
    else if h = p.1 then (p.2 * 100, false)
    else gaugeAbove p h rest

/-- The gauge net in cL (R121). -/
def gaugeNet (gross alpha : Nat) (t10 : Int) : Nat := gross * correctionFactor alpha t10 / 1000000

/-- Whether a temperature reading is valid (R9, R119). -/
def validTemp (t : Int) : Bool := decide (-400 ≤ t) && decide (t ≤ 700)

/-- Whether the first items of a list of pairs rise strictly (R22, R120). -/
def risingFirst : List (Nat × Nat) → Bool
  | [] => true
  | [_] => true
  | a :: b :: rest => decide (a.1 < b.1) && risingFirst (b :: rest)

/-- Whether the second items of a list of pairs rise strictly (R120). -/
def risingSecond : List (Nat × Nat) → Bool
  | [] => true
  | [_] => true
  | a :: b :: rest => decide (a.2 < b.2) && risingSecond (b :: rest)

end Sys2Proof.Machine
end

