-- ==== Sys2Proof/Machine/Ops.lean ====
section
/-! DEFINITION. The named reads and updates of State that every chapter's operations are written with, the raising of
notices (R182, R183) and the journal's writes and reservations (R150 to R158). -/

namespace Sys2Proof.Machine

open Sys2Proof

/-! ### One field at a time -/

def State.point (s : State) (p : PointId) : Point := s.points.get p
def State.coupler (s : State) (p : PointId) : Coupler := s.couplers.get p
def State.channel (s : State) (c : ChannelId) : Channel := s.channels.channel c
def State.port (s : State) (o : PortId) : Port := s.ports.port o
def State.comp (s : State) (c : CompId) : Option Compartment := s.stock.get c
def State.product (s : State) (p : ProductId) : Option Product := s.products.get p

def State.setPoint (s : State) (p : PointId) (x : Point) : State := { s with points := s.points.set p x }
def State.setCoupler (s : State) (p : PointId) (x : Coupler) : State := { s with couplers := s.couplers.set p x }
def State.setChannel (s : State) (c : ChannelId) (x : Channel) : State :=
  { s with channels := s.channels.setChannel c x }
def State.setPort (s : State) (o : PortId) (x : Port) : State := { s with ports := s.ports.setPort o x }
def State.setComp (s : State) (c : CompId) (x : Option Compartment) : State := { s with stock := s.stock.set c x }
def State.setArbiter (s : State) (x : Arbiter) : State := { s with arbiter := x }
def State.setPump (s : State) (x : Pump) : State := { s with pump := x }
def State.setLoader (s : State) (x : Loader) : State := { s with loader := x }
def State.setJournal (s : State) (x : Journal) : State := { s with journal := x }
def State.setWatch (s : State) (x : Watch) : State := { s with watch := x }
def State.setRoles (s : State) (x : Roles) : State := { s with roles := x }
def State.setClock (s : State) (x : Clock) : State := { s with clock := x }
def State.setPower (s : State) (x : Power) : State := { s with power := x }
def State.setRoster (s : State) (x : List MachineRec) : State := { s with roster := x }
def State.setAccounts (s : State) (x : List Account) : State := { s with accounts := x }

/-- Change a compartment's record, where it has one. -/
def State.modComp (s : State) (c : CompId) (f : Compartment → Compartment) : State :=
  s.setComp c ((s.comp c).map f)

/-! ### The tables (R26, R45) -/

def findMachine (roster : List MachineRec) (n : Nat) : Option MachineRec := roster.find? fun m => m.number == n

def findTag (roster : List MachineRec) (t : TagId) : Option MachineRec := roster.find? fun m => m.tagId == some t

/-- The record with the least number greater than `n` (R26). -/
def nextMachine (roster : List MachineRec) (n : Nat) : Option MachineRec := roster.find? fun m => decide (n < m.number)

/-- Add a record in its place, or replace the one with its number (R26, R27). -/
def putMachineRec (x : MachineRec) : List MachineRec → List MachineRec
  | [] => [x]
  | m :: rest =>
    if x.number < m.number then x :: m :: rest
    else if x.number = m.number then x :: rest
    else m :: putMachineRec x rest

def dropMachineRec (n : Nat) (roster : List MachineRec) : List MachineRec := roster.filter fun m => m.number != n

def findAccount (accounts : List Account) (n : Nat) : Option Account := accounts.find? fun a => a.number == n

def putAccountRec (x : Account) : List Account → List Account
  | [] => [x]
  | a :: rest =>
    if x.number < a.number then x :: a :: rest
    else if x.number = a.number then x :: rest
    else a :: putAccountRec x rest

/-- Change the machine numbered `n`. -/
def State.modMachine (s : State) (n : Nat) (f : MachineRec → MachineRec) : State :=
  s.setRoster (s.roster.map fun m => if m.number = n then f m else m)

/-- Change the account numbered `n`. -/
def State.modAccount (s : State) (n : Nat) (f : Account → Account) : State :=
  s.setAccounts (s.accounts.map fun a => if a.number = n then f a else a)

/-! ### Notices (R182, R183) -/

/-- A notice's bit (R182). -/
def Notice.bit : Notice → Nat
  | .restarted => 0
  | .deliveryClosed => 1
  | .deliveryVoid => 2
  | .idRefused => 3
  | .authRefused => 4
  | .creditStop => 5
  | .priceTakeover => 6
  | .pumpFault => 7
  | .suctionLost => 8
  | .compartmentEmpty => 9
  | .stockVariance => 10
  | .gaugeInvalid => 11
  | .reorder => 12
  | .idleFlow => 13
  | .loadDone => 14
  | .loadStageEmpty => 15
  | .journalHigh => 16
  | .journalFull => 17
  | .clockInvalid => 18
  | .shiftRolled => 19
  | .roleRequested => 20
  | .roleDenied => 21
  | .roleChanged => 22
  | .wrongRole => 23
  | .consoleSilent => 24

/-- The notice's flag in a pending set or a mask. -/
def Notice.flag (n : Notice) : BitVec 25 := 1#25 <<< n.bit

/-- The ports the table of R182 lists for a notice. ROLE_REQUESTED, ROLE_DENIED and WRONG_ROLE go to the port their rule
names, by `State.raiseOn`. -/
def Notice.ports : Notice → Triple Bool
  | .restarted | .pumpFault | .suctionLost | .clockInvalid | .roleChanged =>
    { first := true, second := true, third := true }
  | .deliveryClosed | .deliveryVoid | .creditStop | .priceTakeover | .compartmentEmpty | .reorder | .loadDone
  | .loadStageEmpty | .journalFull | .shiftRolled => { first := true, second := true, third := false }
  | .idRefused | .authRefused => { first := true, second := false, third := false }
  | .stockVariance | .gaugeInvalid | .idleFlow => { first := false, second := true, third := true }
  | .journalHigh | .consoleSilent => { first := false, second := true, third := false }
  | .roleRequested | .roleDenied | .wrongRole => { first := false, second := false, third := false }

/-- The attention line follows the pending set, the mask and the global enable (R183). -/
def Port.follow (x : Port) : Port := { x with attention := x.enable && (x.notices &&& x.mask != 0) }

def Port.raise (x : Port) (n : Notice) : Port := Port.follow { x with notices := x.notices ||| n.flag }

def Port.withdraw (x : Port) (n : Notice) : Port := Port.follow { x with notices := x.notices &&& ~~~ n.flag }

/-- Raise a notice on one port. -/
def State.raiseOn (s : State) (o : PortId) (n : Notice) : State := s.setPort o ((s.port o).raise n)

/-- Raise a notice on the ports listed for it (R182). -/
def State.raise (s : State) (n : Notice) : State :=
  { s with
    ports :=
      { first := if n.ports.first then s.ports.first.raise n else s.ports.first
        second := if n.ports.second then s.ports.second.raise n else s.ports.second
        third := if n.ports.third then s.ports.third.raise n else s.ports.third } }

/-- Remove a standing notice from every pending set (R136). -/
def State.withdraw (s : State) (n : Notice) : State :=
  { s with
    ports :=
      { first := s.ports.first.withdraw n, second := s.ports.second.withdraw n, third := s.ports.third.withdraw n } }

/-! ### The journal (R150 to R158) -/

def Journal.occupied (j : Journal) : Nat := j.records.length

def Journal.room (j : Journal) : Nat := Config.journalSize - j.occupied - j.reserved

/-- The oldest sequence number: `next` less the records stored, since they are contiguous (R151). -/
def Journal.oldest (j : Journal) : SeqNo := j.next - BitVec.ofNat 32 j.occupied

/-- A reserving writer finds a slot (R153). -/
def Journal.canReserve (j : Journal) : Bool := decide (Config.heldBack < j.room)

/-- A system record finds a slot (R155). -/
def Journal.hasRoom (j : Journal) : Bool := decide (0 < j.room)

/-- The high mark's test (R156). -/
def State.testHighMark (s : State) : State :=
  if Config.highWater ≤ s.journal.occupied + s.journal.reserved ∧ ¬ s.journal.highMark then
    (s.setJournal { s.journal with highMark := true }).raise .journalHigh
  else s

/-- Reserve a slot; the caller has found `canReserve` (R153). -/
def State.reserveSlot (s : State) : State :=
  (s.setJournal { s.journal with reserved := s.journal.reserved + 1 }).testHighMark

/-- Return a reserved slot (R154). -/
def State.returnSlot (s : State) : State := s.setJournal { s.journal with reserved := s.journal.reserved - 1 }

/-- The record now written, with its common part (R152). -/
def State.newRecord (s : State) (body : RecordBody) : Record :=
  { seq := s.journal.next, time := s.clock.now, timeInvalid := !s.clock.valid, body := body }

/-- Store a record as the newest (R152). -/
def State.store (s : State) (body : RecordBody) : State :=
  (s.setJournal
    { s.journal with
      records := s.journal.records ++ [s.newRecord body], next := s.journal.next + 1 }).testHighMark

/-- Write a holder's record into its reservation (R154). -/
def State.storeReserved (s : State) (body : RecordBody) : State :=
  (s.setJournal
    { s.journal with
      records := s.journal.records ++ [s.newRecord body], next := s.journal.next + 1,
      reserved := s.journal.reserved - 1 }).testHighMark

/-- Write a system record where room is above 0, else write nothing (R155). -/
def State.storeSystem (s : State) (body : RecordBody) : State :=
  if s.journal.hasRoom then s.store body else s

def addCapped (top a b : Nat) : Nat := min top (a + b)

/-- Add a DELIVERY or CAN_FILL record to the shift tally (R158). -/
def Tally.add (t : Tally) (product : ProductId) (net : Nat) : Tally :=
  { t with
    nets := t.nets.set product (addCapped Config.max32 (t.nets.get product) net)
    counts := t.counts.set product (addCapped Config.max16 (t.counts.get product) 1) }

def State.tallyDelivery (s : State) (product : ProductId) (net : Nat) : State :=
  s.setJournal { s.journal with tally := s.journal.tally.add product net }

/-- Where a sequence number stands (R151). -/
inductive Place where
  | stored (k : Nat)
  | ahead
  | behind
  deriving DecidableEq, Repr

def Journal.place (j : Journal) (q : SeqNo) : Place :=
  let k := (q - j.oldest).toNat
  if k < j.occupied then .stored k else if k < 2147483648 then .ahead else .behind

/-- The part is in reset, or recovering (R189). -/
def State.inReset (s : State) : Bool := s.power.state == .inReset

/-! ### Reads of the open work -/

/-- The compartment of a point's current segment, while it has an open delivery. -/
def State.segmentComp (s : State) (p : PointId) : Option CompId := (s.point p).context.map fun d => d.current.comp

/-- A point has its current segment on `c`. -/
def State.drawsOn (s : State) (c : CompId) (p : PointId) : Bool := s.segmentComp p == some c

/-- The net cL of a delivery's segments on `c`, current or earlier (R122). -/
def Delivery.netOn (d : Delivery) (c : CompId) : Nat :=
  (if d.current.comp = c then cLof d.current.net_uL else 0) +
  (match d.earlier with
   | some e => if e.comp = c then cLof e.net_uL else 0
   | none => 0)

/-- A delivery has a segment on `c`, current or earlier. -/
def Delivery.touches (d : Delivery) (c : CompId) : Bool :=
  d.current.comp == c || (match d.earlier with | some e => e.comp == c | none => false)

def State.openNetOn (s : State) (c : CompId) : Nat :=
  (s.points.a.context.elim 0 fun d => d.netOn c) + (s.points.b.context.elim 0 fun d => d.netOn c)

/-- An open delivery has a segment on `c`, current or earlier. -/
def State.segmentOn (s : State) (c : CompId) : Bool :=
  s.points.a.context.any (fun d => d.touches c) || s.points.b.context.any (fun d => d.touches c)

/-- A load entry of the plan names `c` (R116). -/
def State.planNames (s : State) (c : CompId) : Bool :=
  s.loader.current.any (fun e => e.comp == c) || s.loader.staged.any (fun e => e.comp == c)

/-- The selector holds `c` while it is MOVING(c) or HELD(c) (R95). -/
def Selector.holds (x : Selector) (c : CompId) : Bool :=
  match x with
  | .idle _ => false
  | .moving d => d == c
  | .held d => d == c

end Sys2Proof.Machine
end

