-- ==== Sys2Proof/Machine/Metering.lean ====
section
/-! DEFINITION. Meter channels: pulse counting, the eight stages of a window, totalisers, binding and idle flow (R1 to
R23). -/

namespace Sys2Proof.Machine

open Sys2Proof

/-- A counted transition; a count holds at 65,535 (R3). -/
def Channel.count (x : Channel) : PulseDir → Channel
  | .forward => { x with forward := addCapped Config.countMax x.forward 1 }
  | .reverse => { x with reverse := addCapped Config.countMax x.reverse 1 }
  | .none => x

/-- What a window hands to the owner (R4, R12). -/
structure WindowResult where
  gross : Nat
  net : Nat
  t10 : Int
  rate : Nat
  /-- the whole centilitres the gross totaliser grew by (R13) -/
  grown : Nat
  flags : Flags
  deriving DecidableEq, Repr

/-- Stage 1: the usable count and the debt after (R5). -/
def settleDebt (forward reverse debt : Nat) : Nat × Nat :=
  if forward ≤ reverse then (0, min Config.max32 (debt + (reverse - forward)))
  else (forward - reverse - debt, debt - (forward - reverse))

/-- Stage 5: the temperature used and the held reading after, with TEMP_HELD and TEMP_DEFAULT (R9). -/
def windowTemp (probe held : Option Int) : Int × Option Int × Bool × Bool :=
  match probe.filter validTemp with
  | some t => (t, some t, false, false)
  | none =>
    match held with
    | some h => (h, some h, true, false)
    | none => (150, none, false, true)

/-- The stages of a window over one channel (R5 to R13): its result, and the channel after, before idle flow. -/
def Channel.window (x : Channel) (probe : Option Int) : Channel × WindowResult :=
  let (n, debt) := settleDebt x.forward x.reverse x.debt
  let rate := flowRate n x.k
  let total := n * meterFactor x.table rate + x.grossRem
  let gross := total / x.k
  let (t10, held, tempHeld, tempDefault) := windowTemp probe x.held
  let y := gross * correctionFactor (x.alpha.getD 0) t10 + x.netRem
  let net := y / 1000000
  let grown := (x.grossCarry + gross) / 10000
  let saturated := x.forward == Config.countMax || x.reverse == Config.countMax
  ( { x with
      forward := 0, reverse := 0, debt := debt, grossRem := total % x.k, netRem := y % 1000000, lastRate := rate,
      held := held
      grossTotal := (x.grossTotal + grown) % Config.totaliserWrap
      grossCarry := (x.grossCarry + gross) % 10000
      netTotal := (x.netTotal + (x.netCarry + net) / 10000) % Config.totaliserWrap
      netCarry := (x.netCarry + net) % 10000 },
    { gross := gross, net := net, t10 := t10, rate := rate, grown := grown,
      flags :=
        { backflow := x.debt == 0 && debt != 0, overspeed := saturated || decide (x.ratedMax < rate),
          tempHeld := tempHeld, tempDefault := tempDefault } } )

/-- A delivery takes a window's result (R12, R90). -/
def Delivery.take (d : Delivery) (w : WindowResult) : Delivery :=
  { d with
    gross_uL := d.gross_uL + w.gross, net_uL := d.net_uL + w.net, tempSum := d.tempSum + w.gross * w.t10,
    current := { d.current with net_uL := d.current.net_uL + w.net }, flags := d.flags.join w.flags }

/-- A load context takes a window's result (R12, R132). -/
def LoadContext.take (x : LoadContext) (w : WindowResult) : LoadContext :=
  { x with
    gross_uL := x.gross_uL + w.gross, net_uL := x.net_uL + w.net, tempSum := x.tempSum + w.gross * w.t10,
    flags := x.flags.join w.flags }

/-- The hand-over of a result to the channel's owner (R12). -/
def State.handOver (s : State) (c : ChannelId) (w : WindowResult) : State :=
  match c with
  | .a => s.setPoint .a { s.points.a with context := s.points.a.context.map fun d => d.take w }
  | .b => s.setPoint .b { s.points.b with context := s.points.b.context.map fun d => d.take w }
  | .load =>
    s.setLoader
      { s.loader with
        current := s.loader.current.map fun e => { e with context := e.context.map fun x => x.take w } }

/-- A channel's idle flow grows, and IDLE_FLOW is due once it exceeds 50 cL (R18). -/
def Channel.addIdle (x : Channel) (grown : Nat) : Channel × Bool :=
  let idle := addCapped Config.idleMax x.idle grown
  let due := decide (Config.idleThreshold < idle) && !x.idleNotified
  ({ x with idle := idle, idleNotified := x.idleNotified || due }, due)

/-- End a channel's window: the stages, then the owner or idle flow (R4, R23). -/
def State.endWindow (s : State) (c : ChannelId) (probe : Option Int) : State :=
  let (x, w) := (s.channel c).window probe
  if x.bound then (s.setChannel c x).handOver c w
  else
    let (y, due) := x.addIdle w.grown
    if due then (s.setChannel c y).raise .idleFlow else s.setChannel c y

/-- Bind a channel with its owner's α (R15). -/
def Channel.bind (x : Channel) (alpha : Nat) : Channel :=
  { x with debt := 0, held := none, bound := true, alpha := some alpha, idle := 0, idleNotified := false }

/-- Unbind a channel (R16). -/
def Channel.unbind (x : Channel) : Channel := { x with bound := false, alpha := none }

/-- A point's channel. -/
def channelFor : PointId → ChannelId
  | .a => .a
  | .b => .b

/-- The α of a product, 0 where it has no record (R121, R139). -/
def State.alphaOf (s : State) (p : ProductId) : Nat := (s.product p).elim 0 fun x => x.alpha

def State.bindChannel (s : State) (c : ChannelId) (p : ProductId) : State :=
  s.setChannel c ((s.channel c).bind (s.alphaOf p))

def State.unbindChannel (s : State) (c : ChannelId) : State := s.setChannel c (s.channel c).unbind

/-- A channel's volatile state after every reset (R2). -/
def Channel.reset (x : Channel) : Channel :=
  { x with
    forward := 0, reverse := 0, debt := 0, grossRem := 0, netRem := 0, lastRate := 0, held := none, bound := false,
    alpha := none, idle := 0, idleNotified := false }

end Sys2Proof.Machine
end

