-- ==== Sys2Proof/Machine/Stock.lean ====
section
/-! DEFINITION. Compartments and book stock: the derived figures, the settle timer, reorder, reconciliation and book
changes (R114 to R130). -/

namespace Sys2Proof.Machine

open Sys2Proof

/-- Available stock (R54, R122). -/
def Compartment.available (x : Compartment) : Nat := x.book - x.reserved - x.heel

def State.availableOn (s : State) (c : CompId) : Nat := (s.comp c).elim 0 fun x => x.available

/-- Drawn-down book (R111, R122). -/
def State.drawnDown (s : State) (c : CompId) : Nat := (s.comp c).elim 0 fun x => x.book - s.openNetOn c

/-- The net cL so far of a LOADING or SETTLING entry on `c` (R122). -/
def State.loadedOn (s : State) (c : CompId) : Nat :=
  match s.loader.current with
  | some e => if e.comp = c then e.context.elim 0 (fun x => cLof x.net_uL) else 0
  | none => 0

/-- Standing book (R122). -/
def State.standingBook (s : State) (c : CompId) : Nat := s.drawnDown c + s.loadedOn c

/-- A compartment is eligible at authorisation or as a switch target for a product (R54, R112). -/
def State.eligible (s : State) (c : CompId) (p : ProductId) : Bool :=
  (s.comp c).any fun x => x.state == .inService && x.product == p

/-- A compartment is barred at the arbiter (R95). One without a record is barred too: no request names one. -/
def State.barred (s : State) (c : CompId) : Bool :=
  (s.comp c).all fun x => x.state != .inService || x.draining

/-! ### Quiet compartments and the settle timer (R126) -/

/-- `c` is quiet: no open delivery has its current segment on it and it is not LOADING. -/
def State.quiet (s : State) (c : CompId) : Bool :=
  !s.drawsOn c .a && !s.drawsOn c .b && (s.comp c).all fun x => x.state != .loading

/-- Start the settle timer of a compartment that has just become quiet. -/
def State.startSettle (s : State) (c : CompId) : State :=
  if s.quiet c then s.modComp c fun x => { x with settle := some s.stockSettle } else s

/-- A compartment stops being quiet. -/
def State.stopSettle (s : State) (c : CompId) : State := s.modComp c fun x => { x with settle := none }

/-! ### Reservations and reorder (R57, R130) -/

def State.reserveOn (s : State) (c : CompId) (v : Nat) : State :=
  s.modComp c fun x => { x with reserved := x.reserved + v }

def State.releaseOn (s : State) (c : CompId) (v : Nat) : State :=
  s.modComp c fun x => { x with reserved := x.reserved - v }

/-- REORDER is due after a fall (R130). -/
def Compartment.reorderDue (x : Compartment) : Bool :=
  x.reorder != 0 && decide (x.available < x.reorder) && !x.reorderSent

/-- The reorder test after a fall (R130). -/
def State.reorderFall (s : State) (c : CompId) : State :=
  if (s.comp c).any fun x => x.reorderDue then
    (s.modComp c fun x => { x with reorderSent := true }).raise .reorder
  else s

/-- The reorder test after new stock, or after a write of the level (R130). -/
def State.reorderNew (s : State) (c : CompId) : State :=
  if (s.comp c).any fun x => decide (x.reorder ≤ x.available) then
    s.modComp c fun x => { x with reorderSent := false }
  else s.reorderFall c

/-! ### Gauging (R119 to R121) -/

/-- A probe reading is valid (R119). -/
def ProbeReading.valid (r : ProbeReading) : Bool := decide (0 ≤ r.level) && decide (r.level ≤ 4000) && validTemp r.temp

/-- A gauge: the reading, the gross and net cL, and GAUGE_CLAMPED (R120, R121). -/
structure Gauge where
  reading : ProbeReading
  gross : Nat
  net : Nat
  clamped : Bool
  deriving DecidableEq, Repr

/-- The gauge of `c` as it stands, or none for NO_GAUGE. -/
def State.gauge (s : State) (c : CompId) : Option Gauge :=
  match s.comp c, (s.probes.get c).filter ProbeReading.valid with
  | some x, some r =>
    let (gross, clamped) := gaugeGross x.strapping r.level.toNat
    some
      { reading := r, gross := gross, net := gaugeNet gross (s.alphaOf x.product) r.temp, clamped := clamped }
  | _, _ => none

/-! ### Reconciliation (R127) -/

def State.setLastRec (s : State) (c : CompId) (t : Trigger) (o : RecOutcome) (v : Option Int) : State :=
  s.modComp c fun x => { x with lastRec := some { trigger := t, outcome := o, variance := v, time := s.clock.now } }

/-- No gauge: GAUGE_INVALID once per fault (R119, R127). -/
def State.reconcileNoGauge (s : State) (c : CompId) (t : Trigger) : State :=
  let s := s.setLastRec c t .noGauge none
  if (s.comp c).any fun x => !x.gaugeNoted then
    (s.modComp c fun x => { x with gaugeNoted := true }).raise .gaugeInvalid
  else s

/-- Reconcile `c`, where it is configured (R127). -/
def State.reconcile (s : State) (t : Trigger) (c : CompId) : State :=
  match s.comp c with
  | none => s
  | some x =>
    match s.gauge c with
    | none => s.reconcileNoGauge c t
    | some g =>
      let standing := s.standingBook c
      let variance : Int := (g.net : Int) - (standing : Int)
      if x.tolerance < variance.natAbs then
        let record : VarianceRecord :=
          { comp := c, product := x.product, trigger := t, book := x.book, standing := standing,
            level := g.reading.level, temp := g.reading.temp, gaugeGross := g.gross, gaugeNet := g.net,
            variance := variance, tolerance := x.tolerance, clamped := g.clamped }
        (((s.storeSystem (.reconcile record)).modComp c fun x => { x with variance := true }).setLastRec c t
          .outOfTolerance (some variance)).raise .stockVariance
      else
        (s.modComp c fun x => { x with variance := false }).setLastRec c t .inTolerance (some variance)

/-- Reconcile every configured compartment in ascending number (R126). -/
def State.reconcileAll (s : State) (t : Trigger) : State := Num4.all.foldl (fun s c => s.reconcile t c) s

/-! ### Book changes (R123, R124) -/

/-- A charge of `v` cL to `c` by a delivery of a machine at a point (R123). -/
def State.chargeBook (s : State) (c : CompId) (p : PointId) (machine v : Nat) : State :=
  match s.comp c with
  | none => s
  | some x =>
    if v ≤ x.book then (s.modComp c fun x => { x with book := x.book - v }).reorderFall c
    else
      (((s.storeSystem (.bookNegative c x.product p machine x.book v (v - x.book))).modComp c fun x =>
        { x with book := 0, variance := true }).raise .stockVariance).reorderFall c

/-- What a receipt does to its compartment (R124). -/
def State.receiveStock (s : State) (c : CompId) (net : Nat) : State :=
  ((s.modComp c fun x =>
    { x with
      book := addCapped Config.bookMax x.book net, state := .inService, draining := false,
      suctionLost := false }).reorderNew c).startSettle c

end Sys2Proof.Machine
end

