-- ==== Sys2Proof/Machine/Points.lean ====
section
/-! DEFINITION. Delivery points: the moves of a point between its states, with their valves, timers, requests and claims
(R66, R73 to R86, R99, R100). -/

namespace Sys2Proof.Machine

open Sys2Proof

/-! ### Requests and claims of a point (R99, R100) -/

/-- Withdraw a point's request: it leaves the waiting requests and the admitted set (R99). -/
def Arbiter.withdraw (a : Arbiter) (p : PointId) : Arbiter :=
  { a with waiting := a.waiting.set p none, admitted := a.admitted.set p false }

/-- Give up a point's claim (R100). -/
def Arbiter.dropClaim (a : Arbiter) (p : PointId) : Arbiter :=
  { a with claims := a.claims.set p .none, hold := a.hold.set p none }

/-- A flowing claim becomes held, or is given up at once with a hold of 0 s (R100). -/
def Arbiter.holdClaim (a : Arbiter) (p : PointId) : Arbiter :=
  if a.claims.get p = .flowing then
    if a.holdTime = 0 then a.dropClaim p
    else { a with claims := a.claims.set p .held, hold := a.hold.set p (some a.holdTime) }
  else a

/-- A point enters FLOWING: its claim is flowing (R100). -/
def Arbiter.flowClaim (a : Arbiter) (p : PointId) : Arbiter :=
  { a with claims := a.claims.set p .flowing, hold := a.hold.set p none }

/-! ### The states of a point -/

def PointState.isFlowing : PointState → Bool
  | .flowing _ => true
  | _ => false

def PointState.isSuspended : PointState → Bool
  | .suspended _ => true
  | _ => false

/-- FLOWING or WAIT_SUCTION: what a pump fault, console silence or lost suction suspends (R82 to R84). -/
def PointState.wantsFlow : PointState → Bool
  | .flowing _ => true
  | .waitSuction => true
  | _ => false

/-- AUTHORISED, WAIT_SUCTION, FLOWING or SUSPENDED: open and not in FINISHING. -/
def PointState.unfinished : PointState → Bool
  | .authorised => true
  | .waitSuction => true
  | .flowing _ => true
  | .suspended _ => true
  | _ => false

/-- Stop every timer of a point but the meter settle timer. -/
def Point.stopTimers (x : Point) : Point := { x with authTimer := none, pressWait := none, pumpSuspend := none }

def Point.shut (x : Point) : Point := { x with fastValve := false, slowValve := false }

/-- Stop a point's grace timer: coupling supervision ends (R40). -/
def State.stopGrace (s : State) (p : PointId) : State := s.setCoupler p { s.coupler p with grace := none }

/-- Enter FINISHING with a pending end cause (R79): valves closed, timers stopped, request withdrawn, claim given up. -/
def State.finish (s : State) (p : PointId) (cause : EndCause) : State :=
  let x := (s.point p).shut.stopTimers
  ((s.setPoint p
    { x with state := .finishing, pendingEnd := some cause, meterSettle := some s.times.meterSettle }).stopGrace
    p).setArbiter ((s.arbiter.withdraw p).dropClaim p)

/-- The pending end cause of a limit reached (R75, R77). -/
def Delivery.limitCause (d : Delivery) : EndCause := if d.source = .preset then .preset else .limit

/-- v ≥ L − C, compared as signed numbers (R75, R77). -/
def Delivery.within (d : Delivery) (margin : Nat) : Bool := decide (d.limit ≤ cLof d.net_uL + margin)

/-- Suspend a point with a cause (R80 to R84): valves closed, request withdrawn, a flowing claim held, the cause's timer
started. COUPLING_LOST runs on the grace timer, CONSOLE_SILENT on none. -/
def State.suspend (s : State) (p : PointId) (cause : Cause) : State :=
  let x := (s.point p).shut.stopTimers
  let x :=
    { x with
      state := .suspended cause
      pressWait := if cause = .triggerReleased ∨ cause = .suctionLost then some s.times.holdToRun else none
      pumpSuspend := if cause = .pumpFault then some s.times.pumpSuspend else none }
  (s.setPoint p x).setArbiter ((s.arbiter.withdraw p).holdClaim p)

/-- Suspend a point that is FLOWING or in WAIT_SUCTION. -/
def State.suspendFlow (s : State) (p : PointId) (cause : Cause) : State :=
  if (s.point p).state.wantsFlow then s.suspend p cause else s

/-- A cause lifts: SUSPENDED(cause) goes to SUSPENDED(TRIGGER_RELEASED) with the press-wait timer started (R81). The claim
is kept as it is (R100). -/
def State.lift (s : State) (p : PointId) (cause : Cause) : State :=
  if (s.point p).state = .suspended cause then
    s.setPoint p
      { (s.point p).stopTimers with state := .suspended .triggerReleased, pressWait := some s.times.holdToRun }
  else s

/-- The stage a grant opens with, by v ≥ L − S (R76). -/
def Delivery.stageFor (d : Delivery) (slowdown : Nat) : Stage := if d.within slowdown then .slow else .fast

/-- Enter FLOWING in a stage: its valves open and its claim flows (R76, R100). -/
def State.flow (s : State) (p : PointId) (stage : Stage) : State :=
  (s.setPoint p
    { (s.point p) with state := .flowing stage, fastValve := stage == .fast, slowValve := true }).setArbiter
    (s.arbiter.flowClaim p)

/-- What a grant does to a delivery: the comparison of R76 decides. -/
def State.grantFlow (s : State) (p : PointId) (d : Delivery) : State :=
  let s :=
    (s.setPoint p { s.point p with authTimer := none, flowStarted := true }).setArbiter (s.arbiter.withdraw p)
  if d.within (s.point p).closeAhead then s.finish p d.limitCause
  else s.flow p (d.stageFor (s.point p).slowdown)

/-- A grant reaches a point; it is received only in WAIT_SUCTION (R76, R98). -/
def State.grant (s : State) (p : PointId) : State :=
  match (s.point p).context, (s.point p).state with
  | some d, .waitSuction => s.grantFlow p d
  | _, _ => s

/-- The comparison of R77 for a FLOWING point. -/
def State.compareFlow (s : State) (p : PointId) : State :=
  match (s.point p).context, (s.point p).state with
  | some d, .flowing stage =>
    if d.within (s.point p).closeAhead then s.finish p d.limitCause
    else if stage = .fast ∧ d.within (s.point p).slowdown then
      s.setPoint p { s.point p with state := .flowing .slow, fastValve := false }
    else s
  | _, _ => s

/-- The comparison made at once when a limit is lowered (R78). -/
def State.compareLowered (s : State) (p : PointId) : State :=
  match (s.point p).context with
  | none => s
  | some d =>
    if (s.point p).state.isFlowing then s.compareFlow p
    else if (s.point p).state.unfinished ∧ d.within (s.point p).closeAhead then s.finish p d.limitCause
    else s

/-- Lower a delivery's limit to `limit` with its reservations (R59). -/
def State.lowerLimit (s : State) (p : PointId) (limit : Nat) (source : LimitSource) : State :=
  match (s.point p).context with
  | none => s
  | some d =>
    let cut := min (d.limit - limit) d.current.remaining
    let res := reservationFor limit d.price
    let s := s.modMachine d.machine fun m => { m with reserved := limit }
    let s := s.modAccount d.account fun a => { a with reserved := a.reserved - (d.reservation - res) }
    let s := s.releaseOn d.current.comp cut
    s.setPoint p
      { s.point p with
        context := some
          { d with
            limit := limit, source := source, reservation := res,
            current := { d.current with remaining := d.current.remaining - cut } } }

/-- Series ends is set (R67). -/
def State.endSeries (s : State) (p : PointId) : State := s.setPoint p { s.point p with seriesEnds := true }

/-! ### Coupling held and flow blocks (R37, R74) -/

/-- The coupling is held: COUPLED with identity `t`. -/
def Coupling.heldFor (c : Coupling) (t : TagId) : Bool :=
  match c with
  | .coupled u _ => u == t
  | _ => false

/-- The coupling flow block (R74). -/
def State.couplingBlock (s : State) (p : PointId) : Bool :=
  match (s.point p).context with
  | some d =>
    match d.ident with
    | .tag t => !(s.coupler p).coupling.heldFor t
    | .manual => false
  | none => false

/-- The pump flow block stands in RETRY_WAIT and LATCHED (R102). -/
def PumpState.blocks : PumpState → Bool
  | .retryWait => true
  | .latched => true
  | _ => false

/-- No flow block stands at a point (R74). -/
def State.unblocked (s : State) (p : PointId) : Bool :=
  !s.couplingBlock p && !s.pump.state.blocks && !s.watch.block && s.power.state == .run

/-- The states that take a press (R74). -/
def PointState.waitsForPress : PointState → Bool
  | .authorised => true
  | .suspended .triggerReleased => true
  | .suspended .suctionLost => true
  | _ => false

end Sys2Proof.Machine
end

