-- ==== Sys2Proof/Machine/Selector.lean ====
section
/-! DEFINITION. The suction arbiter: requests, picks, grants, arrival and release (R94 to R101). -/

namespace Sys2Proof.Machine

open Sys2Proof

/-- A point files its request for `c` (R96). Where the selector is IDLE the pick that follows is `State.arbitrate`. -/
def State.fileRequest (s : State) (p : PointId) (c : CompId) : State :=
  match s.arbiter.selector with
  | .held d =>
    if d = c ∧ (¬ s.barred c ∨ s.arbiter.claims.get p = .held) then s.grant p
    else s.setArbiter { s.arbiter with waiting := s.arbiter.waiting.set p (some c) }
  | .moving d =>
    if d = c ∧ ¬ s.barred c then s.setArbiter { s.arbiter with admitted := s.arbiter.admitted.set p true }
    else s.setArbiter { s.arbiter with waiting := s.arbiter.waiting.set p (some c) }
  | .idle _ => s.setArbiter { s.arbiter with waiting := s.arbiter.waiting.set p (some c) }

/-- The compartment of a point's waiting request, if it is not barred (R97). -/
def State.eligibleRequest (s : State) (p : PointId) : Option CompId :=
  (s.arbiter.waiting.get p).filter fun c => !s.barred c

/-- Who wins a tie (R97). -/
def Arbiter.winner (a : Arbiter) : PointId :=
  match a.policy with
  | .fixed => .a
  | .lowest p => p.other
  | .rotate => match a.lastGranted with | some p => p.other | none => .a

/-- The point a pick chooses, and the compartment it grants (R97). -/
def State.choice (s : State) : Option (PointId × CompId) :=
  match s.eligibleRequest .a, s.eligibleRequest .b with
  | none, none => none
  | some c, none => some (.a, c)
  | none, some c => some (.b, c)
  | some c, some d => match s.arbiter.winner with | .a => some (.a, c) | .b => some (.b, d)

/-- Admit every waiting request for `c` (R98). -/
def Arbiter.admitFor (a : Arbiter) (c : CompId) : Arbiter :=
  { a with
    admitted := { a := a.admitted.a || a.waiting.a == some c, b := a.admitted.b || a.waiting.b == some c }
    waiting :=
      { a := if a.waiting.a = some c then none else a.waiting.a
        b := if a.waiting.b = some c then none else a.waiting.b } }

/-- The selector is HELD(c) and each admitted point receives its grant (R98). -/
def State.grantAdmitted (s : State) (c : CompId) : State :=
  let toA := s.arbiter.admitted.a
  let toB := s.arbiter.admitted.b
  let s :=
    s.setArbiter
      { s.arbiter with selector := .held c, motor := false, travel := none, admitted := { a := false, b := false } }
  let s := if toA then s.grant .a else s
  if toB then s.grant .b else s

/-- Grant `c` to the point a pick chose: at once where the selector stands there, else by a travel (R98). -/
def State.grantTo (s : State) (p : PointId) (c : CompId) : State :=
  let a := { s.arbiter with lastGranted := some p }.admitFor c
  if s.arbiter.selector = .idle (some c) then (s.setArbiter a).grantAdmitted c
  else s.setArbiter { a with selector := .moving c, motor := true, travel := some a.travelTime }

/-- A pick, where the selector is IDLE (R97). -/
def State.pick (s : State) : State :=
  match s.arbiter.selector with
  | .idle _ =>
    match s.choice with
    | some (p, c) => s.grantTo p c
    | none => s
  | _ => s

/-- The selector in HELD(c) is released when no claim is flowing or held (R100). -/
def State.testRelease (s : State) : State :=
  match s.arbiter.selector with
  | .held c =>
    if s.arbiter.claims = { a := .none, b := .none } then s.setArbiter { s.arbiter with selector := .idle (some c) }
    else s
  | _ => s

/-- Release and pick, as often as grants that go straight to FINISHING can call for: at most once for each point and once
more (R98, R100). Where nothing is due it changes nothing. -/
def State.arbitrate (s : State) : State :=
  s.testRelease.pick.testRelease.pick.testRelease.pick

/-- The travel timer runs out: arrival at `c` (R98). -/
def State.arrive (s : State) (c : CompId) : State :=
  if s.arbiter.admitted = { a := false, b := false } then
    s.setArbiter { s.arbiter with selector := .idle (some c), motor := false, travel := none }
  else s.grantAdmitted c

end Sys2Proof.Machine
end

