-- ==== Sys2Proof/Machine/PumpUnit.lean ====
section
/-! DEFINITION. The transfer pump: the run condition, fault detection and actions, dry runs and the switch of segments
(R102 to R113, R84). -/

namespace Sys2Proof.Machine

open Sys2Proof

def PerFault.get {α : Type} (x : PerFault α) : FaultKind → α
  | .stall => x.stall
  | .dryRun => x.dryRun
  | .noFlow => x.noFlow
  | .supplyLow => x.supplyLow
  | .supplyHigh => x.supplyHigh
  | .overcurrent => x.overcurrent

def PerFault.set {α : Type} (x : PerFault α) (k : FaultKind) (v : α) : PerFault α :=
  match k with
  | .stall => { x with stall := v }
  | .dryRun => { x with dryRun := v }
  | .noFlow => { x with noFlow := v }
  | .supplyLow => { x with supplyLow := v }
  | .supplyHigh => { x with supplyHigh := v }
  | .overcurrent => { x with overcurrent := v }

/-! ### The conditions and their deglitch timers (R105) -/

/-- A kind's condition as now sensed (R105). -/
def Pump.condition (x : Pump) : FaultKind → Bool
  | .stall => decide (x.faults.stall.first ≤ x.current) && decide (x.speed < 20)
  | .dryRun => decide (x.faults.dryRun.first ≤ x.speed) && decide (x.current < x.faults.dryRun.second)
  | .supplyLow => x.supply == .below
  | .supplyHigh => x.supply == .above
  | .noFlow => false
  | .overcurrent => false

/-- The pump states a kind is tested in (R105). -/
def PumpState.tests (s : PumpState) : FaultKind → Bool
  | .stall => s == .starting || s == .running
  | .dryRun => s == .running
  | .noFlow => s == .running
  | .supplyLow => true
  | .supplyHigh => true
  | .overcurrent => s == .starting || s == .running

/-- Whether a supply kind is noted as present (R102). -/
def Pump.present (x : Pump) : FaultKind → Bool
  | .supplyLow => x.lowPresent
  | .supplyHigh => x.highPresent
  | _ => false

def Pump.setPresent (x : Pump) (k : FaultKind) (v : Bool) : Pump :=
  match k with
  | .supplyLow => { x with lowPresent := v }
  | .supplyHigh => { x with highPresent := v }
  | _ => x

/-- Test a kind's condition: its deglitch timer starts where the condition stands, and stops, with its marks cleared,
where it does not (R105, R110). A kind set to OFF is not tested. THE MODEL'S CHOICE (log entry 36): the condition of a kind
taken out of OFF begins at the next test. -/
def Pump.test (x : Pump) (k : FaultKind) : Pump :=
  if (x.faults.get k).action = .off then x
  else if x.state.tests k ∧ x.condition k then
    if x.deglitch.get k = none ∧ ¬ x.reported.get k ∧ ¬ (x.present k ∧ x.state = .latched) then
      { x with deglitch := x.deglitch.set k (some (x.faults.get k).deglitch) }
    else x
  else { x with deglitch := x.deglitch.set k none, reported := x.reported.set k false }.setPresent k false

/-- Test the conditions that are sensed. -/
def Pump.testAll (x : Pump) : Pump := (((x.test .stall).test .dryRun).test .supplyLow).test .supplyHigh

/-! ### Running (R103) -/

/-- A point is FLOWING on the compartment the selector holds. -/
def State.flowingOnHeld (s : State) (p : PointId) : Bool :=
  match s.arbiter.selector with
  | .held c => (s.point p).state.isFlowing && s.drawsOn c p
  | _ => false

/-- The run condition (R103). -/
def State.runCondition (s : State) : Bool := s.flowingOnHeld .a || s.flowingOnHeld .b

/-- STOPPED into STARTING. -/
def Pump.start (x : Pump) : Pump := { x with state := .starting, drive := true, ramp := some x.rampTime }.testAll

/-- STARTING or RUNNING into STOPPED: the timers and marks of the running-state faults go with it (R103, R110). -/
def Pump.stop (x : Pump) : Pump :=
  { x with
    state := .stopped, drive := false, ramp := none, noFlow := none, cleanRun := none
    deglitch := { x.deglitch with stall := none, dryRun := none }
    reported := { x.reported with stall := false, dryRun := false, noFlow := false } }

/-- The pump follows the run condition (R103). -/
def State.followRun (s : State) : State :=
  if s.runCondition then (if s.pump.state = .stopped then s.setPump s.pump.start else s)
  else if s.pump.state = .starting ∨ s.pump.state = .running then s.setPump s.pump.stop
  else s

/-! ### No flow (R106) -/

/-- The summed rate of the points FLOWING on the held compartment (R106). -/
def State.summedRate (s : State) : Nat :=
  (if s.flowingOnHeld .a then s.channels.first.lastRate else 0) +
  (if s.flowingOnHeld .b then s.channels.second.lastRate else 0)

/-- Recompute the summed rate and start or stop the no-flow timer (R106). THE MODEL'S CHOICE (log entry 36): for a kind taken
out of OFF with the rate already below the minimum, the timer starts at the next recomputation. -/
def State.testNoFlow (s : State) : State :=
  let x := s.pump
  if x.state = .running ∧ x.faults.noFlow.action ≠ .off then
    if s.summedRate < x.faults.noFlow.first then
      if x.noFlow = none ∧ ¬ x.reported.noFlow then s.setPump { x with noFlow := some x.faults.noFlow.second } else s
    else s.setPump { x with noFlow := none, reported := { x.reported with noFlow := false } }
  else s

/-- The ramp is over: RUNNING, with the clean-run timer started (R103, R108). -/
def Pump.run (x : Pump) : Pump :=
  { x with state := .running, ramp := none, cleanRun := some Config.cleanRunTime }.testAll

/-! ### Fault actions (R107 to R110) -/

/-- Every point is told of the fault (R82). -/
def State.tellFault (s : State) : State := (s.suspendFlow .a .pumpFault).suspendFlow .b .pumpFault

/-- Every point is told the pump may run again (R82). -/
def State.mayRun (s : State) : State := (s.lift .a .pumpFault).lift .b .pumpFault

/-- What a fault's stop leaves of another kind's timer: one that has run out is a detection made together with the fault's,
whose row waits to be taken second; one with time left stops (R105; log entry 11). -/
def ranOut (t : Timer) : Timer := t.filter fun n => n == 0

/-- The drive goes off at a fault. A STALL or DRY_RUN detected together with it is dropped, a NO_FLOW is not (R105). -/
def Pump.trip (x : Pump) : Pump := { x.stop with noFlow := ranOut x.noFlow }

/-- The pump enters LATCHED with its drive off and every pump timer stopped, the deglitch timers too (R107; log entry
12), but for the detections made together with this one (R105). In a pump already LATCHED the clear timer is left to the
supply (R109; log entry 11). -/
def Pump.halt (x : Pump) : Pump :=
  { x.trip with
    state := .latched, retry := none
    deglitch :=
      { PerFault.all none with
        supplyLow := ranOut x.deglitch.supplyLow, supplyHigh := ranOut x.deglitch.supplyHigh }
    clear := if x.state = .latched then x.clear else none }

/-- Action LATCH, or AUTO_CLEAR where `auto` (R107). A pump already LATCHED keeps the cause that latched it (R105; log
entry 11). -/
def State.latch (s : State) (k : FaultKind) (auto : Bool) : State :=
  let x := s.pump
  let latched := if x.state = .latched then x.latched else some (k, auto)
  let y := { x.halt with latched := latched, lastFault := some (k, .latch) }
  ((s.setPump (y.setPresent k true)).tellFault).raise .pumpFault

/-- RETRY_WAIT with its timer, one retry more counted. A pump already LATCHED stays so, and no retry is counted (R107; log
entry 11). -/
def Pump.holdOff (x : Pump) : Pump :=
  if x.state = .latched then x
  else
    { x.trip with
      state := .retryWait, retryCount := min Config.retryMax (x.retryCount + 1), retry := some x.retryTime }

/-- Action RETRY below the retry limit (R108). -/
def State.retry (s : State) (k : FaultKind) : State :=
  ((s.setPump { s.pump.holdOff with lastFault := some (k, .retry) }).tellFault).raise .pumpFault

/-- Action REPORT (R110): notified where the kind's reported mark is not set yet. The mark does not stand in a pump that has
left the states in which the kind is tested. -/
def State.report (s : State) (k : FaultKind) : State :=
  let x := s.pump
  let t := s.setPump { x with lastFault := some (k, .report), reported := x.reported.set k (x.state.tests k) }
  if s.pump.reported.get k then t else t.raise .pumpFault

/-- The retry limit leaves room for a retry (R108). -/
def Pump.mayRetry (x : Pump) : Bool :=
  match x.retryLimit with
  | none => true
  | some n => decide (x.retryCount < n)

/-- Act on a detection by the kind's action (R105). -/
def State.act (s : State) (k : FaultKind) : State :=
  match (s.pump.faults.get k).action with
  | .off => s
  | .report => s.report k
  | .retry => if s.pump.mayRetry then s.retry k else s.latch k false
  | .latch => s.latch k false
  | .autoClear => s.latch k true

/-- Leave RETRY_WAIT or LATCHED for STOPPED (R102, R108, R109). -/
def State.releasePump (s : State) : State :=
  (s.setPump
    { s.pump with state := .stopped, retry := none, clear := none, latched := none, noFlow := none }).mayRun

/-! ### The dry run (R111 to R113, R84) -/

/-- A switch target for a delivery whose segment is on `c` (R112). -/
def State.isTarget (s : State) (c : CompId) (p : ProductId) (d : CompId) : Bool := d != c && s.eligible d p

/-- The compartment with the greatest available stock among those that pass, the lower number among equals (R54, R112). -/
def State.mostStock (s : State) (ok : CompId → Bool) : Option CompId :=
  Num4.all.foldl
    (fun best c =>
      if ok c then
        match best with
        | none => some c
        | some b => if s.availableOn b < s.availableOn c then some c else best
      else best)
    none

/-- Move a delivery to a second segment on `d` with remaining limit `r` (R113, step 4). -/
def State.switchTo (s : State) (p : PointId) (d : CompId) (r : Nat) : State :=
  match (s.point p).context with
  | none => s
  | some x =>
    let c := x.current.comp
    let s := s.releaseOn c x.current.remaining
    let s :=
      s.setPoint p
        { s.point p with
          context := some
            { x with
              earlier := some { x.current with remaining := 0 },
              current := { comp := d, net_uL := 0, remaining := r } } }
    let s := ((s.reserveOn d r).stopSettle d).reorderFall d
    (s.setArbiter (s.arbiter.dropClaim p)).startSettle c

/-- Switch or end one delivery whose current segment is on `c` (R112, R113). A SET_LIMIT_SETTINGS has no effect on an open
delivery (R61), so the minimum delivery is the one that stood at its authorisation (log entry 35). -/
def State.switchOrEnd (s : State) (c : CompId) (p : PointId) : State :=
  match (s.point p).context with
  | none => s
  | some x =>
    if x.earlier.isSome then s.finish p .stockEmpty
    else
      match s.mostStock (s.isTarget c x.product) with
      | none => s.finish p .stockEmpty
      | some d =>
        let v := cLof x.current.net_uL
        let remainder := x.limit - v
        let room := s.availableOn d
        if room < remainder then
          let s := s.lowerLimit p (v + room) .stock
          if room < x.minimum then s.finish p .stockEmpty
          else (s.switchTo p d room).compareLowered p
        else if remainder < x.minimum then s.finish p .stockEmpty
        else s.switchTo p d remainder

/-- A point's delivery draws on `c` and is not in FINISHING (R84, R112). -/
def State.losesSuction (s : State) (c : CompId) (p : PointId) : Bool :=
  s.drawsOn c p && (s.point p).state.unfinished

def State.switchIf (s : State) (c : CompId) (p : PointId) : State :=
  if s.losesSuction c p then s.switchOrEnd c p else s

def State.suspendIf (s : State) (c : CompId) (p : PointId) : State :=
  if s.losesSuction c p then s.suspendFlow p .suctionLost else s

/-- Lost suction on `c` is reported to every point (R84). Of two deliveries on `c` either may be first: a free value
(R113; log entry 7). -/
def State.loseSuction (s : State) (c : CompId) : State :=
  let s := (s.suspendIf c .a).suspendIf c .b
  if s.losesSuction c .a ∧ s.losesSuction c .b then
    let bFirst := Config.switchBFirst s.choices
    let s := { s with choices := s.choices + 1 }
    if bFirst then (s.switchIf c .b).switchIf c .a else (s.switchIf c .a).switchIf c .b
  else (s.switchIf c .a).switchIf c .b

/-- Mark SUCTION_LOST on `c` (R129). -/
def State.markSuctionLost (s : State) (c : CompId) : State :=
  if (s.comp c).any fun x => !x.suctionLost then
    (s.modComp c fun x => { x with suctionLost := true }).raise .suctionLost
  else s

/-- Mark `c` EMPTY (R129). -/
def State.markEmpty (s : State) (c : CompId) : State :=
  if (s.comp c).any fun x => x.state != .empty then
    (s.modComp c fun x => { x with state := .empty }).raise .compartmentEmpty
  else s

/-- A compartment is near empty (R111). -/
def State.nearEmpty (s : State) (c : CompId) : Bool :=
  (s.comp c).any fun x => decide (s.drawnDown c ≤ x.heel + x.margin)

/-- A dry run on `c`, after the kind's action (R111, steps 2 to 4). -/
def State.dryRun (s : State) (c : CompId) : State :=
  let s := s.markSuctionLost c
  if s.nearEmpty c then (s.markEmpty c).loseSuction c else s

/-- A kind is detected (R105): its action, then for DRY_RUN what R111 adds on the held compartment. -/
def State.detect (s : State) (k : FaultKind) : State :=
  let s := s.setPump { s.pump with deglitch := s.pump.deglitch.set k none }
  match k, s.arbiter.selector with
  | .dryRun, .held c => (s.act k).dryRun c
  | _, _ => s.act k

end Sys2Proof.Machine
end

