-- ==== Sys2Proof/Machine/Limit.lean ====
section
/-! DEFINITION. The limit unit: the checks, compartment choice, limit terms and reservations of an authorisation (R53 to
R58). -/

namespace Sys2Proof.Machine

open Sys2Proof

/-- What a point asks to be authorised: the machine, how it was identified, and what was handed on (R35, R41, R92). -/
structure AuthRequest where
  machine : MachineRec
  ident : Identity
  hours : Option Nat
  level : Option Nat
  fill : Nat
  deriving DecidableEq, Repr

/-- A refused authorisation: its reason, with the limit source for BELOW_MINIMUM (R53, R56). -/
structure AuthRefusal where
  reason : Reason
  source : Option LimitSource
  deriving DecidableEq, Repr

/-- The machine has no open delivery on the other point (R53, R58). -/
def State.machineBusy (s : State) (p : PointId) (machine : Nat) : Bool :=
  (s.point p.other).context.any fun d => d.machine == machine

/-- The preferred compartment: the one the selector's state names (R54). -/
def Selector.preferred : Selector → Option CompId
  | .idle p => p
  | .moving c => some c
  | .held c => some c

/-- The compartment a delivery draws from (R54). -/
def State.chooseComp (s : State) (p : ProductId) : Option CompId :=
  match s.arbiter.selector.preferred.filter fun c => s.eligible c p && decide (s.limits.minimum ≤ s.availableOn c) with
  | some c => some c
  | none => s.mostStock fun c => s.eligible c p

/-- The TANK term (R44). -/
def tankTerm (capacity : Nat) (level : Option Nat) : Nat :=
  match level with
  | some q => capacity * (100 - q) / 100
  | none => capacity

/-- The price a delivery locks (R56). -/
def State.priceOf (s : State) (p : ProductId) (t : Tier) : Nat := (s.prices.current.get p).get t

def Preset.volumeAt (x : Preset) (price : Nat) : Nat :=
  match x with
  | .volume v => v
  | .amount a => volumeFor a price

/-- The limit terms that apply, in the order of R55, with their sources. -/
def limitTerms (preset : Option Preset) (r : AuthRequest) (a : Account) (price available cap : Nat) :
    List (Nat × LimitSource) :=
  (match preset with | some x => [(x.volumeAt price, .preset)] | none => []) ++
  [(tankTerm r.machine.capacity r.level, .tank)] ++
  (if r.machine.shiftAllowance = 0 then []
   else [(r.machine.shiftAllowance - r.machine.shiftUsage, .shiftAllowance)]) ++
  (if r.machine.dayAllowance = 0 then [] else [(r.machine.dayAllowance - r.machine.dayUsage, .dayAllowance)]) ++
  (if a.credit = 0 then [] else [(volumeFor (a.credit - a.spent - a.reserved) price, .credit)]) ++
  [(available, .stock)] ++
  (if r.ident = .manual then [(cap, .manualCap)] else [])

/-- The least term, the first of equals (R55). -/
def leastTerm (first : Nat × LimitSource) : List (Nat × LimitSource) → Nat × LimitSource
  | [] => first
  | t :: rest => leastTerm (if t.1 < first.1 then t else first) rest

/-- The limit with its source (R55); TANK always applies, so the list is never empty. -/
def limitOf (terms : List (Nat × LimitSource)) : Nat × LimitSource :=
  match terms with
  | [] => (0, .tank)
  | t :: rest => leastTerm t rest

/-- The reservations of a successful authorisation, with the context, the binding and AUTHORISED (R56, R57, R73). THE MODEL'S
CHOICE (log entry 33): the outcome of an accepted tag identification also keeps the tag identity. -/
def State.openDelivery (s : State) (p : PointId) (r : AuthRequest) (a : Account) (c : CompId) (limit : Nat)
    (source : LimitSource) (price : Nat) : State :=
  let res := reservationFor limit price
  let d : Delivery :=
    { machine := r.machine.number, ident := r.ident, account := a.number, product := r.machine.product,
      limit := limit, source := source, price := price, reservation := res, preset := (s.point p).preset,
      hours := r.hours, start := s.clock.now, startInvalid := !s.clock.valid, gross_uL := 0, net_uL := 0, tempSum := 0,
      earlier := none, current := { comp := c, net_uL := 0, remaining := limit }, flags := Flags.clear, fill := r.fill,
      repeatCount := (s.point p).repeatCount, minimum := s.limits.minimum }
  let s := s.modMachine r.machine.number fun m => { m with reserved := limit }
  let s := s.modAccount a.number fun x => { x with reserved := x.reserved + res }
  let s := ((s.reserveOn c limit).stopSettle c).reorderFall c
  let s := (s.reserveSlot).bindChannel (channelFor p) r.machine.product
  let s :=
    s.setPoint p
      { s.point p with
        state := .authorised, context := some d, flowStarted := false, fill := r.fill,
        authTimer := some s.times.auth }
  s.setCoupler p
    { s.coupler p with
      outcome :=
        some
          { status := .ok, reason := none, source := none, machine := some r.machine.number,
            tag := match r.ident with | .tag t => some t | .manual => none } }

/-- The checks of R53 and the limit of R55: what a successful authorisation opens, or the refusal. -/
def State.checkAuth (s : State) (p : PointId) (r : AuthRequest) :
    Except AuthRefusal (Account × CompId × Nat × LimitSource × Nat) :=
  let refuse (x : Reason) : Except AuthRefusal (Account × CompId × Nat × LimitSource × Nat) :=
    .error { reason := x, source := none }
  if s.power.state ≠ .run then refuse .standby
  else if s.machineBusy p r.machine.number then refuse .machineBusy
  else if ¬ (s.product r.machine.product).any fun x => x.points.get p then refuse .productNotAtPoint
  else
    match findAccount s.accounts r.machine.account with
    | none => refuse .accountClosed
    | some a =>
      if a.closed then refuse .accountClosed
      else if a.stopped then refuse .accountStopped
      else
        match s.chooseComp r.machine.product with
        | none => refuse .noStock
        | some c =>
          if ¬ s.journal.canReserve then refuse .journalFull
          else
            let price := s.priceOf r.machine.product a.tier
            let (limit, source) :=
              limitOf (limitTerms (s.point p).preset r a price (s.availableOn c) s.limits.manualCap)
            if limit < s.limits.minimum then .error { reason := .belowMinimum, source := some source }
            else .ok (a, c, limit, source, price)

/-- An authorisation, computed at once (R53 to R57). -/
def State.authorise (s : State) (p : PointId) (r : AuthRequest) : Except AuthRefusal State :=
  match s.checkAuth p r with
  | .error x => .error x
  | .ok (a, c, limit, source, price) => .ok (s.openDelivery p r a c limit source price)

/-- A refused identification or authorisation is kept as the point's last identification outcome (R34, R41). -/
def State.setRefusal (s : State) (p : PointId) (status : Status) (reason : Option Reason) (source : Option LimitSource)
    (tag : Option TagId) (machine : Option Nat) : State :=
  s.setCoupler p
    { s.coupler p with
      outcome := some { status := status, reason := reason, source := source, tag := tag, machine := machine } }

/-- The notices of a refused authorisation of a tag identification or a re-arm (R53, R157). -/
def State.raiseRefused (s : State) (x : AuthRefusal) : State :=
  let s := s.raise .authRefused
  if x.reason = .journalFull then s.raise .journalFull else s

end Sys2Proof.Machine
end

