-- ==== Sys2Proof/Machine/Closing.lean ====
section
/-! DEFINITION. The close of a delivery: release, charge, record or void, and the REPEAT re-arm (R62, R63, R88, R89, R92).
-/

namespace Sys2Proof.Machine

open Sys2Proof

/-- Release a delivery's reservations and unbind its channel; its journal slot is used or returned later (R62). -/
def State.releaseDelivery (s : State) (p : PointId) (d : Delivery) : State :=
  let s := s.modMachine d.machine fun m => { m with reserved := 0 }
  let s := s.modAccount d.account fun a => { a with reserved := a.reserved - d.reservation }
  (s.releaseOn d.current.comp d.current.remaining).unbindChannel (channelFor p)

/-- The hours of a delivery go backward against the machine's last hours (R43). -/
def hoursBackward (hours last : Option Nat) : Bool :=
  match hours, last with
  | some h, some l => decide (h < l)
  | _, _ => false

/-- The machine's last hours after a close with a record (R43). -/
def settledHours (hours last : Option Nat) : Option Nat :=
  match hours with
  | none => last
  | some h => if hoursBackward hours last then last else some h

/-- The machine's charge (R43, R63). -/
def MachineRec.charge (m : MachineRec) (net : Nat) (hours : Option Nat) : MachineRec :=
  { m with
    shiftUsage := addCapped Config.max32 m.shiftUsage net, dayUsage := addCapped Config.max32 m.dayUsage net,
    lastHours := settledHours hours m.lastHours }

/-- The account's charge, which sets stopped where spent reaches a nonzero credit limit (R47, R63). -/
def Account.charge (a : Account) (amount : Nat) : Account :=
  let b := { a with spent := addCapped Config.spentMax a.spent amount }
  { b with stopped := b.stopped || b.reached }

/-- Charge an account; CREDIT_STOP when stopped changes from clear to set (R47). -/
def State.chargeAccount (s : State) (n amount : Nat) : State :=
  let was := (findAccount s.accounts n).any fun a => !a.stopped && (a.charge amount).stopped
  let s := s.modAccount n fun a => a.charge amount
  if was then s.raise .creditStop else s

/-- The segments of a delivery with the centilitres charged to each (R63). -/
def Delivery.charges (d : Delivery) : List (CompId × Nat) :=
  match d.earlier with
  | none => [(d.current.comp, cLof d.net_uL)]
  | some e => [(e.comp, cLof e.net_uL), (d.current.comp, cLof d.net_uL - cLof e.net_uL)]

/-- The DELIVERY or CAN_FILL record's own fields (R89). -/
def deliveryRecordOf (p : PointId) (d : Delivery) (cause : EndCause) (backward recovered : Bool) : DeliveryRecord :=
  { canFill := d.fill != 0, point := p, machine := d.machine, method := d.ident.method, account := d.account,
    product := d.product, segments := d.charges, start := d.start, startInvalid := d.startInvalid,
    gross := cLof d.gross_uL, net := cLof d.net_uL, mean := meanTemp d.tempSum d.gross_uL, price := d.price,
    amount := billAmount (cLof d.net_uL) d.price, limit := d.limit, source := d.source,
    overrun := cLof d.net_uL - d.limit, hours := d.hours, cause := cause, flags := d.flags,
    hoursBackward := backward, recovered := recovered }

/-- Charge a delivery that is not void and write its record into its reservation (R63, R89, R158). -/
def State.chargeDelivery (s : State) (p : PointId) (d : Delivery) (cause : EndCause) (recovered : Bool) : State :=
  let net := cLof d.net_uL
  let backward := (findMachine s.roster d.machine).any fun m => hoursBackward d.hours m.lastHours
  let s := s.modMachine d.machine fun m => m.charge net d.hours
  let s := s.chargeAccount d.account (billAmount net d.price)
  let s := d.charges.foldl (fun s x => s.chargeBook x.1 p d.machine x.2) s
  (s.storeReserved (.delivery (deliveryRecordOf p d cause backward recovered))).tallyDelivery d.product net

/-- A close is void (R88). -/
def Delivery.isVoid (d : Delivery) (cause : EndCause) : Bool := cLof d.net_uL == 0 || cause == .authTimeout

/-- The point's side of a close: its timers, valves, request and claim (R88, step 1). -/
def State.quietPoint (s : State) (p : PointId) : State :=
  ((s.setPoint p { (s.point p).shut.stopTimers with meterSettle := none }).stopGrace p).setArbiter
    ((s.arbiter.withdraw p).dropClaim p)

/-- The point once closed: no context, no pending end cause, and CLOSED with its preset absent (R88, steps 5 and 7). -/
def Point.closed (x : Point) (last : LastClose) : Point :=
  { x with
    state := .closed, context := none, pendingEnd := none, flowStarted := false, preset := none, fill := 0,
    seriesEnds := false, lastClose := some last }

/-- The close of R88 with the point going to CLOSED. -/
def State.close (s : State) (p : PointId) (cause : EndCause) (recovered : Bool) : State :=
  match (s.point p).context with
  | none => s
  | some d =>
    let s := (s.quietPoint p).releaseDelivery p d
    let s :=
      if d.isVoid cause then s.returnSlot else s.chargeDelivery p d cause recovered
    let seq := if d.isVoid cause then none else some (s.journal.next - 1)
    let s := s.setPoint p ((s.point p).closed { seq := seq, cause := cause })
    (s.raise (if d.isVoid cause then .deliveryVoid else .deliveryClosed)).startSettle d.current.comp

/-- A fill meets the conditions of a re-arm (R92). -/
def State.rearms (s : State) (p : PointId) (d : Delivery) (cause : EndCause) : Bool :=
  cause == .preset && d.fill != 0 && (s.point p).mode == .repeatFill && !(s.point p).seriesEnds &&
    decide (d.fill < d.repeatCount) && (s.coupler p).offHook

/-- The re-arm: authorise the next fill with the point's stored preset (R92). A refusal ends the series (R53). -/
def State.rearm (s : State) (p : PointId) (d : Delivery) (preset : Option Preset) : State :=
  match findMachine s.roster d.machine with
  | none => s.raiseRefused { reason := .productNotAtPoint, source := none }
  | some m =>
    let t := s.setPoint p { s.point p with preset := preset }
    match t.authorise p { machine := m, ident := .manual, hours := none, level := none, fill := d.fill + 1 } with
    | .ok u => u
    | .error x => s.raiseRefused x

/-- The close with its continuation (R88). -/
def State.closeOn (s : State) (p : PointId) (cause : EndCause) : State :=
  match (s.point p).context with
  | none => s
  | some d =>
    let preset := (s.point p).preset
    let t := s.close p cause false
    if s.rearms p d cause then t.rearm p d preset else t

end Sys2Proof.Machine
end

