-- ==== Sys2Proof/Machine/Loading.lean ====
section
/-! DEFINITION. The load sequencer: promotion, the start test, the fixing of the target, the window test, ends with and
without a receipt (R131 to R148). -/

namespace Sys2Proof.Machine

open Sys2Proof

/-- The entry ends its LOADING: the inlet valve closes and SETTLING begins with a pending end cause (R140 to R144). -/
def State.settleLoad (s : State) (e : Entry) (x : LoadContext) (cause : EndCause) : State :=
  s.setLoader
    { s.loader with
      current := some { e with state := .settling, context := some { x with pendingEnd := some cause } }
      noFlow := none, settle := some s.times.meterSettle, inlets := s.loader.inlets.set e.comp false }

/-- Clear stage empty, and with it the standing notice (R136). -/
def State.clearStageEmpty (s : State) : State :=
  if s.loader.stageEmpty then (s.setLoader { s.loader with stageEmpty := false }).withdraw .loadStageEmpty else s

/-- The plan becomes NONE (R147): its docket and staged entries go with it. -/
def State.closePlan (s : State) : State :=
  (s.setLoader { s.loader with state := .none, docket := none, staged := [], paused := false }).clearStageEmpty

/-- After an entry has ended: a CLOSING plan becomes NONE (R145, step 7). The promotion an OPEN plan makes is
`State.advance`. -/
def State.afterEntry (s : State) : State := if s.loader.state = .closing then s.closePlan else s

/-- The current entry leaves the plan with its result (R131, R145, R146). -/
def State.endEntry (s : State) (c : CompId) (seq : Option SeqNo) (cause : EndCause) : State :=
  s.setLoader
    { s.loader with
      current := none, lastResult := some { seq := seq, comp := c, cause := cause }, settle := none,
      noFlow := none, inlets := s.loader.inlets.set c false }

/-- End an entry without a receipt (R146), the notice and the plan's going on apart. -/
def State.dropEntry (s : State) (e : Entry) (cause : EndCause) : State :=
  ((s.returnSlot).modComp e.comp fun x => { x with draining := false }).endEntry e.comp none cause

/-- The receipt record's own fields (R145). -/
def receiptOf (e : Entry) (x : LoadContext) (before after : Nat) (cause : EndCause) (recovered : Bool) : ReceiptRecord :=
  { comp := e.comp, product := x.product, docket := x.docket, target := e.target, used := x.used, start := x.start,
    startInvalid := x.startInvalid, gross := cLof x.gross_uL, net := cLof x.net_uL,
    mean := meanTemp x.tempSum x.gross_uL, bookBefore := before, bookAfter := after, cause := cause, flags := x.flags,
    clamped := x.clamped, recovered := recovered }

/-- The receipt close, steps 1 to 6 (R145). -/
def State.closeReceipt (s : State) (e : Entry) (x : LoadContext) (cause : EndCause) (recovered : Bool) : State :=
  let before := (s.comp e.comp).elim 0 fun y => y.book
  let net := cLof x.net_uL
  let seq := s.journal.next
  let s := s.unbindChannel .load
  let s := s.storeReserved (.receipt (receiptOf e x before (addCapped Config.bookMax before net) cause recovered))
  ((s.receiveStock e.comp net).endEntry e.comp (some seq) cause).raise .loadDone

/-! ### From staged to loading (R135 to R139) -/

/-- Promote the head staged entry, or pause (R135). -/
def State.promote (s : State) (head : Staged) (rest : List Staged) : State :=
  if s.journal.canReserve then
    let s := s.reserveSlot
    let s :=
      s.setLoader
        { s.loader with
          paused := false, staged := rest,
          current := some { comp := head.comp, target := head.target, state := .due, context := none } }
    let s := s.modComp head.comp fun x => { x with draining := true }
    if rest.isEmpty then (s.setLoader { s.loader with stageEmpty := true }).raise .loadStageEmpty else s
  else if s.loader.paused then s
  else (s.setLoader { s.loader with paused := true }).raise .journalFull

/-- Attempt a promotion where the plan is OPEN with no current entry (R135). -/
def State.tryPromote (s : State) : State :=
  match s.loader.state, s.loader.current, s.loader.staged with
  | .opened, none, head :: rest => s.promote head rest
  | _, _, _ => s

/-- The ullage up to the safe-fill volume (R138). -/
def Compartment.ullage (x : Compartment) : Int := ((x.capacity * x.safeFill / 100 : Nat) : Int) - (x.book : Int)

/-- The used target for an ullage, with TARGET_CLAMPED (R138). -/
def Target.used (t : Target) (ullage : Nat) : Nat × Bool :=
  match t with
  | .fill => (ullage, false)
  | .volume v => if v ≤ ullage then (v, false) else (ullage, true)

/-- Start loading with a fixed target (R139). -/
def State.startLoading (s : State) (e : Entry) (product : ProductId) (used : Nat) (clamped : Bool) : State :=
  let s := s.modComp e.comp fun x => { x with state := .loading, settle := none }
  let x : LoadContext :=
    { product := product, used := used, clamped := clamped, docket := s.loader.docket, start := s.clock.now,
      startInvalid := !s.clock.valid, gross_uL := 0, net_uL := 0, tempSum := 0, flowBegun := false,
      flags := Flags.clear, pendingEnd := none }
  let s := s.bindChannel .load product
  if used ≤ s.loader.closeAhead then s.settleLoad e x .target
  else if s.loader.highLevel.get e.comp then s.settleLoad e x .highLevel
  else
    s.setLoader
      { s.loader with
        current := some { e with state := .loading, context := some x },
        inlets := s.loader.inlets.set e.comp true }

def State.setEntryState (s : State) (e : Entry) (x : EntryState) : State :=
  s.setLoader { s.loader with current := some { e with state := x } }

/-- The start test of a DUE or WAITING entry (R137, R138). -/
def State.startTest (s : State) (e : Entry) : State :=
  match s.comp e.comp with
  | none => s
  | some x =>
    if x.state = .outOfService then s.setEntryState e .due
    else if s.arbiter.selector.holds e.comp ∨ s.segmentOn e.comp then s.setEntryState e .waiting
    else if x.ullage < (Config.ullageMin : Int) then ((s.dropEntry e .noUllage).raise .loadDone).afterEntry
    else
      let (used, clamped) := e.target.used x.ullage.toNat
      s.startLoading e x.product used clamped

/-- Make the start test where the current entry is DUE or WAITING. -/
def State.tryStart (s : State) : State :=
  match s.loader.current with
  | some e => if e.state = .due ∨ e.state = .waiting then s.startTest e else s
  | none => s

/-- Promotions and start tests, as often as entries that end with NO_ULLAGE can call for: at most once for the current
entry and each staged one. Where nothing is due it changes nothing. -/
def State.advance (s : State) : State :=
  s.tryStart.tryPromote.tryStart.tryPromote.tryStart.tryPromote.tryStart.tryPromote.tryStart.tryPromote.tryStart

/-! ### While the compartment fills (R140 to R142) -/

/-- The test at a window end of channel LOAD (R140). -/
def State.loadWindow (s : State) : State :=
  match s.loader.current with
  | some e =>
    match e.state, e.context with
    | .loading, some x =>
      if x.used ≤ cLof x.net_uL + s.loader.closeAhead then s.settleLoad e x .target
      else if 0 < s.channels.third.lastRate then
        s.setLoader
          { s.loader with current := some { e with context := some { x with flowBegun := true } }, noFlow := none }
      else if x.flowBegun ∧ s.loader.noFlow = none then
        s.setLoader { s.loader with noFlow := some s.loader.noFlowTime }
      else s
    | _, _ => s
  | none => s

/-- Settle the current entry with a cause, where it is LOADING (R141 to R143). -/
def State.stopLoading (s : State) (cause : EndCause) : State :=
  match s.loader.current with
  | some e =>
    match e.state, e.context with
    | .loading, some x => s.settleLoad e x cause
    | _, _ => s
  | none => s

/-- The current entry is LOADING on `c`. -/
def State.loadingOn (s : State) (c : CompId) : Bool :=
  s.loader.current.any fun e => e.comp == c && e.state == .loading

end Sys2Proof.Machine
end

