-- ==== Sys2Proof/Machine/Follow.lean ====
section
/-! DEFINITION. What the blocks do in the step in which another block's state has changed: the sequencer, the arbiter, the
pump and the console watch follow (R97, R100, R103, R106, R135, R137, R185; log entry 15). -/

namespace Sys2Proof.Machine

open Sys2Proof

/-- A point the console watch minds (R185). -/
def PointState.watched : PointState → Bool
  | .waitSuction => true
  | .flowing _ => true
  | .suspended _ => true
  | .finishing => true
  | _ => false

/-- The console watch is active (R185). -/
def State.watchActive (s : State) : Bool :=
  s.watch.timeout.isSome && (s.points.a.state.watched || s.points.b.state.watched)

/-- The console timer starts when the watch becomes active and stops when it stops being active (R185). -/
def State.followWatch (s old : State) : State :=
  if s.watchActive then
    if old.watchActive then s else s.setWatch { s.watch with timer := s.watch.timeout }
  else s.setWatch { s.watch with timer := none }

/-- The points flowing on the held compartment have changed (R106). -/
def State.flowChanged (s old : State) : Bool :=
  s.flowingOnHeld .a != old.flowingOnHeld .a || s.flowingOnHeld .b != old.flowingOnHeld .b

/-- The sequencer and the arbiter, until nothing more is due: the sequencer first, so that a promotion onto a compartment
just released bars it before a pick (R145); then again, for a compartment the selector has stopped holding (R137). -/
def State.settle (s : State) : State := s.advance.arbitrate.advance.arbitrate

/-- Every block follows what a step changed (log entry 15). The pump follows each change of its run condition (R103): the
one the step's own effect makes, and the one a grant makes. `old` is the state before the step. -/
def State.follow (s old : State) : State :=
  let s := s.followRun.settle.followRun
  let s := if s.flowChanged old then s.testNoFlow else s
  s.followWatch old

end Sys2Proof.Machine
end

