-- ==== Sys2Proof/Machine/PortsUnit.lean ====
section
/-! DEFINITION. Command ports: frames and their answers, roles and their moves, console supervision (R173 to R186). -/

namespace Sys2Proof.Machine

open Sys2Proof

/-! ### Answers (R175, R176) -/

/-- What a command is answered with (R176). -/
structure Reply where
  status : Status
  reason : Option Reason
  detail : Option LimitSource
  data : List Field
  deriving DecidableEq, Repr

def Reply.of (x : Status) : Reply := { status := x, reason := none, detail := none, data := [] }

def Reply.ok : Reply := Reply.of .ok

def Reply.okWith (data : List Field) : Reply := { status := .ok, reason := none, detail := none, data := data }

def Reply.refused (x : Reason) : Reply := { status := .refused, reason := some x, detail := none, data := [] }

def Reply.response (x : Reply) (tag code : Nat) : Response :=
  { tag := tag, code := code, status := x.status, reason := x.reason, detail := x.detail, data := x.data }

/-- The port's response, built in the step that took the command; the receiver is then ANSWERING (R175). -/
def State.answer (s : State) (o : PortId) (x : Response) : State := s.setPort o { s.port o with sending := some x }

/-- Queue an extra response behind the one being sent, unless one is queued (R175). -/
def State.queueExtra (s : State) (o : PortId) (x : Response) : State :=
  if (s.port o).extra.isSome then s else s.setPort o { s.port o with extra := some x }

/-- Tag and code are 0: a bad frame's are not trusted (R174). -/
def badFrameResponse : Response := (Reply.of .badFrame).response 0 0

/-! ### Console traffic (R186) -/

/-- The console timer restarts while the watch is active. The expiries that wait in the queue have been overtaken: the frame
is taken first (R186; log entry 32). -/
def State.restartedWatch (s : State) : Watch :=
  if s.watchActive then
    { s.watch with timer := s.watch.timeout, overtaken := s.pending.count .consoleTimerExpiry }
  else s.watch

/-- An OPERATOR frame clears the silent mark, lifts the console flow block and restarts the timer (R186). -/
def State.consoleTraffic (s : State) : State :=
  ((s.setWatch { s.restartedWatch with silent := false, block := false }).lift .a .consoleSilent).lift .b
    .consoleSilent

/-- A frame is received on a port (R174, R186). -/
def State.frameReceived (s : State) (o : PortId) : State :=
  let s := s.setPort o { s.port o with silence := 0 }
  if o = .operator then s.consoleTraffic else s

/-! ### Roles (R177 to R181) -/

/-- Who may send a command (R177, 10.7). -/
inductive Access where
  | anyPort | operate | operateOrAccount | account | calibrate
  deriving DecidableEq, Repr

def State.holdsAccount (s : State) (o : PortId) : Bool := s.roles.holder == o

def State.holdsCalibrate (s : State) (o : PortId) : Bool := o == .service && s.roles.calibration

/-- The port holds a role that may send the command (R177). -/
def State.mayUse (s : State) (o : PortId) : Access → Bool
  | .anyPort => true
  | .operate => o == .operator
  | .operateOrAccount => o == .operator || s.holdsAccount o
  | .account => s.holdsAccount o
  | .calibrate => s.holdsCalibrate o

/-- The holder is the SERVICE port with the calibration switch closed, which no lapse reaches (R181). -/
def State.holderProtected (s : State) : Bool := s.holdsCalibrate s.roles.holder

/-- End a pending request with ROLE_DENIED on its requester (R180). -/
def State.denyRequest (s : State) : State :=
  match s.roles.requester with
  | none => s
  | some q => (s.setRoles { s.roles with requester := none, answer := none }).raiseOn q .roleDenied

/-- The account role moves to a port (R181). -/
def State.moveRole (s : State) (o : PortId) : State :=
  let denied := s.roles.requester.filter fun q => q != o
  let s := (s.setRoles { s.roles with holder := o, requester := none, answer := none }).raise .roleChanged
  match denied with
  | some q => s.raiseOn q .roleDenied
  | none => s

/-- The holder's silence is at or above the role lapse, and the holder is not protected (R179, R180). -/
def State.holderLapsed (s : State) : Bool :=
  !s.holderProtected && decide (s.watch.lapse ≤ (s.port s.roles.holder).silence)

/-- A pending request takes the role from a lapsed holder (R180). -/
def State.applyLapse (s : State) : State :=
  match s.roles.requester with
  | some q => if s.holderLapsed then s.moveRole q else s
  | none => s

/-! ### A command in its frame (R173 to R178) -/

/-- A good frame with a known command code reaches its port: the frame is received, then answered BUSY where the port is
ANSWERING or the part is recovering (log entry 20), WRONG_ROLE where the port has no role for it, and else taken by
`body`. -/
def State.framed (s : State) (r : Req) (code : Nat) (access : Access) (body : State → State × Reply) : State :=
  let s := s.frameReceived r.port
  if (s.port r.port).sending.isSome then s.queueExtra r.port ((Reply.of .busy).response r.tag code)
  else if s.power.state = .inReset then s.answer r.port ((Reply.of .busy).response r.tag code)
  else if s.mayUse r.port access then (body s).1.answer r.port ((body s).2.response r.tag code)
  else (s.raiseOn r.port .wrongRole).answer r.port ((Reply.of .wrongRole).response r.tag code)

/-- Answer an error status and change nothing (R176). -/
def State.deny (s : State) (x : Status) : State × Reply := (s, Reply.of x)

/-- Answer BAD_PARAM and change nothing. -/
def State.badParam (s : State) : State × Reply := s.deny .badParam

/-- Answer OK without data. -/
def State.done (s : State) : State × Reply := (s, Reply.ok)

end Sys2Proof.Machine
end

