-- ==== Sys2Proof/Machine/Codes.lean ====
section
/-! DEFINITION. The codes and sizes of what a response or a record carries (10.8). Names take the codes of 10.8 where it
gives them, else their place, from 0, in the order in which their rule lists them (log entry 9). -/

namespace Sys2Proof.Machine

open Sys2Proof

/-! ### Codes -/

def Status.code : Status → Nat
  | .ok => 0
  | .accepted => 1
  | .busy => 2
  | .wrongRole => 3
  | .badFrame => 4
  | .badParam => 5
  | .notFound => 6
  | .wrongState => 7
  | .full => 8
  | .refused => 9

def Reason.code : Reason → Nat
  | .pointParked => 1
  | .standby => 2
  | .machineBusy => 3
  | .productNotAtPoint => 4
  | .accountStopped => 5
  | .accountClosed => 6
  | .noStock => 7
  | .journalFull => 8
  | .belowMinimum => 9
  | .machineSuspended => 10
  | .manualNotPermitted => 11
  | .nozzleOnHook => 12
  | .tagPresent => 13
  | .tagInUse => 14
  | .faultPresent => 15
  | .stockHeld => 16
  | .lastCompartment => 17
  | .unknownTag => 18
  | .manualOnly => 19

def EndCause.code : EndCause → Nat
  | .preset => 1
  | .limit => 2
  | .operatorStop => 3
  | .nozzleHung => 4
  | .ignitionOff => 5
  | .stockEmpty => 6
  | .authTimeout => 7
  | .triggerTimeout => 8
  | .pumpFault => 9
  | .couplingLost => 10
  | .couplingChanged => 11
  | .restart => 12
  | .target => 13
  | .highLevel => 14
  | .supplyStopped => 15
  | .noUllage => 16

def LimitSource.code : LimitSource → Nat
  | .preset => 1
  | .tank => 2
  | .shiftAllowance => 3
  | .dayAllowance => 4
  | .credit => 5
  | .stock => 6
  | .manualCap => 7

def pointCode : PointId → Nat
  | .a => 0
  | .b => 1

def portCode : PortId → Nat
  | .operator => 0
  | .office => 1
  | .service => 2

def faultKindCode : FaultKind → Nat
  | .stall => 0
  | .dryRun => 1
  | .noFlow => 2
  | .supplyLow => 3
  | .supplyHigh => 4
  | .overcurrent => 5

def FaultAction.code : FaultAction → Nat
  | .latch => 0
  | .retry => 1
  | .report => 2
  | .off => 3
  | .autoClear => 4

def Mode.code : Mode → Nat
  | .holdToRun => 0
  | .autoStop => 1
  | .repeatFill => 2

def Cause.code : Cause → Nat
  | .triggerReleased => 0
  | .couplingLost => 1
  | .pumpFault => 2
  | .consoleSilent => 3
  | .suctionLost => 4

def Stage.code : Stage → Nat
  | .fast => 0
  | .slow => 1

/-- TAG 0, MANUAL 1. -/
def Method.code : Method → Nat
  | .tag => 0
  | .manual => 1

def PumpState.code : PumpState → Nat
  | .stopped => 0
  | .starting => 1
  | .running => 2
  | .retryWait => 3
  | .latched => 4

def Claim.code : Claim → Nat
  | .flowing => 0
  | .held => 1
  | .none => 2

def supplyCode : SupplySense → Nat
  | .below => 0
  | .within => 1
  | .above => 2

def CompState.code : CompState → Nat
  | .inService => 0
  | .loading => 1
  | .empty => 2
  | .outOfService => 3

def Trigger.code : Trigger → Nat
  | .settle => 0
  | .shift => 1
  | .command => 2

def RecOutcome.code : RecOutcome → Nat
  | .inTolerance => 0
  | .outOfTolerance => 1
  | .noGauge => 2

def PlanState.code : PlanState → Nat
  | .none => 0
  | .opened => 1
  | .closing => 2

/-- STAGED is 0 and DONE 5 (R132). -/
def EntryState.code : EntryState → Nat
  | .due => 1
  | .waiting => 2
  | .loading => 3
  | .settling => 4

def TakeOver.code : TakeOver → Nat
  | .now => 0
  | .atShift => 1

def AccountState.code : AccountState → Nat
  | .closed => 0
  | .stopped => 1
  | .opened => 2

def MachineState.code : MachineState → Nat
  | .active => 0
  | .suspended => 1

def ConsoleMode.code : ConsoleMode → Nat
  | .report => 0
  | .stop => 1

/-- STANDBY, WAKE_SETTLE, RUN (R188). While the part is in reset no command is answered with it. -/
def PowerState.code : PowerState → Nat
  | .standby => 0
  | .wakeSettle => 1
  | .run => 2
  | .inReset => 3

def ResetKind.code : ResetKind → Nat
  | .resetPin => 0
  | .supplyFail => 1
  | .powerOn => 2

/-- Permitted points: bit 0 A, bit 1 B. -/
def permittedCode (x : Pair Bool) : Nat := bit x.a + 2 * bit x.b

def targetCode : Target → Nat
  | .fill => 0
  | .volume v => v

/-! ### Fields -/

/-- `size` bytes of a figure. -/
def fld (size n : Nat) : Field := { size := size, value := n }

def sfld (size : Nat) (n : Int) : Field := { size := size, value := n }

def yes (b : Bool) : Field := fld 1 (bit b)

/-- An optional value: 0 absent or 1 present, then the value, zero when absent. -/
def optFlds (zero : List Field) (x : Option (List Field)) : List Field :=
  match x with
  | some l => fld 1 1 :: l
  | none => fld 1 0 :: zero

def optFld (size : Nat) (x : Option Nat) : List Field := optFlds [fld size 0] (x.map fun n => [fld size n])

/-- A group of `sizes` that is absent as a whole. -/
def optGroup (sizes : List Nat) (x : Option (List Field)) : List Field := optFlds (sizes.map fun n => fld n 0) x

/-- A list is its count and its items. -/
def listFlds {α : Type} (l : List α) (f : α → List Field) : List Field := fld 1 l.length :: l.flatMap f

/-- The time left on a timer: a duration, 0 when stopped. -/
def timeLeft (t : Timer) : Field := fld 2 (t.getD 0)

/-- A date: year − 2000, month, day. -/
def dateFlds (d : Date) : List Field := [sfld 1 ((d.year : Int) - 2000), fld 1 d.month, fld 1 d.day]

/-- A calendar time. -/
def timeFlds (t : DateTime) : List Field := dateFlds t.date ++ [fld 1 t.hour, fld 1 t.minute, fld 1 t.second]

/-- A shift identity: its date, then its index. THE MODEL'S CHOICE in a response (log entry 9): the sizes of the SHIFT_CLOSE
record, 3 bytes and 1 byte (10.8). -/
def shiftFlds (x : ShiftId) : List Field := dateFlds x.date ++ [fld 1 x.index]

def seqFld (q : SeqNo) : Field := fld 4 q.toNat

/-- The 16 prices, product 1 tiers 1..4 first. -/
def priceFlds (x : PriceTable) : List Field := x.toList.flatMap fun t => t.toList.map fun n => fld 4 n

def charFlds (code : List Nat) : List Field := code.map fun b => fld 1 b

end Sys2Proof.Machine
end

