-- ==== Sys2Proof/Machine/Wire.lean ====
section
/-! DEFINITION. Bytes on the wire: the CRC-16, the frame of a response and the 96 bytes of a journal record (10.8). -/

namespace Sys2Proof.Machine

open Sys2Proof

/-- One bit step of the CRC-16: polynomial x¹⁶ + x¹² + x⁵ + 1, most significant bit first (10.8). -/
def crcBit (c : BitVec 16) : BitVec 16 := if c.msb then (c <<< 1) ^^^ 0x1021#16 else c <<< 1

/-- One byte enters the CRC. -/
def crcByte (c : BitVec 16) (b : Byte) : BitVec 16 :=
  crcBit (crcBit (crcBit (crcBit (crcBit (crcBit (crcBit (crcBit (c ^^^ (b.zeroExtend 16 <<< 8)))))))))

/-- The CRC-16 over some bytes (10.8). -/
def crc16 (l : List Byte) : BitVec 16 := l.foldl crcByte 0xFFFF#16

/-- The `size` bytes of a figure, least significant first; a negative figure in two's complement (10.8). -/
def intBytes : Nat → Int → List Byte
  | 0, _ => []
  | n + 1, v => BitVec.ofInt 8 v :: intBytes n (v / 256)

def Field.bytes (x : Field) : List Byte := intBytes x.size x.value

def fieldBytes (l : List Field) : List Byte := l.flatMap Field.bytes

/-- Pad with zero bytes up to `n`. -/
def padTo (n : Nat) (l : List Field) : List Byte :=
  let b := fieldBytes l
  b ++ List.replicate (n - b.length) 0#8

/-- From the length through the last data byte of a response (10.8). -/
def Response.body (x : Response) : List Byte :=
  let payload :=
    [fld 1 x.tag, fld 1 x.code, fld 1 x.status.code, fld 1 (x.reason.elim 0 Reason.code),
      fld 1 (x.detail.elim 0 LimitSource.code)]
  let b := fieldBytes (payload ++ x.data)
  intBytes 2 b.length ++ b

/-- The whole frame of a response (10.8). -/
def Response.frame (x : Response) : List Byte :=
  0xC3#8 :: x.body ++ intBytes 2 (crc16 x.body).toNat

/-! ### Journal records (10.8) -/

/-- A record's kind code. -/
def RecordBody.kind : RecordBody → Nat
  | .delivery r => if r.canFill then 2 else 1
  | .receipt _ => 3
  | .bookNegative .. => 4
  | .reconcile _ => 4
  | .stockAdjust .. => 5
  | .accountReset .. => 6
  | .priceTakeover .. => 7
  | .shiftClose .. => 8

/-- Bits 4..7 of a DELIVERY record's flags. -/
def DeliveryRecord.flagBits (r : DeliveryRecord) : Nat :=
  r.flags.bits + 16 * bit r.hoursBackward + 32 * bit r.recovered + 64 * bit r.startInvalid +
    128 * bit r.hours.isSome

/-- Bits 4..7 of a RECEIPT record's flags. -/
def ReceiptRecord.flagBits (r : ReceiptRecord) : Nat :=
  r.flags.bits + 16 * bit r.clamped + 32 * bit r.recovered + 64 * bit r.startInvalid + 128 * bit (r.target == .fill)

/-- The two segments' compartments, then their net cL; zero when the second is absent. -/
def segmentFlds (l : List (CompId × Nat)) : List Field :=
  match l with
  | [] => [fld 1 0, fld 1 0, fld 4 0, fld 4 0]
  | [x] => [fld 1 x.1.toNat, fld 1 0, fld 4 x.2, fld 4 0]
  | x :: y :: _ => [fld 1 x.1.toNat, fld 1 y.1.toNat, fld 4 x.2, fld 4 y.2]

/-- The fields from byte 12 on. -/
def RecordBody.fields : RecordBody → List Field
  | .delivery r =>
    [fld 1 (pointCode r.point), fld 1 r.method.code, fld 4 r.machine, fld 1 r.account, fld 1 r.product.toNat,
      fld 1 r.cause.code, fld 1 r.source.code, fld 2 r.flagBits] ++ timeFlds r.start ++
    [fld 4 r.gross, fld 4 r.net, sfld 2 r.mean, fld 4 r.price, fld 8 r.amount, fld 4 r.limit, fld 4 r.overrun,
      fld 4 (r.hours.getD 0)] ++ segmentFlds r.segments
  | .receipt r =>
    [fld 1 r.comp.toNat, fld 1 r.product.toNat, fld 1 r.cause.code, fld 1 r.flagBits] ++
    charFlds (r.docket.getD (List.replicate 12 0)) ++ timeFlds r.start ++
    [fld 4 (targetCode r.target), fld 4 r.used, fld 4 r.gross, fld 4 r.net, sfld 2 r.mean, fld 4 r.bookBefore,
      fld 4 r.bookAfter]
  | .bookNegative c q p machine before charge shortfall =>
    [fld 1 1, fld 1 c.toNat, fld 1 q.toNat, fld 1 (pointCode p), fld 4 machine, fld 4 before, fld 4 charge,
      fld 4 shortfall]
  | .reconcile r =>
    [fld 1 2, fld 1 r.comp.toNat, fld 1 r.product.toNat, fld 1 (r.trigger.code + 1), fld 4 r.book, fld 4 r.standing,
      sfld 2 r.level, sfld 2 r.temp, fld 4 r.gaugeGross, fld 4 r.gaugeNet, sfld 4 r.variance, fld 4 r.tolerance,
      yes r.clamped]
  | .stockAdjust c q old new gauge =>
    [fld 1 c.toNat, fld 1 q.toNat, yes gauge.isSome, fld 1 0, fld 4 old, fld 4 new, fld 4 (gauge.getD 0)]
  | .accountReset n code spent before after reserved =>
    [fld 1 n] ++ charFlds code ++ [fld 3 0, fld 8 spent, fld 8 before, fld 8 after, fld 8 reserved]
  | .priceTakeover choice prices => [fld 1 choice.code, fld 3 0] ++ priceFlds prices
  | .shiftClose first last covered nets counts =>
    shiftFlds first ++ shiftFlds last ++ [fld 2 covered] ++
    Num4.all.flatMap fun n => [fld 4 (nets.get n), fld 2 (counts.get n)]

/-- A record as READ_JOURNAL returns it (10.8). -/
def Record.bytes (r : Record) : List Byte :=
  padTo 96
    ([seqFld r.seq, fld 1 r.body.kind, yes r.timeInvalid] ++ timeFlds r.time ++ r.body.fields)

/-- A record as the data of a response. -/
def Record.fields (r : Record) : List Field := r.bytes.map fun b => fld 1 b.toNat

end Sys2Proof.Machine
end

