-- ==== Sys2Proof/Machine/Status.lean ====
section
/-! DEFINITION. The data of the responses: the sections of GET_STATUS and the reads of records (R187, 10.8; log entry 9).
-/

namespace Sys2Proof.Machine

open Sys2Proof

/-! ### Section POINTS (R67) -/

/-- FLOWING is followed by its stage, SUSPENDED by its cause. -/
def pointStateFlds : PointState → List Field
  | .closed => [fld 1 0]
  | .identifying => [fld 1 1]
  | .authorised => [fld 1 2]
  | .waitSuction => [fld 1 3]
  | .flowing x => [fld 1 4, fld 1 x.code]
  | .suspended x => [fld 1 5, fld 1 x.code]
  | .finishing => [fld 1 6]

/-- A preset is coded as the parameter of SET_PRESET. -/
def presetFlds : Option Preset → List Field
  | none => [fld 1 0, fld 4 0]
  | some (.volume v) => [fld 1 1, fld 4 v]
  | some (.amount a) => [fld 1 2, fld 4 a]

/-- THE MODEL'S CHOICE (log entry 9): VOID is an absent sequence number, and the end cause follows; the whole is one optional
group of section POINTS. -/
def lastCloseFlds (x : LastClose) : List Field := optFld 4 (x.seq.map BitVec.toNat) ++ [fld 1 x.cause.code]

/-- The running timer of a point: that of its state, else the coupling grace. -/
def State.pointTimer (s : State) (p : PointId) : Timer :=
  let x := s.point p
  x.authTimer <|> x.pressWait <|> x.pumpSuspend <|> x.meterSettle <|> (s.coupler p).grace

def deliveryFlds (d : Delivery) : List Field :=
  [fld 4 d.machine, fld 1 d.ident.method.code, fld 4 d.limit, fld 1 d.source.code, fld 4 d.price,
    fld 4 (cLof d.gross_uL), fld 4 (cLof d.net_uL), fld 1 d.current.comp.toNat]

/-- The items of R67 and R90. THE MODEL'S CHOICE (log entry 9): the delivery-context items stand as a group behind one
presence byte, and so do those of last close. -/
def State.pointFlds (s : State) (p : PointId) : List Field :=
  let x := s.point p
  pointStateFlds x.state ++
  [yes x.parked, fld 1 x.mode.code, fld 1 x.repeatCount, fld 4 x.fill] ++ presetFlds x.preset ++
  optFld 1 (x.pendingEnd.map EndCause.code) ++ optGroup [1, 4, 1] (x.lastClose.map lastCloseFlds) ++
  [timeLeft (s.pointTimer p)] ++ optGroup [4, 1, 4, 1, 4, 4, 4, 1] (x.context.map deliveryFlds)

/-! ### Section IDENTIFICATION (R30) -/

/-- A state of R31 followed by its identity and its count of reads (log entry 9). -/
def couplingFlds : Coupling → List Field
  | .uncoupled => [fld 1 0]
  | .settling1 t => [fld 1 1, fld 8 t.toNat, fld 4 1]
  | .settling2 t => [fld 1 1, fld 8 t.toNat, fld 4 2]
  | .coupled t n => [fld 1 2, fld 8 t.toNat, fld 4 n]
  | .lost t => [fld 1 3, fld 8 t.toNat]

def validReadFlds (x : ValidRead) : List Field := fld 8 x.tag.toNat :: optFld 4 x.hours ++ optFld 4 x.level

/-- THE MODEL'S CHOICE (log entry 33): the status, the reason and the limit source, 0 where there is none, then the identity
and the machine number as optional items. An accepted identification has the status OK. -/
def outcomeFlds (x : IdOutcome) : List Field :=
  [fld 1 x.status.code, fld 1 (x.reason.elim 0 Reason.code), fld 1 (x.source.elim 0 LimitSource.code)] ++
  optFld 8 (x.tag.map BitVec.toNat) ++ optFld 4 x.machine

def Coupler.flds (x : Coupler) : List Field :=
  couplingFlds x.coupling ++ optGroup [8, 1, 4, 1, 4] (x.lastValid.map validReadFlds) ++
  [fld 4 x.validCount.toNat, fld 4 x.failedCount.toNat] ++
  optGroup [1, 1, 1, 1, 8, 1, 4] (x.outcome.map outcomeFlds) ++ [timeLeft x.grace]

/-! ### Section CHANNELS (R2) -/

/-- The items of R2. THE MODEL'S CHOICE (log entry 9): the owner is sent as one yes or no, whether the channel is bound. -/
def Channel.flds (x : Channel) : List Field :=
  [yes x.bound, fld 4 x.lastRate, fld 8 x.grossTotal, fld 8 x.netTotal, fld 4 x.idle, fld 2 x.k, fld 4 x.ratedMax] ++
  listFlds x.table fun y => [fld 4 y.1, fld 4 y.2]

/-! ### Section SUCTION_PUMP (R94, R102) -/

/-- THE MODEL'S CHOICE (log entry 9): the position stands in the state's value alone, an optional value in IDLE, absent where
it is unknown. -/
def selectorFlds : Selector → List Field
  | .idle p => fld 1 0 :: optFld 1 (p.map Num4.toNat)
  | .moving c => [fld 1 1, fld 1 c.toNat]
  | .held c => [fld 1 2, fld 1 c.toNat]

/-- The waiting requests, the admitted set: as lists, point A first. -/
def Arbiter.requests (a : Arbiter) : List (PointId × CompId) :=
  (a.waiting.a.toList.map fun c => (PointId.a, c)) ++ a.waiting.b.toList.map fun c => (PointId.b, c)

def Arbiter.admittedList (a : Arbiter) : List PointId :=
  (if a.admitted.a then [.a] else []) ++ if a.admitted.b then [.b] else []

def policyFlds : Policy → List Field
  | .fixed => [fld 1 0, fld 1 0]
  | .lowest p => [fld 1 1, fld 1 (pointCode p)]
  | .rotate => [fld 1 2, fld 1 0]

def Arbiter.flds (a : Arbiter) : List Field :=
  selectorFlds a.selector ++ listFlds a.requests (fun x => [fld 1 (pointCode x.1), fld 1 x.2.toNat]) ++
  listFlds a.admittedList (fun p => [fld 1 (pointCode p)]) ++
  [fld 1 a.claims.a.code, timeLeft a.hold.a, fld 1 a.claims.b.code, timeLeft a.hold.b, timeLeft a.travel] ++
  policyFlds a.policy ++ optFld 1 (a.lastGranted.map pointCode)

def Pump.flds (x : Pump) : List Field :=
  [fld 1 x.state.code] ++ optGroup [1, 1] (x.latched.map fun y => [fld 1 (faultKindCode y.1), yes y.2]) ++
  optGroup [1, 1] (x.lastFault.map fun y => [fld 1 (faultKindCode y.1), fld 1 y.2.code]) ++
  [fld 4 x.retryCount, timeLeft x.ramp, timeLeft x.retry, fld 4 x.speed, fld 4 x.current, fld 1 (supplyCode x.supply)]

/-! ### Section STOCK_SUMMARY (R187) -/

/-- THE MODEL'S CHOICE (log entry 9): each flag is one byte, a yes where it is set. -/
def Compartment.flagFlds (x : Compartment) : List Field :=
  [yes x.suctionLost, yes x.variance, yes x.reorderSent, yes x.draining]

def Compartment.summary (x : Compartment) : List Field :=
  fld 1 x.state.code :: x.flagFlds ++ [fld 4 x.book, fld 4 x.reserved, fld 4 x.available]

def State.stockFlds (s : State) : List Field :=
  s.stock.toList.flatMap fun x => optGroup [1, 1, 1, 1, 1, 4, 4, 4] (x.map Compartment.summary)

/-! ### Section LOAD_PLAN (R131) -/

def docketFlds (x : Option (List Nat)) : List Field := optFlds (charFlds (List.replicate 12 0)) (x.map charFlds)

/-- The time left on the current entry's running timer. -/
def Loader.entryTimer (x : Loader) : Timer := x.settle <|> x.noFlow

/-- The current entry (R131). THE MODEL'S CHOICE (log entry 34): its compartment is sent first, in one byte, and before
loading starts, when it has no context, its gross and net are sent as 0 and flow begun as no; its used target alone is
optional. -/
def Loader.entryFlds (x : Loader) (e : Entry) : List Field :=
  [fld 1 e.comp.toNat, fld 1 e.state.code, fld 4 (targetCode e.target)] ++
  optFld 4 (e.context.map fun y => y.used) ++
  [fld 4 (e.context.elim 0 fun y => cLof y.gross_uL), fld 4 (e.context.elim 0 fun y => cLof y.net_uL),
    yes (e.context.any fun y => y.flowBegun), timeLeft x.entryTimer]

/-- The last entry result; NO_RECORD is an absent sequence number (log entry 9). -/
def resultFlds (x : LoadResult) : List Field :=
  optFld 4 (x.seq.map BitVec.toNat) ++ [fld 1 x.comp.toNat, fld 1 x.cause.code]

def Loader.flds (x : Loader) : List Field :=
  [fld 1 x.state.code] ++ docketFlds x.docket ++ [yes x.paused, yes x.stageEmpty] ++
  listFlds x.staged (fun y => [fld 1 y.comp.toNat, fld 4 (targetCode y.target)]) ++
  optGroup [1, 1, 4, 1, 4, 4, 4, 1, 2] (x.current.map x.entryFlds) ++
  optGroup [1, 4, 1, 1] (x.lastResult.map resultFlds)

/-! ### Section JOURNAL (R150) -/

/-- The items of R158. A count is 4 bytes in a response; the SHIFT_CLOSE record has its own layout (10.8). THE MODEL'S CHOICE
(log entry 9): net and count stand product by product. -/
def Tally.flds (x : Tally) : List Field :=
  shiftFlds x.first ++ [fld 4 x.covered] ++ Num4.all.flatMap fun n => [fld 4 (x.nets.get n), fld 4 (x.counts.get n)]

/-- The newest sequence number, while a record is stored (R150). -/
def Journal.newest (j : Journal) : Option SeqNo := if j.occupied = 0 then none else some (j.next - 1)

def Journal.flds (j : Journal) : List Field :=
  [fld 4 j.occupied, fld 4 j.reserved, fld 4 j.room, seqFld j.oldest] ++ optFld 4 (j.newest.map BitVec.toNat) ++
  [seqFld j.next, yes j.highMark] ++ j.tally.flds

/-! ### Section TABLES (R26, R49, R50) -/

def Product.flds (x : Product) : List Field := charFlds x.code ++ [fld 2 x.alpha, fld 1 (permittedCode x.points)]

/-- THE MODEL'S CHOICE (log entry 9): the product records are four optional values in the order of the products, without their
numbers, and the staged prices are one optional group. -/
def State.tableFlds (s : State) : List Field :=
  [fld 4 s.roster.length] ++
  (s.products.toList.flatMap fun x => optGroup [1, 1, 1, 1, 2, 1] (x.map Product.flds)) ++
  priceFlds s.prices.current ++
  optGroup (List.replicate 16 4 ++ [1]) (s.prices.staged.map fun x => priceFlds x.1 ++ [fld 1 x.2.code])

/-! ### Sections PORTS and POWER (R187, R189) -/

def Port.flds (x : Port) : List Field := [fld 4 x.silence, yes x.sending.isSome]

/-- Section PORTS. THE MODEL'S CHOICE (log entry 9): the calibration switch is a yes where it is closed, the silent mark a yes
where it is set. -/
def State.portFlds (s : State) : List Field :=
  [fld 1 (portCode s.roles.holder)] ++ optFld 1 (s.roles.requester.map portCode) ++ [timeLeft s.roles.answer] ++
  s.ports.first.flds ++ s.ports.second.flds ++ s.ports.third.flds ++
  [yes s.roles.calibration, yes s.watch.silent, timeLeft s.watch.timer, fld 2 (s.watch.timeout.getD 0),
    fld 1 s.watch.mode.code, fld 2 s.watch.lapse]

/-- Section POWER. THE MODEL'S CHOICE (log entry 9): the ignition input is a yes where it is on. -/
def Power.flds (x : Power) : List Field :=
  [fld 1 x.state.code, yes x.ignition, timeLeft x.wake, fld 1 x.lastReset.code, fld 4 x.closedDeliveries,
    fld 4 x.closedEntries]

/-- The items of a section (R187); the section's code stands before them. -/
def State.sectionFlds (s : State) : Nat → Option (List Field)
  | 0 => some (fld 1 0 :: s.pointFlds .a ++ s.pointFlds .b)
  | 1 => some (fld 1 1 :: s.couplers.a.flds ++ s.couplers.b.flds)
  | 2 => some (fld 1 2 :: s.channels.first.flds ++ s.channels.second.flds ++ s.channels.third.flds)
  | 3 => some (fld 1 3 :: s.arbiter.flds ++ s.pump.flds)
  | 4 => some (fld 1 4 :: s.stockFlds)
  | 5 => some (fld 1 5 :: s.loader.flds)
  | 6 => some (fld 1 6 :: s.journal.flds)
  | 7 => some (fld 1 7 :: s.tableFlds)
  | 8 => some (fld 1 8 :: s.portFlds)
  | 9 => some (fld 1 9 :: s.power.flds)
  | _ => none

/-! ### Records read by a command -/

/-- The point that holds a machine's open delivery (R26). THE MODEL'S CHOICE (log entry 9): one name out of A, B, or none, by its
place, and so 0, 1 or 2, and not an optional value. -/
def State.pointOfMachine (s : State) (n : Nat) : Nat :=
  if s.points.a.context.any fun d => d.machine == n then 0
  else if s.points.b.context.any fun d => d.machine == n then 1
  else 2

def State.machineFlds (s : State) (m : MachineRec) : List Field :=
  [fld 4 m.number] ++ optFld 8 (m.tagId.map BitVec.toNat) ++
  [fld 1 m.product.toNat, fld 4 m.capacity, fld 1 m.account, fld 4 m.shiftAllowance, fld 4 m.dayAllowance,
    fld 4 m.shiftUsage, fld 4 m.dayUsage, fld 4 m.reserved] ++ optFld 4 m.lastHours ++
  [yes m.manualPermitted, fld 1 m.state.code, fld 1 (s.pointOfMachine m.number)]

/-- The points whose open delivery meets a test, each with a figure. -/
def State.openWith {α : Type} (s : State) (f : Delivery → Option α) : List (PointId × α) :=
  ((s.points.a.context.bind f).toList.map fun x => (PointId.a, x)) ++
  (s.points.b.context.bind f).toList.map fun x => (PointId.b, x)

def State.accountFlds (s : State) (a : Account) : List Field :=
  [fld 1 a.number] ++ charFlds a.code ++ [fld 8 a.credit, fld 8 a.spent, fld 8 a.reserved, fld 1 a.tier.toNat,
    yes a.closed, yes a.stopped, fld 1 a.state.code] ++
  listFlds (s.openWith fun d => if d.account = a.number then some d.reservation else none)
    (fun x => [fld 1 (pointCode x.1), fld 8 x.2])

/-- The gauge reading of GET_STOCK. THE MODEL'S CHOICE (log entry 9): level, temperature, gauge gross, gauge net, and
GAUGE_CLAMPED last. -/
def gaugeFlds (g : Gauge) : List Field :=
  [sfld 2 g.reading.level, sfld 4 g.reading.temp, fld 4 g.gross, fld 4 g.net, yes g.clamped]

def varianceFlds (v : Option Int) : List Field := optFlds [fld 4 0] (v.map fun n => [sfld 4 n])

def lastRecFlds (x : LastRec) : List Field :=
  [fld 1 x.trigger.code, fld 1 x.outcome.code] ++ varianceFlds x.variance ++ timeFlds x.time

def State.compFlds (s : State) (c : CompId) (x : Compartment) : List Field :=
  [fld 1 x.product.toNat, fld 4 x.capacity, fld 1 x.safeFill, fld 4 x.heel, fld 4 x.margin, fld 4 x.reorder,
    fld 4 x.tolerance] ++ listFlds x.strapping (fun y => [fld 2 y.1, fld 2 y.2]) ++
  [fld 4 x.book, fld 4 x.reserved, fld 1 x.state.code] ++ x.flagFlds ++
  [fld 4 x.available, fld 4 (s.standingBook c)] ++ optGroup [2, 4, 4, 4, 1] ((s.gauge c).map gaugeFlds) ++
  [timeLeft x.settle] ++ optGroup [1, 1, 1, 4, 1, 1, 1, 1, 1, 1] (x.lastRec.map lastRecFlds) ++
  listFlds (s.openWith fun d => if d.touches c then some (d.netOn c) else none)
    (fun y => [fld 1 (pointCode y.1), fld 4 y.2])

/-- The data of a READ_JOURNAL from the record `k` places above the oldest (R160, 10.8). -/
def Journal.readFlds (j : Journal) (k count : Nat) : List Field :=
  let l := (j.records.drop k).take count
  [fld 1 l.length, fld 3 0, seqFld j.oldest, seqFld (j.next - 1), seqFld j.next] ++ l.flatMap Record.fields

def State.timeFlds (s : State) : List Field :=
  Machine.timeFlds s.clock.now ++ [yes s.clock.valid] ++
  listFlds s.clock.shifts (fun x => [fld 1 x.1, fld 1 x.2]) ++ shiftFlds s.clock.shift ++
  optFld 4 (if s.clock.valid then some (tenthsToStart s.clock.shifts s.clock.now) else none)

/-- What RECONCILE answers for a compartment (R128). -/
def State.reconciledFlds (s : State) (c : CompId) : List Field :=
  match (s.comp c).bind fun x => x.lastRec with
  | some r => fld 1 r.outcome.code :: varianceFlds r.variance
  | none => []

end Sys2Proof.Machine
end

