-- ==== Sys2Proof/Machine/CmdReads.lean ====
section
/-! DEFINITION. The commands that any port may send (10.7): reads, notices and the request for the account role. -/

namespace Sys2Proof.Machine

open Sys2Proof

abbrev Result := Host.Outcome State Fault Refusal

/-- GET_STATUS (R187). -/
def bodyGetStatus (sect : Nat) (s : State) : State × Reply :=
  match s.sectionFlds sect with
  | some data => (s, Reply.okWith data)
  | none => s.badParam

def execGetStatus (r : Req) (sect : Nat) (s : State) : Result :=
  .next (s.framed r 0x01 .anyPort (bodyGetStatus sect))

/-- The record GET_MACHINE names: the outer `none` is a key outside its range (R26). -/
def State.machineByKey (s : State) (key : Nat) (value : BitVec 64) : Option (Option MachineRec) :=
  let n := value.toNat % 4294967296
  match key with
  | 0 => if inRange 1 999999 n then some (findMachine s.roster n) else none
  | 1 => if inRange 0 999999 n then some (nextMachine s.roster n) else none
  | 2 => some (findTag s.roster value)
  | _ => none

/-- GET_MACHINE (R26). -/
def bodyGetMachine (key : Nat) (value : BitVec 64) (s : State) : State × Reply :=
  match s.machineByKey key value with
  | none => s.badParam
  | some none => s.deny .notFound
  | some (some m) => (s, Reply.okWith (s.machineFlds m))

def execGetMachine (r : Req) (key : Nat) (value : BitVec 64) (s : State) : Result :=
  .next (s.framed r 0x02 .anyPort (bodyGetMachine key value))

/-- GET_ACCOUNT (R48). -/
def bodyGetAccount (account : Nat) (s : State) : State × Reply :=
  if inRange 1 64 account then
    match findAccount s.accounts account with
    | some a => (s, Reply.okWith (s.accountFlds a))
    | none => s.deny .notFound
  else s.badParam

def execGetAccount (r : Req) (account : Nat) (s : State) : Result :=
  .next (s.framed r 0x03 .anyPort (bodyGetAccount account))

/-- GET_STOCK (R114). -/
def bodyGetStock (comp : Nat) (s : State) : State × Reply :=
  match num4Of comp with
  | none => s.badParam
  | some c =>
    match s.comp c with
    | some x => (s, Reply.okWith (s.compFlds c x))
    | none => s.deny .notFound

def execGetStock (r : Req) (comp : Nat) (s : State) : Result :=
  .next (s.framed r 0x04 .anyPort (bodyGetStock comp))

/-- READ_JOURNAL (R160). -/
def bodyReadJournal (start : SeqNo) (count : Nat) (s : State) : State × Reply :=
  if inRange 1 8 count then
    match s.journal.place start with
    | .stored k => (s, Reply.okWith (s.journal.readFlds k count))
    | .ahead => s.deny .notFound
    | .behind => s.deny .notFound
  else s.badParam

def execReadJournal (r : Req) (start : SeqNo) (count : Nat) (s : State) : Result :=
  .next (s.framed r 0x05 .anyPort (bodyReadJournal start count))

/-- GET_NOTICES: every flag returned is cleared, but LOAD_STAGE_EMPTY stands (R136, R184). -/
def bodyGetNotices (o : PortId) (s : State) : State × Reply :=
  let x := s.port o
  ( s.setPort o (Port.follow { x with notices := x.notices &&& Notice.loadStageEmpty.flag }),
    Reply.okWith [fld 4 x.notices.toNat] )

def execGetNotices (r : Req) (s : State) : Result := .next (s.framed r 0x06 .anyPort (bodyGetNotices r.port))

/-- GET_TIME (R163). -/
def bodyGetTime (s : State) : State × Reply := (s, Reply.okWith s.timeFlds)

def execGetTime (r : Req) (s : State) : Result := .next (s.framed r 0x07 .anyPort bodyGetTime)

/-- SET_NOTICE_MASK, on the sending port alone (R183). -/
def bodySetNoticeMask (o : PortId) (mask enable : Nat) (s : State) : State × Reply :=
  match yesNo enable with
  | some on =>
    if mask < 2 ^ 25 then
      (s.setPort o (Port.follow { s.port o with mask := BitVec.ofNat 25 mask, enable := on }), Reply.ok)
    else s.badParam
  | none => s.badParam

def execSetNoticeMask (r : Req) (mask enable : Nat) (s : State) : Result :=
  .next (s.framed r 0x08 .anyPort (bodySetNoticeMask r.port mask enable))

/-- REQUEST_ACCOUNT_ROLE, decided in the order of R179. -/
def bodyRequestAccountRole (o : PortId) (s : State) : State × Reply :=
  if s.holdsAccount o then s.done
  else if s.holdsCalibrate o ∨ s.holderLapsed then (s.moveRole o, Reply.ok)
  else if s.roles.requester.isSome then s.deny .busy
  else
    ( (s.setRoles { s.roles with requester := some o, answer := some Config.answerTime }).raiseOn s.roles.holder
        .roleRequested,
      Reply.of .accepted )

def execRequestAccountRole (r : Req) (s : State) : Result :=
  .next (s.framed r 0x09 .anyPort (bodyRequestAccountRole r.port))

end Sys2Proof.Machine
end

