-- ==== Sys2Proof/Machine/Rollover.lean ====
section
/-! DEFINITION. The price take-over, the evaluation of the shift identity and the rollover (R52, R159, R168 to R172). -/

namespace Sys2Proof.Machine

open Sys2Proof

/-- The take-over of staged prices (R52). -/
def State.takeOver (s : State) (prices : PriceTable) (choice : TakeOver) : State :=
  let s := { s with prices := { current := prices, staged := none } }
  (s.storeSystem (.priceTakeover choice prices)).raise .priceTakeover

/-- Close the shift tally from `p` to `n` (R159). -/
def State.closeTally (s : State) (p n : ShiftId) : State :=
  let t := s.journal.tally
  if s.journal.hasRoom then
    let s := s.store (.shiftClose t.first p t.covered t.nets t.counts)
    s.setJournal
      { s.journal with tally := { first := n, covered := 1, nets := Quad.all 0, counts := Quad.all 0 } }
  else
    s.setJournal { s.journal with tally := { t with covered := addCapped Config.max16 t.covered 1 } }

/-- Clear a machine's usages at a rollover from `p` to `n` (R170). -/
def MachineRec.clearUsage (m : MachineRec) (p n : ShiftId) : MachineRec :=
  if n.date ≠ p.date ∨ n.index = 1 then { m with shiftUsage := 0, dayUsage := 0 } else { m with shiftUsage := 0 }

/-- A staged AT_SHIFT table takes over (R169, step 3). -/
def State.shiftPrices (s : State) : State :=
  match s.prices.staged with
  | some (prices, .atShift) => s.takeOver prices .atShift
  | _ => s

/-- The rollover to `n` (R169). -/
def State.rollover (s : State) (n : ShiftId) : State :=
  let p := s.clock.shift
  let s := (s.setClock { s.clock with shift := n }).closeTally p n
  let s := s.setRoster (s.roster.map fun m => m.clearUsage p n)
  ((s.shiftPrices).reconcileAll .shift).raise .shiftRolled

/-- The evaluated identity differs from the one held, and the clock is valid (R168). -/
def State.shiftDue (s : State) : Bool := s.clock.valid && shiftAt s.clock.shifts s.clock.now != s.clock.shift

/-- Evaluate the shift identity: a rollover where it has changed (R168). -/
def State.evaluateShift (s : State) : State :=
  if s.shiftDue then s.rollover (shiftAt s.clock.shifts s.clock.now) else s

/-- The calendar has passed its end: the clock becomes invalid (R163). -/
def State.loseClock (s : State) : State := (s.setClock { s.clock with valid := false }).raise .clockInvalid

/-- The clock moves to :00 of the next minute, by counting or by a trim (R163, R166), without an evaluation. -/
def State.passMinute (s : State) : State :=
  let (t, wrapped) := s.clock.now.nextMinute
  let s := s.setClock { s.clock with now := t }
  if wrapped then s.loseClock else s

end Sys2Proof.Machine
end

