-- ==== Sys2Proof/Machine/CmdAccount.lean ====
section
/-! DEFINITION. The commands of the ACCOUNT role (10.7): roster, accounts, products, prices, limits, stock figures, the
journal's release, clock and shifts, suction policy, and the answers to a role request. -/

namespace Sys2Proof.Machine

open Sys2Proof

/-! ### Roster (R27, R29) -/

/-- What a PUT_MACHINE writes, once its fields are in range (R25, R27). -/
structure MachineEdit where
  number : Nat
  tagId : Option TagId
  product : ProductId
  capacity : Nat
  account : Nat
  shiftAllowance : Nat
  dayAllowance : Nat
  manualPermitted : Bool
  state : MachineState
  lastHours : Option Nat
  deriving DecidableEq, Repr

/-- The numbers of a PUT_MACHINE lie in their ranges (R25). -/
def RawMachine.inRanges (m : RawMachine) : Bool :=
  inRange 1 999999 m.number && inRange 100 2000000 m.capacity && inRange 1 64 m.account &&
    inRange 0 99999999 m.shiftAllowance && inRange 0 99999999 m.dayAllowance

/-- Check 1 of R27; none is BAD_PARAM. -/
def readMachine (m : RawMachine) : Option MachineEdit :=
  if RawMachine.inRanges m then
    match readOpt 0 (fun _ => true) m.tagId, num4Of m.product, yesNo m.manualPermitted, machineStateOf m.state,
      readOpt 0 (fun h => decide (h ≤ 9999999)) m.lastHours with
    | some t, some q, some y, some st, some h =>
      some
        { number := m.number, tagId := t, product := q, capacity := m.capacity, account := m.account,
          shiftAllowance := m.shiftAllowance, dayAllowance := m.dayAllowance, manualPermitted := y, state := st,
          lastHours := h }
    | _, _, _, _, _ => none
  else none

/-- The record a PUT_MACHINE leaves, from the one held (R27). -/
def MachineEdit.record (m : MachineEdit) (old : Option MachineRec) : MachineRec :=
  { number := m.number, tagId := m.tagId, product := m.product, capacity := m.capacity, account := m.account,
    shiftAllowance := m.shiftAllowance, dayAllowance := m.dayAllowance,
    shiftUsage := old.elim 0 fun x => x.shiftUsage, dayUsage := old.elim 0 fun x => x.dayUsage,
    reserved := old.elim 0 fun x => x.reserved,
    lastHours := match m.lastHours with | some h => some h | none => old.bind fun x => x.lastHours,
    manualPermitted := m.manualPermitted, state := m.state }

/-- The tag identity is held by a record with another machine number (R27). -/
def State.tagInUse (s : State) (t : Option TagId) (number : Nat) : Bool :=
  match t with
  | none => false
  | some u => s.roster.any fun x => x.tagId == some u && x.number != number

/-- PUT_MACHINE (R27). -/
def bodyPutMachine (raw : RawMachine) (s : State) : State × Reply :=
  match readMachine raw with
  | none => s.badParam
  | some m =>
    let old := findMachine s.roster m.number
    if (s.product m.product).isNone ∨ (findAccount s.accounts m.account).isNone then s.deny .notFound
    else if s.tagInUse m.tagId m.number then (s, Reply.refused .tagInUse)
    else if old.isNone ∧ Config.rosterSize ≤ s.roster.length then s.deny .full
    else (s.setRoster (putMachineRec (m.record old) s.roster), Reply.ok)

def execPutMachine (r : Req) (m : RawMachine) (s : State) : Result :=
  .next (s.framed r 0x30 .account (bodyPutMachine m))

/-- The machine has an open delivery on either point (R29). -/
def State.machineOpen (s : State) (n : Nat) : Bool :=
  s.points.a.context.any (fun d => d.machine == n) || s.points.b.context.any fun d => d.machine == n

/-- DROP_MACHINE (R29). -/
def bodyDropMachine (machine : Nat) (s : State) : State × Reply :=
  if ¬ inRange 1 999999 machine then s.badParam
  else if (findMachine s.roster machine).isNone then s.deny .notFound
  else if s.machineOpen machine then s.deny .busy
  else (s.setRoster (dropMachineRec machine s.roster), Reply.ok)

def execDropMachine (r : Req) (machine : Nat) (s : State) : Result :=
  .next (s.framed r 0x31 .account (bodyDropMachine machine))

/-! ### Accounts and products (R46, R49, R64) -/

/-- The record a PUT_ACCOUNT leaves, from the one held (R46). -/
def accountRecord (old : Option Account) (number : Nat) (code : List Nat) (credit : Nat) (tier : Tier)
    (closed : Bool) : Account :=
  match old with
  | some a => { a with code := code, tier := tier, closed := closed }
  | none =>
    { number := number, code := code, credit := credit, spent := 0, reserved := 0, tier := tier, closed := closed,
      stopped := false }

/-- PUT_ACCOUNT (R46). -/
def bodyPutAccount (account : Nat) (code : List Nat) (credit tier closed : Nat) (s : State) : State × Reply :=
  match inRange 1 64 account && printableCode 8 code && decide (credit ≤ Config.creditMax), num4Of tier,
    yesNo closed with
  | true, some t, some x =>
    ( s.setAccounts
        (putAccountRec (accountRecord (findAccount s.accounts account) account code credit t x) s.accounts),
      Reply.ok )
  | _, _, _ => s.badParam

def execPutAccount (r : Req) (account : Nat) (code : List Nat) (credit tier closed : Nat) (s : State) : Result :=
  .next (s.framed r 0x32 .account (bodyPutAccount account code credit tier closed))

/-- An account under a CREDIT_ADJUST: its limit, its spent where it is reset, and stopped re-evaluated (R64). -/
def Account.adjust (a : Account) (credit : Nat) (reset : Bool) : Account :=
  let b := { a with credit := credit, spent := if reset then 0 else a.spent }
  { b with stopped := b.overdrawn }

/-- CREDIT_ADJUST (R64, R65). -/
def bodyCreditAdjust (account credit reset : Nat) (s : State) : State × Reply :=
  match inRange 1 64 account && decide (credit ≤ Config.creditMax), yesNo reset with
  | true, some zero =>
    match findAccount s.accounts account with
    | none => s.deny .notFound
    | some a =>
      if zero ∧ ¬ s.journal.hasRoom then s.deny .full
      else
        let b := a.adjust credit zero
        let t := if zero then s.store (.accountReset account a.code a.spent a.credit credit a.reserved) else s
        let t := t.setAccounts (putAccountRec b t.accounts)
        (if b.stopped ∧ ¬ a.stopped then t.raise .creditStop else t, Reply.ok)
  | _, _ => s.badParam

def execCreditAdjust (r : Req) (account credit reset : Nat) (s : State) : Result :=
  .next (s.framed r 0x33 .account (bodyCreditAdjust account credit reset))

/-- PUT_PRODUCT (R49). -/
def bodyPutProduct (product : Nat) (code : List Nat) (alpha points : Nat) (s : State) : State × Reply :=
  match num4Of product, permittedOf points, printableCode 4 code && decide (alpha ≤ 2000) with
  | some q, some x, true =>
    ({ s with products := s.products.set q (some { code := code, alpha := alpha, points := x }) }, Reply.ok)
  | _, _, _ => s.badParam

def execPutProduct (r : Req) (product : Nat) (code : List Nat) (alpha points : Nat) (s : State) : Result :=
  .next (s.framed r 0x34 .account (bodyPutProduct product code alpha points))

/-- STAGE_PRICES (R51). -/
def bodyStagePrices (choice : Nat) (prices : Quad (Quad Nat)) (s : State) : State × Reply :=
  match takeOverOf choice, prices.toList.all fun t => t.toList.all fun n => inRange 1 9999999 n with
  | some .now, true => (s.takeOver prices .now, Reply.ok)
  | some .atShift, true => ({ s with prices := { s.prices with staged := some (prices, .atShift) } }, Reply.ok)
  | _, _ => s.badParam

def execStagePrices (r : Req) (choice : Nat) (prices : Quad (Quad Nat)) (s : State) : Result :=
  .next (s.framed r 0x35 .account (bodyStagePrices choice prices))

/-- SET_LIMIT_SETTINGS (R56). -/
def bodySetLimitSettings (minimum cap : Nat) (s : State) : State × Reply :=
  if inRange 10 1000 minimum ∧ inRange 0 200000 cap then
    ({ s with limits := { minimum := minimum, manualCap := cap } }, Reply.ok)
  else s.badParam

def execSetLimitSettings (r : Req) (minimum cap : Nat) (s : State) : Result :=
  .next (s.framed r 0x36 .account (bodySetLimitSettings minimum cap))

/-! ### Stock figures and the journal (R118, R125, R161) -/

/-- ADJUST_STOCK, its checks passed (R125). -/
def State.adjustStock (s : State) (c : CompId) (x : Compartment) (book : Nat) : State :=
  let s := s.store (.stockAdjust c x.product x.book book ((s.gauge c).map fun g => g.net))
  (s.modComp c fun y =>
    { y with
      book := book, state := if y.state = .empty then .inService else y.state, suctionLost := false,
      variance := false }).reorderNew c

/-- ADJUST_STOCK (R125). -/
def bodyAdjustStock (comp book : Nat) (s : State) : State × Reply :=
  match num4Of comp, decide (book ≤ Config.bookMax) with
  | some c, true =>
    match s.comp c with
    | none => s.deny .notFound
    | some x =>
      if s.segmentOn c ∨ x.state = .loading then s.deny .busy
      else if ¬ s.journal.hasRoom then s.deny .full
      else ((s.adjustStock c x book).follow s, Reply.ok)
  | _, _ => s.badParam

def execAdjustStock (r : Req) (comp book : Nat) (s : State) : Result :=
  .next (s.framed r 0x37 .account (bodyAdjustStock comp book))

/-- SET_STOCK_LIMITS (R118, R130). -/
def bodySetStockLimits (comp reorder tolerance : Nat) (s : State) : State × Reply :=
  match num4Of comp, decide (reorder ≤ 4000000) && decide (tolerance ≤ 1000000) with
  | some c, true =>
    if (s.comp c).isNone then s.deny .notFound
    else ((s.modComp c fun x => { x with reorder := reorder, tolerance := tolerance }).reorderNew c, Reply.ok)
  | _, _ => s.badParam

def execSetStockLimits (r : Req) (comp reorder tolerance : Nat) (s : State) : Result :=
  .next (s.framed r 0x38 .account (bodySetStockLimits comp reorder tolerance))

/-- Free the oldest `n` records (R161); the high mark is cleared below its threshold (R156). -/
def Journal.release (j : Journal) (n : Nat) : Journal :=
  let k := { j with records := j.records.drop n }
  { k with highMark := k.highMark && decide (Config.highWater ≤ k.occupied + k.reserved) }

def releaseFlds (freed : Nat) (j : Journal) : List Field :=
  [fld 4 freed, seqFld j.oldest, fld 4 j.occupied, fld 4 j.room]

/-- RELEASE_THROUGH (R161). -/
def bodyReleaseThrough (seq : SeqNo) (s : State) : State × Reply :=
  match s.journal.place seq with
  | .stored k =>
    let t := (s.setJournal (s.journal.release (k + 1))).follow s
    (t, Reply.okWith (releaseFlds (k + 1) t.journal))
  | .behind => (s, Reply.okWith (releaseFlds 0 s.journal))
  | .ahead => s.badParam

def execReleaseThrough (r : Req) (seq : SeqNo) (s : State) : Result :=
  .next (s.framed r 0x39 .account (bodyReleaseThrough seq))

/-! ### Clock and shifts (R165 to R167) -/

/-- The fields of a SET_TIME lie in their ranges (R165). -/
def timeInRange (year month day hour minute second : Nat) : Bool :=
  inRange 2000 2099 year && inRange 1 12 month && inRange 0 23 hour && inRange 0 59 minute && inRange 0 59 second &&
    inRange 1 (monthLength year month) day

/-- SET_TIME (R165). The year is 2000 and more: the frame carries it less 2000. -/
def bodySetTime (year month day hour minute second : Nat) (s : State) : State × Reply :=
  if timeInRange year month day hour minute second then
    let now : DateTime :=
      { date := { year := year, month := month, day := day }, hour := hour, minute := minute, second := second,
        tenth := 0 }
    let t := s.setClock { s.clock with now := now, valid := true }
    (t.evaluateShift, Reply.okWith (yes t.shiftDue :: shiftFlds t.evaluateShift.clock.shift))
  else s.badParam

def execSetTime (r : Req) (year month day hour minute second : Nat) (s : State) : Result :=
  .next (s.framed r 0x3A .account (bodySetTime year month day hour minute second))

/-- The clock at the nearest whole minute (R166). -/
def State.trimClock (s : State) : State :=
  if s.clock.now.second ≤ 29 then s.setClock { s.clock with now := { s.clock.now with second := 0, tenth := 0 } }
  else s.passMinute

/-- TRIM_CLOCK (R166). A trim past the calendar's end leaves the clock invalid, which is not evaluated. -/
def bodyTrimClock (s : State) : State × Reply :=
  if s.clock.valid then (s.trimClock.evaluateShift, Reply.okWith [yes s.trimClock.shiftDue])
  else s.deny .wrongState

def execTrimClock (r : Req) (s : State) : Result := .next (s.framed r 0x3B .account bodyTrimClock)

/-- A shift table that SET_SHIFTS takes (R167). -/
def shiftsInRange (starts : List (Nat × Nat)) : Bool :=
  inRange 1 3 starts.length && (starts.all fun x => decide (x.1 ≤ 23) && decide (x.2 ≤ 59)) && risingStarts starts

/-- SET_SHIFTS (R167). -/
def bodySetShifts (starts : List (Nat × Nat)) (s : State) : State × Reply :=
  if shiftsInRange starts then
    let t := s.setClock { s.clock with shifts := starts }
    (t.evaluateShift, Reply.okWith [yes t.shiftDue])
  else s.badParam

def execSetShifts (r : Req) (starts : List (Nat × Nat)) (s : State) : Result :=
  .next (s.framed r 0x3C .account (bodySetShifts starts))

/-! ### Suction policy and role answers (R101, R180) -/

/-- SET_SUCTION_POLICY (R101). -/
def bodySetSuctionPolicy (policy point : Nat) (s : State) : State × Reply :=
  match policyOf policy point with
  | some x => ((s.setArbiter { s.arbiter with policy := x }).follow s, Reply.ok)
  | none => s.badParam

def execSetSuctionPolicy (r : Req) (policy point : Nat) (s : State) : Result :=
  .next (s.framed r 0x3D .account (bodySetSuctionPolicy policy point))

/-- YIELD_ACCOUNT_ROLE (R180). -/
def bodyYieldAccountRole (s : State) : State × Reply :=
  match s.roles.requester with
  | some q => (s.moveRole q, Reply.ok)
  | none => s.deny .wrongState

def execYieldAccountRole (r : Req) (s : State) : Result := .next (s.framed r 0x3E .account bodyYieldAccountRole)

/-- DENY_ACCOUNT_ROLE (R180). -/
def bodyDenyAccountRole (s : State) : State × Reply :=
  match s.roles.requester with
  | some _ => (s.denyRequest, Reply.ok)
  | none => s.deny .wrongState

def execDenyAccountRole (r : Req) (s : State) : Result := .next (s.framed r 0x3F .account bodyDenyAccountRole)

end Sys2Proof.Machine
end

