-- ==== Sys2Proof/Machine/CmdCalibrate.lean ====
section
/-! DEFINITION. The commands of the CALIBRATE role (10.7): the settings of the meters, points, suction, pump,
compartments, loading and supervision. -/

namespace Sys2Proof.Machine

open Sys2Proof

/-! ### Meters (R20 to R22) -/

/-- SET_K_FACTOR (R20). -/
def bodySetKFactor (channel k : Nat) (s : State) : State × Reply :=
  match channelOf channel, inRange 100 20000 k with
  | some c, true =>
    if (s.channel c).bound then s.deny .busy
    else (s.setChannel c { s.channel c with k := k, grossRem := 0 }, Reply.ok)
  | _, _ => s.badParam

def execSetKFactor (r : Req) (channel k : Nat) (s : State) : Result :=
  .next (s.framed r 0x40 .calibrate (bodySetKFactor channel k))

/-- SET_RATED_FLOW (R21). -/
def bodySetRatedFlow (channel maximum : Nat) (s : State) : State × Reply :=
  match channelOf channel, inRange 1 20000 maximum with
  | some c, true => (s.setChannel c { s.channel c with ratedMax := maximum }, Reply.ok)
  | _, _ => s.badParam

def execSetRatedFlow (r : Req) (channel maximum : Nat) (s : State) : Result :=
  .next (s.framed r 0x41 .calibrate (bodySetRatedFlow channel maximum))

/-- A linearisation table that SET_LINEARISATION takes (R22). -/
def tableInRange (points : List (Nat × Nat)) : Bool :=
  decide (points.length ≤ 5) &&
    (points.all fun x => inRange 1 20000 x.1 && inRange 950000 1050000 x.2) && risingFirst points

/-- SET_LINEARISATION (R22). -/
def bodySetLinearisation (channel : Nat) (points : List (Nat × Nat)) (s : State) : State × Reply :=
  match channelOf channel, tableInRange points with
  | some c, true =>
    if (s.channel c).bound then s.deny .busy
    else (s.setChannel c { s.channel c with table := points }, Reply.ok)
  | _, _ => s.badParam

def execSetLinearisation (r : Req) (channel : Nat) (points : List (Nat × Nat)) (s : State) : Result :=
  .next (s.framed r 0x42 .calibrate (bodySetLinearisation channel points))

/-! ### Points and suction (R69, R101) -/

/-- SET_POINT_VOLUMES (R69). -/
def bodySetPointVolumes (point slowdown closeAhead : Nat) (s : State) : State × Reply :=
  match pointOf point, inRange 0 5000 slowdown && inRange 0 200 closeAhead with
  | some p, true =>
    if (s.point p).state = .closed then
      (s.setPoint p { s.point p with slowdown := slowdown, closeAhead := closeAhead }, Reply.ok)
    else s.deny .busy
  | _, _ => s.badParam

def execSetPointVolumes (r : Req) (point slowdown closeAhead : Nat) (s : State) : Result :=
  .next (s.framed r 0x43 .calibrate (bodySetPointVolumes point slowdown closeAhead))

/-- SET_POINT_TIMES (R69). -/
def bodySetPointTimes (auth hold settle pump : Nat) (s : State) : State × Reply :=
  if wholeSeconds 10 600 auth ∧ wholeSeconds 5 600 hold ∧ inRange 5 100 settle ∧ wholeSeconds 10 600 pump then
    ( { s with
        times := { s.times with auth := auth, holdToRun := hold, meterSettle := settle, pumpSuspend := pump } },
      Reply.ok )
  else s.badParam

def execSetPointTimes (r : Req) (auth hold settle pump : Nat) (s : State) : Result :=
  .next (s.framed r 0x44 .calibrate (bodySetPointTimes auth hold settle pump))

/-- SET_SUCTION_TIMES (R101). -/
def bodySetSuctionTimes (hold travel : Nat) (s : State) : State × Reply :=
  if wholeSeconds 0 120 hold ∧ inRange 5 100 travel then
    (s.setArbiter { s.arbiter with holdTime := hold, travelTime := travel }, Reply.ok)
  else s.badParam

def execSetSuctionTimes (r : Req) (hold travel : Nat) (s : State) : Result :=
  .next (s.framed r 0x45 .calibrate (bodySetSuctionTimes hold travel))

/-! ### Pump (R104) -/

/-- Replace a kind's settings; OFF stops its timers and clears its reported mark (R104). -/
def Pump.setFault (x : Pump) (k : FaultKind) (f : FaultSetting) : Pump :=
  let y := { x with faults := x.faults.set k f }
  if f.action = .off then
    { y with
      deglitch := y.deglitch.set k none, reported := y.reported.set k false
      noFlow := if k = .noFlow then none else y.noFlow }
  else y

/-- SET_PUMP_FAULT (R104). -/
def bodySetPumpFault (kind action deglitch th1 th2 : Nat) (s : State) : State × Reply :=
  match faultKindOf kind, faultActionOf action with
  | some k, some a =>
    match faultSettingOf k a deglitch th1 th2 with
    | some f => (s.setPump (s.pump.setFault k f), Reply.ok)
    | none => s.badParam
  | _, _ => s.badParam

def execSetPumpFault (r : Req) (kind action deglitch th1 th2 : Nat) (s : State) : Result :=
  .next (s.framed r 0x46 .calibrate (bodySetPumpFault kind action deglitch th1 th2))

/-- SET_PUMP_RUN (R104): 0 is UNLIMITED. -/
def bodySetPumpRun (ramp retry limit : Nat) (s : State) : State × Reply :=
  if inRange 2 50 ramp ∧ wholeSeconds 1 60 retry ∧ limit ≤ 10 then
    ( s.setPump
        { s.pump with
          rampTime := ramp, retryTime := retry, retryLimit := if limit = 0 then none else some limit },
      Reply.ok )
  else s.badParam

def execSetPumpRun (r : Req) (ramp retry limit : Nat) (s : State) : Result :=
  .next (s.framed r 0x47 .calibrate (bodySetPumpRun ramp retry limit))

/-! ### Compartments (R116, R118, R120) -/

/-- The values of a CONFIGURE_COMPARTMENT lie in their ranges (R114). -/
def compInRange (capacity safeFill heel margin : Nat) : Bool :=
  inRange 10000 4000000 capacity && inRange 80 98 safeFill && decide (heel ≤ 100000) && decide (margin ≤ 50000)

/-- A new record: the values carried, the remaining defaults of R114 and the settle timer started (R116, R126). -/
def newCompartment (q : ProductId) (capacity safeFill heel margin settle : Nat) : Compartment :=
  { Compartment.factory with
    product := q, capacity := capacity, safeFill := safeFill, heel := heel, margin := margin, settle := some settle }

/-- A compartment is in use: in service, drawn on by an open delivery, or named by a load entry (R116). -/
def State.compInUse (s : State) (c : CompId) (x : Compartment) : Bool :=
  x.state != .outOfService || s.segmentOn c || s.planNames c

/-- CONFIGURE_COMPARTMENT (R116). -/
def bodyConfigureCompartment (comp product capacity safeFill heel margin : Nat) (s : State) : State × Reply :=
  match num4Of comp, num4Of product, compInRange capacity safeFill heel margin with
  | some c, some q, true =>
    match s.comp c with
    | none => (s.setComp c (some (newCompartment q capacity safeFill heel margin s.stockSettle)), Reply.ok)
    | some x =>
      if s.compInUse c x then s.deny .busy
      else if x.product ≠ q ∧ x.book ≠ 0 then (s, Reply.refused .stockHeld)
      else
        ( (s.modComp c fun y =>
            { y with
              product := q, capacity := capacity, safeFill := safeFill, heel := heel, margin := margin }).reorderFall
            c,
          Reply.ok )
  | _, _, _ => s.badParam

def execConfigureCompartment (r : Req) (comp product capacity safeFill heel margin : Nat) (s : State) : Result :=
  .next (s.framed r 0x48 .calibrate (bodyConfigureCompartment comp product capacity safeFill heel margin))

/-- `c` is the only configured compartment (R116). -/
def State.onlyComp (s : State) (c : CompId) : Bool := Num4.all.all fun d => d == c || (s.comp d).isNone

/-- REMOVE_COMPARTMENT (R116). -/
def bodyRemoveCompartment (comp : Nat) (s : State) : State × Reply :=
  match num4Of comp with
  | none => s.badParam
  | some c =>
    match s.comp c with
    | none => s.deny .notFound
    | some x =>
      if s.onlyComp c then (s, Reply.refused .lastCompartment)
      else if s.compInUse c x then s.deny .busy
      else if x.book ≠ 0 then (s, Reply.refused .stockHeld)
      else (s.setComp c none, Reply.ok)

def execRemoveCompartment (r : Req) (comp : Nat) (s : State) : Result :=
  .next (s.framed r 0x49 .calibrate (bodyRemoveCompartment comp))

/-- A strapping table that SET_STRAPPING takes (R120). -/
def strappingInRange (points : List (Nat × Nat)) : Bool :=
  inRange 2 16 points.length && (points.all fun x => decide (x.1 ≤ 4000) && decide (x.2 ≤ 40000)) &&
    risingFirst points && risingSecond points

/-- SET_STRAPPING (R120). -/
def bodySetStrapping (comp : Nat) (points : List (Nat × Nat)) (s : State) : State × Reply :=
  match num4Of comp, strappingInRange points with
  | some c, true =>
    if (s.comp c).isNone then s.deny .notFound
    else (s.modComp c fun x => { x with strapping := points }, Reply.ok)
  | _, _ => s.badParam

def execSetStrapping (r : Req) (comp : Nat) (points : List (Nat × Nat)) (s : State) : Result :=
  .next (s.framed r 0x4A .calibrate (bodySetStrapping comp points))

/-- SET_STOCK_SETTLE (R118). -/
def bodySetStockSettle (time : Nat) (s : State) : State × Reply :=
  if wholeSeconds 10 600 time then ({ s with stockSettle := time }, Reply.ok) else s.badParam

def execSetStockSettle (r : Req) (time : Nat) (s : State) : Result :=
  .next (s.framed r 0x4B .calibrate (bodySetStockSettle time))

/-! ### Loading, coupling, supervision, wake (R36, R149, R186, R188) -/

/-- The current entry is LOADING or SETTLING (R149). -/
def Loader.filling (x : Loader) : Bool := x.current.any fun e => e.state == .loading || e.state == .settling

/-- SET_LOAD_SETTINGS (R149). -/
def bodySetLoadSettings (closeAhead noFlow : Nat) (s : State) : State × Reply :=
  if inRange 0 500 closeAhead ∧ wholeSeconds 10 600 noFlow then
    if s.loader.filling then s.deny .busy
    else (s.setLoader { s.loader with closeAhead := closeAhead, noFlowTime := noFlow }, Reply.ok)
  else s.badParam

def execSetLoadSettings (r : Req) (closeAhead noFlow : Nat) (s : State) : Result :=
  .next (s.framed r 0x4C .calibrate (bodySetLoadSettings closeAhead noFlow))

/-- SET_COUPLING_GRACE (R36). -/
def bodySetCouplingGrace (time : Nat) (s : State) : State × Reply :=
  if wholeSeconds 1 60 time then ({ s with times := { s.times with grace := time } }, Reply.ok) else s.badParam

def execSetCouplingGrace (r : Req) (time : Nat) (s : State) : Result :=
  .next (s.framed r 0x4D .calibrate (bodySetCouplingGrace time))

/-- SET_PORT_SUPERVISION (R186): 0 is OFF. A new lapse applies at once to the silence already counted. -/
def bodySetPortSupervision (timeout mode lapse : Nat) (s : State) : State × Reply :=
  match consoleModeOf mode, (timeout == 0 || inRange 5 100 timeout) && wholeSeconds 30 3600 lapse with
  | some m, true =>
    let off := timeout == 0
    let t :=
      s.setWatch
        { s.watch with
          timeout := if off then none else some timeout, mode := m, lapse := lapse,
          timer := if off then none else s.watch.timer }
    ((t.followWatch s).applyLapse, Reply.ok)
  | _, _ => s.badParam

def execSetPortSupervision (r : Req) (timeout mode lapse : Nat) (s : State) : Result :=
  .next (s.framed r 0x4E .calibrate (bodySetPortSupervision timeout mode lapse))

/-- SET_WAKE_SETTLE (R188). -/
def bodySetWakeSettle (time : Nat) (s : State) : State × Reply :=
  if inRange 5 100 time then (s.setPower { s.power with wakeTime := time }, Reply.ok) else s.badParam

def execSetWakeSettle (r : Req) (time : Nat) (s : State) : Result :=
  .next (s.framed r 0x4F .calibrate (bodySetWakeSettle time))

end Sys2Proof.Machine
end

