-- ==== Sys2Proof/Machine/CmdOperate.lean ====
section
/-! DEFINITION. The commands of the OPERATE role, and those of OPERATE or ACCOUNT (10.7): identification by hand, presets,
stops, modes, parking, the pump clear, load plans, compartment service and reconciling. -/

namespace Sys2Proof.Machine

open Sys2Proof

/-- Refuse an IDENTIFY_MANUAL: the status is also the point's last identification outcome (R41). -/
def State.refuseManual (s : State) (p : PointId) (x : Reply) (machine : Option Nat) : State × Reply :=
  (s.setRefusal p x.status x.reason x.detail none machine, x)

/-- The fill number a manual identification opens: 1 in REPEAT, 0 outside a series (R67, R92). -/
def Point.firstFill (x : Point) : Nat := if x.mode = .repeatFill then 1 else 0

/-- The coupler is UNCOUPLED or LOST (R41, check 5). -/
def Coupling.away : Coupling → Bool
  | .uncoupled => true
  | .lost _ => true
  | _ => false

/-- The checks of R41 from the second on, and the authorisation. -/
def State.identifyManual (s : State) (p : PointId) (machine : Nat) (hours : Option Nat) : State × Reply :=
  if (s.point p).parked then s.refuseManual p (Reply.refused .pointParked) none
  else if (s.point p).state ≠ .closed then s.refuseManual p (Reply.of .wrongState) none
  else if ¬ (s.coupler p).offHook then s.refuseManual p (Reply.refused .nozzleOnHook) none
  else if ¬ (s.coupler p).coupling.away then s.refuseManual p (Reply.refused .tagPresent) none
  else
    match findMachine s.roster machine with
    | none => s.refuseManual p (Reply.of .notFound) none
    | some m =>
      if ¬ m.manualPermitted then s.refuseManual p (Reply.refused .manualNotPermitted) (some machine)
      else if m.state ≠ .active then s.refuseManual p (Reply.refused .machineSuspended) (some machine)
      else
        match
          s.authorise p
            { machine := m, ident := .manual, hours := hours, level := none, fill := (s.point p).firstFill } with
        | .ok t => (t.follow s, Reply.ok)
        | .error x =>
          let t := if x.reason = .journalFull then s.raise .journalFull else s
          t.refuseManual p { status := .refused, reason := some x.reason, detail := x.source, data := [] }
            (some machine)

/-- IDENTIFY_MANUAL (R41). -/
def bodyIdentifyManual (point machine : Nat) (hours : RawOpt Nat) (s : State) : State × Reply :=
  match pointOf point with
  | none => s.badParam
  | some p =>
    match readOpt 0 (fun h => decide (h ≤ 9999999)) hours with
    | none => s.refuseManual p (Reply.of .badParam) none
    | some h =>
      if inRange 1 999999 machine then s.identifyManual p machine h
      else s.refuseManual p (Reply.of .badParam) none

def execIdentifyManual (r : Req) (point machine : Nat) (hours : RawOpt Nat) (s : State) : Result :=
  .next (s.framed r 0x10 .operate (bodyIdentifyManual point machine hours))

/-- SET_PRESET on a point in an open state: a lowering, or WRONG_STATE (R72). -/
def State.presetOpen (s : State) (p : PointId) (d : Delivery) (x : Option Preset) : State × Reply :=
  match x with
  | none => s.deny .wrongState
  | some q =>
    let v := q.volumeAt d.price
    if v < d.limit then
      let t := s.lowerLimit p v .preset
      let t :=
        t.setPoint p { t.point p with context := (t.point p).context.map fun y => { y with preset := some q } }
      ((t.compareLowered p).follow s, Reply.ok)
    else s.deny .wrongState

/-- SET_PRESET (R71, R72). -/
def bodySetPreset (point kind value : Nat) (s : State) : State × Reply :=
  match pointOf point, presetOf kind value with
  | some p, some x =>
    match (s.point p).context with
    | some d => s.presetOpen p d x
    | none => (s.setPoint p { s.point p with preset := x }, Reply.ok)
  | _, _ => s.badParam

def execSetPreset (r : Req) (point kind value : Nat) (s : State) : Result :=
  .next (s.framed r 0x11 .operate (bodySetPreset point kind value))

/-- STOP_POINT (R85). -/
def bodyStopPoint (point : Nat) (s : State) : State × Reply :=
  match pointOf point with
  | none => s.badParam
  | some p =>
    if (s.point p).state.unfinished then ((((s.endSeries p).finish p .operatorStop).follow s), Reply.ok)
    else if (s.point p).state = .finishing then (s.endSeries p, Reply.ok)
    else s.deny .wrongState

def execStopPoint (r : Req) (point : Nat) (s : State) : Result :=
  .next (s.framed r 0x12 .operate (bodyStopPoint point))

/-- STOP_REPEAT (R93). -/
def bodyStopRepeat (point : Nat) (s : State) : State × Reply :=
  match pointOf point with
  | none => s.badParam
  | some p =>
    if (s.point p).state ≠ .closed ∧ (s.point p).mode = .repeatFill then (s.endSeries p, Reply.ok)
    else s.deny .wrongState

def execStopRepeat (r : Req) (point : Nat) (s : State) : Result :=
  .next (s.framed r 0x13 .operate (bodyStopRepeat point))

/-- SET_POINT_MODE (R68). -/
def bodySetPointMode (point mode count : Nat) (s : State) : State × Reply :=
  match pointOf point, modeOf mode, inRange 1 99 count with
  | some p, some m, true =>
    if (s.point p).state = .closed then
      (s.setPoint p { s.point p with mode := m, repeatCount := count }, Reply.ok)
    else s.deny .wrongState
  | _, _, _ => s.badParam

def execSetPointMode (r : Req) (point mode count : Nat) (s : State) : Result :=
  .next (s.framed r 0x14 .operate (bodySetPointMode point mode count))

/-- PARK_POINT (R70). -/
def bodyParkPoint (point : Nat) (s : State) : State × Reply :=
  match pointOf point with
  | none => s.badParam
  | some p =>
    if (s.point p).state = .closed then (s.setPoint p { s.point p with parked := true }, Reply.ok)
    else s.deny .wrongState

def execParkPoint (r : Req) (point : Nat) (s : State) : Result :=
  .next (s.framed r 0x15 .operate (bodyParkPoint point))

/-- UNPARK_POINT (R70). -/
def bodyUnparkPoint (point : Nat) (s : State) : State × Reply :=
  match pointOf point with
  | none => s.badParam
  | some p => (s.setPoint p { s.point p with parked := false }, Reply.ok)

def execUnparkPoint (r : Req) (point : Nat) (s : State) : Result :=
  .next (s.framed r 0x16 .operate (bodyUnparkPoint point))

/-- CLEAR_PUMP_FAULT (R109). -/
def bodyClearPumpFault (s : State) : State × Reply :=
  if s.pump.state = .latched then
    if s.pump.supply = .within then
      ((s.setPump { s.pump with retryCount := 0 }).releasePump.follow s, Reply.ok)
    else (s, Reply.refused .faultPresent)
  else s.deny .wrongState

def execClearPumpFault (r : Req) (s : State) : Result := .next (s.framed r 0x17 .operate bodyClearPumpFault)

/-! ### OPERATE or ACCOUNT -/

/-- OPEN_LOAD_PLAN (R133). -/
def bodyOpenLoadPlan (docket : RawOpt (List Nat)) (s : State) : State × Reply :=
  match readOpt (List.replicate 12 0) (printableCode 12) docket with
  | none => s.badParam
  | some d =>
    if s.loader.state ≠ .none then s.deny .wrongState
    else if s.power.state = .wakeSettle then s.deny .wrongState
    else
      ( s.setLoader
          { s.loader with
            state := .opened, docket := d, current := none, staged := [], paused := false, stageEmpty := false },
        Reply.ok )

def execOpenLoadPlan (r : Req) (docket : RawOpt (List Nat)) (s : State) : Result :=
  .next (s.framed r 0x20 .operateOrAccount (bodyOpenLoadPlan docket))

/-- APPEND_LOAD_ENTRY (R134). THE MODEL'S CHOICE (log entry 9): the response tells 0 current or 1 staged, and the place among
the staged entries counted from 1, which is 0 for an entry that became current. -/
def bodyAppendLoadEntry (comp target : Nat) (s : State) : State × Reply :=
  match num4Of comp, targetOf target with
  | some c, some t =>
    if s.loader.state ≠ .opened then s.deny .wrongState
    else if (s.comp c).isNone then s.deny .notFound
    else if Config.stagedSize ≤ s.loader.staged.length then s.deny .full
    else
      let place := s.loader.staged.length + 1
      let promotes := s.loader.current.isNone && s.loader.staged.isEmpty && s.journal.canReserve
      let u :=
        (s.setLoader { s.loader with staged := s.loader.staged ++ [{ comp := c, target := t }] }).clearStageEmpty
      (u.follow s, Reply.okWith (if promotes then [fld 1 0, fld 4 0] else [fld 1 1, fld 4 place]))
  | _, _ => s.badParam

def execAppendLoadEntry (r : Req) (comp target : Nat) (s : State) : Result :=
  .next (s.framed r 0x21 .operateOrAccount (bodyAppendLoadEntry comp target))

/-- STOP_LOAD (R143). -/
def bodyStopLoad (s : State) : State × Reply :=
  match s.loader.current with
  | none => s.deny .wrongState
  | some e =>
    match e.state with
    | .loading => ((s.stopLoading .operatorStop).follow s, Reply.ok)
    | .settling => s.done
    | .due => ((((s.dropEntry e .operatorStop).raise .loadDone).afterEntry).follow s, Reply.ok)
    | .waiting => ((((s.dropEntry e .operatorStop).raise .loadDone).afterEntry).follow s, Reply.ok)

def execStopLoad (r : Req) (s : State) : Result := .next (s.framed r 0x22 .operateOrAccount bodyStopLoad)

/-- The staged entries are discarded and the plan is CLOSING (R147). -/
def State.beginClosing (s : State) : State :=
  s.setLoader { s.loader with state := .closing, staged := [], paused := false }

/-- CLOSE_LOAD_PLAN (R147). -/
def bodyCloseLoadPlan (s : State) : State × Reply :=
  if s.loader.state ≠ .opened then s.deny .wrongState
  else
    match s.loader.current with
    | none => (s.closePlan, Reply.ok)
    | some e =>
      match e.state with
      | .loading => (((s.stopLoading .operatorStop).beginClosing).follow s, Reply.ok)
      | .settling => (s.beginClosing, Reply.ok)
      | .due => ((((s.dropEntry e .operatorStop).raise .loadDone).closePlan).follow s, Reply.ok)
      | .waiting => ((((s.dropEntry e .operatorStop).raise .loadDone).closePlan).follow s, Reply.ok)

def execCloseLoadPlan (r : Req) (s : State) : Result := .next (s.framed r 0x23 .operateOrAccount bodyCloseLoadPlan)

/-- SET_COMPARTMENT_SERVICE by the compartment's state (R117): its new state, or none for WRONG_STATE. -/
def CompState.service : CompState → Bool → Option CompState
  | .inService, true => some .inService
  | .inService, false => some .outOfService
  | .outOfService, true => some .inService
  | .outOfService, false => some .outOfService
  | .empty, true => none
  | .empty, false => some .outOfService
  | .loading, _ => none

/-- SET_COMPARTMENT_SERVICE (R117). -/
def bodySetCompartmentService (comp service : Nat) (s : State) : State × Reply :=
  match num4Of comp, yesNo service with
  | some c, some on =>
    match s.comp c with
    | none => s.deny .notFound
    | some x =>
      match x.state.service on with
      | none => s.deny .wrongState
      | some st => ((s.modComp c fun y => { y with state := st }).follow s, Reply.ok)
  | _, _ => s.badParam

def execSetCompartmentService (r : Req) (comp service : Nat) (s : State) : Result :=
  .next (s.framed r 0x24 .operateOrAccount (bodySetCompartmentService comp service))

/-- RECONCILE (R128): 0 is ALL. -/
def bodyReconcile (comp : Nat) (s : State) : State × Reply :=
  if comp = 0 then
    let t := s.reconcileAll .command
    (t, Reply.okWith (listFlds (Num4.all.filter fun c => (t.comp c).isSome) t.reconciledFlds))
  else
    match num4Of comp with
    | none => s.badParam
    | some c =>
      if (s.comp c).isNone then s.deny .notFound
      else
        let t := s.reconcile .command c
        (t, Reply.okWith (listFlds [c] t.reconciledFlds))

def execReconcile (r : Req) (comp : Nat) (s : State) : Result :=
  .next (s.framed r 0x25 .operateOrAccount (bodyReconcile comp))

end Sys2Proof.Machine
end

