-- ==== Sys2Proof/Machine/EvField.lean ====
section
/-! DEFINITION. Events of the field lines: meters, nozzles, couplers, triggers, pump sensing, probes and switches. In reset
a line's change is only sensed (log entry 5); a line that reports the value it has makes no change (log entry 21). -/

namespace Sys2Proof.Machine

open Sys2Proof

/-! ### Meters (R3, R4) -/

/-- METER_PULSE (R3). -/
def execMeterPulse (channel : ChannelId) (dir : PulseDir) (s : State) : Result :=
  .next (if s.inReset then s else s.setChannel channel ((s.channel channel).count dir))

/-- What a point does at a window end of its channel (R77, R106). -/
def State.pointWindow (s : State) (p : PointId) : State :=
  if (s.point p).state.isFlowing then
    let t := (s.compareFlow p).follow s
    if t.flowingOnHeld p then t.testNoFlow else t
  else s

/-- What a channel's owner does with its new volume (R12). -/
def State.ownerActs (s : State) : ChannelId → State
  | .a => s.pointWindow .a
  | .b => s.pointWindow .b
  | .load => s.loadWindow

/-- METER_WINDOW_END with the probe's reading (R4). -/
def execMeterWindowEnd (channel : ChannelId) (probe : Option Int) (s : State) : Result :=
  .next (if s.inReset then s else (s.endWindow channel probe).ownerActs channel)

/-! ### Nozzle (R30, R32, R86) -/

/-- NOZZLE_OFF_HOOK: reading begins (R30). -/
def execNozzleOffHook (p : PointId) (s : State) : Result :=
  .next (s.setCoupler p { s.coupler p with offHook := true })

/-- The hook event at a point (R32, R86). -/
def State.hangNozzle (s : State) (p : PointId) : State :=
  let t := s.setCoupler p { s.coupler p with offHook := false, coupling := .uncoupled }
  if (t.point p).state.unfinished then ((t.endSeries p).finish p .nozzleHung).follow s
  else if (t.point p).state = .finishing then t.endSeries p
  else t

/-- NOZZLE_ON_HOOK (R32, R86). -/
def execNozzleOnHook (p : PointId) (s : State) : Result :=
  .next (if (s.coupler p).offHook then s.hangNozzle p else s)

/-! ### Tag reads (R30 to R39) -/

/-- A valid read, its hours and level taken where they are in range (R30). -/
def TagReply.read (x : TagReply) : ValidRead :=
  { tag := x.tag
    hours := (x.hours.filter fun h => decide (0 ≤ h) && decide (h ≤ 9999999)).map Int.toNat
    level := (x.level.filter fun l => decide (0 ≤ l) && decide (l ≤ 100)).map Int.toNat }

/-- The coupling after a valid read of `t` (R31). -/
def Coupling.onValid (c : Coupling) (t : TagId) : Coupling :=
  match c with
  | .uncoupled => .settling1 t
  | .settling1 u => if u = t then .settling2 t else .settling1 t
  | .settling2 u => if u = t then .coupled t 0 else .settling1 t
  | .coupled u _ => if u = t then .coupled t 0 else .settling1 t
  | .lost _ => .settling1 t

/-- The coupling after a failed read (R31). -/
def Coupling.onFailed : Coupling → Coupling
  | .uncoupled => .uncoupled
  | .settling1 _ => .uncoupled
  | .settling2 _ => .uncoupled
  | .coupled t n => if n < 2 then .coupled t (n + 1) else .lost t
  | .lost t => .lost t

def Coupling.isCoupled : Coupling → Bool
  | .coupled _ _ => true
  | _ => false

/-- Refuse an identification with ID_REFUSED (R34). -/
def State.refuseTag (s : State) (p : PointId) (reason : Reason) (t : TagId) (machine : Option Nat) : State :=
  (s.setRefusal p .refused (some reason) none (some t) machine).raise .idRefused

/-- An identification by tag (R34, R35). -/
def State.identifyTag (s : State) (p : PointId) (x : ValidRead) : State :=
  if (s.point p).mode = .repeatFill then s.refuseTag p .manualOnly x.tag none
  else
    match findTag s.roster x.tag with
    | none => s.refuseTag p .unknownTag x.tag none
    | some m =>
      if m.state ≠ .active then s.refuseTag p .machineSuspended x.tag (some m.number)
      else
        match
          s.authorise p { machine := m, ident := .tag x.tag, hours := x.hours, level := x.level, fill := 0 } with
        | .ok t => t.follow s
        | .error y =>
          (s.setRefusal p .refused (some y.reason) y.source (some x.tag) (some m.number)).raiseRefused y

/-- The coupling is reached again while the grace timer runs (R38). -/
def State.regain (s : State) (p : PointId) : State := (s.stopGrace p).lift p .couplingLost

/-- The coupling is reached (R33, R38): an identification at a CLOSED, unparked point, a regain of a tag delivery's own
identity, and otherwise nothing. -/
def State.couplingReached (s : State) (p : PointId) (x : ValidRead) : State :=
  match (s.point p).context with
  | none => if (s.point p).state = .closed ∧ ¬ (s.point p).parked then s.identifyTag p x else s
  | some d => if d.ident = .tag x.tag ∧ (s.coupler p).grace.isSome then s.regain p else s

/-- A valid read is of another identity than the tag delivery's (R39). -/
def State.otherTag (s : State) (p : PointId) (t : TagId) : Bool :=
  match (s.point p).context with
  | none => false
  | some d =>
    match d.ident with
    | .tag u => u != t
    | .manual => false

/-- A valid read (R30, R31, R33, R39). -/
def State.validRead (s : State) (p : PointId) (x : ValidRead) : State :=
  let old := s.coupler p
  let new := old.coupling.onValid x.tag
  let s :=
    s.setCoupler p { old with coupling := new, lastValid := some x, validCount := old.validCount + 1 }
  if s.otherTag p x.tag then (s.closeOn p .couplingChanged).follow s
  else if new.isCoupled ∧ ¬ old.coupling.isCoupled then s.couplingReached p x
  else s

/-- The coupling of a tag-identified delivery is lost (R37). -/
def State.couplingLost (s : State) (p : PointId) : State :=
  if (s.point p).state.unfinished then
    ((s.setCoupler p { s.coupler p with grace := some s.times.grace }).suspendFlow p .couplingLost).follow s
  else s

/-- The identity lost is that of the point's tag delivery. -/
def State.ownTag (s : State) (p : PointId) (t : TagId) : Bool :=
  (s.point p).context.any fun d => d.ident == .tag t

/-- A failed read (R30, R31, R37). -/
def State.failedRead (s : State) (p : PointId) : State :=
  let old := s.coupler p
  let new := old.coupling.onFailed
  let s := s.setCoupler p { old with coupling := new, failedCount := old.failedCount + 1 }
  match old.coupling, new with
  | .coupled t _, .lost _ => if s.ownTag p t then s.couplingLost p else s
  | _, _ => s

/-- TAG_READ, made while the nozzle is off hook (R30). -/
def execTagRead (p : PointId) (reply : Option TagReply) (s : State) : Result :=
  .next
    (if s.inReset ∨ ¬ (s.coupler p).offHook then s
    else
      match reply with
      | some x => s.validRead p (TagReply.read x)
      | none => s.failedRead p)

/-! ### Trigger (R74, R75, R80) -/

/-- A taken press (R75). -/
def State.takePress (s : State) (p : PointId) (d : Delivery) : State :=
  if d.within (s.point p).closeAhead then s.finish p d.limitCause
  else
    (s.setPoint p { s.point p with state := .waitSuction, pressWait := none }).fileRequest p d.current.comp

/-- A press at a point (R74): not remembered where it is not taken. -/
def State.press (s : State) (p : PointId) : State :=
  match (s.point p).context with
  | some d => if (s.point p).state.waitsForPress ∧ s.unblocked p then (s.takePress p d).follow s else s
  | none => s

/-- TRIGGER_PRESS (R74). -/
def execTriggerPress (p : PointId) (s : State) : Result :=
  .next
    (if (s.point p).trigger then s
    else
      let t := s.setPoint p { s.point p with trigger := true }
      if s.inReset then t else t.press p)

/-- A release in HOLD_TO_RUN (R80). -/
def State.letGo (s : State) (p : PointId) : State :=
  if (s.point p).mode = .holdToRun ∧ (s.point p).state.wantsFlow then (s.suspend p .triggerReleased).follow s else s

/-- TRIGGER_RELEASE (R80). -/
def execTriggerRelease (p : PointId) (s : State) : Result :=
  .next
    (if (s.point p).trigger then
      let t := s.setPoint p { s.point p with trigger := false }
      if s.inReset then t else t.letGo p
    else s)

/-! ### Pump sensing (R105, R109) -/

/-- The clear timer of a pump latched by a supply kind marked AUTO_CLEAR, as the supply moves (R102, R109). -/
def Pump.followSupply (x : Pump) (was : SupplySense) : Pump :=
  match x.state, x.latched with
  | .latched, some (k, true) =>
    if x.supply = .within then
      if was = .within then x else { x with clear := some (x.faults.get k).deglitch }
    else { x with clear := none }
  | _, _ => x

/-- PUMP_SENSE_CHANGE (R105). -/
def execPumpSenseChange (speed current : Nat) (supply : SupplySense) (s : State) : Result :=
  let x := { s.pump with speed := speed, current := current, supply := supply }
  .next (if s.inReset then s.setPump x else s.setPump (x.testAll.followSupply s.pump.supply))

/-- An overcurrent is acted on: the pump is driven, or another kind detected together with it was taken first and has
stopped the pump (R105; log entry 11). -/
def Pump.takesOvercurrent (x : Pump) : Bool := x.state.tests .overcurrent || x.state.blocks

/-- PUMP_OVERCURRENT: detected at once (R105). -/
def execPumpOvercurrent (s : State) : Result :=
  .next (if s.pump.takesOvercurrent then (s.detect .overcurrent).follow s else s)

/-! ### Probes and switches (R119, R141, R177) -/

/-- LEVEL_PROBE_READING: a valid reading clears the gauge fault noted mark (R119). -/
def execLevelProbeReading (c : CompId) (reading : Option ProbeReading) (s : State) : Result :=
  let t := { s with probes := s.probes.set c reading }
  .next
    (if reading.any ProbeReading.valid then t.modComp c fun x => { x with gaugeNoted := false } else t)

/-- HIGH_LEVEL_SWITCH: a change to active ends the LOADING of its compartment (R141). -/
def execHighLevelSwitch (c : CompId) (active : Bool) (s : State) : Result :=
  let was := s.loader.highLevel.get c
  let t := s.setLoader { s.loader with highLevel := s.loader.highLevel.set c active }
  .next (if active ∧ ¬ was ∧ t.loadingOn c ∧ ¬ s.inReset then t.stopLoading .highLevel else t)

/-- The calibration switch moves the account role (R181). -/
def State.switchRole (s : State) (closed : Bool) : State :=
  if closed then (if s.roles.requester = some .service then s.moveRole .service else s)
  else if s.roles.holder = .service then s.moveRole .office
  else s

/-- CALIBRATION_SWITCH_CHANGE (R177, R181). -/
def execCalibrationSwitchChange (closed : Bool) (s : State) : Result :=
  let t := s.setRoles { s.roles with calibration := closed }
  .next (if s.inReset ∨ s.roles.calibration = closed then t else t.switchRole closed)

end Sys2Proof.Machine
end

