-- ==== Sys2Proof/Machine/EvFrames.lean ====
section
/-! DEFINITION. Frame events that are no known command (R173 to R176). -/

namespace Sys2Proof.Machine

open Sys2Proof

/-- A frame reaches a port: an answer to it is queued behind the one being sent, or sent at once (R175). -/
def State.reply (s : State) (o : PortId) (x : Response) : State :=
  if (s.port o).sending.isSome then s.queueExtra o x else s.answer o x

/-- BAD_FRAME: a bad length or CRC, or a length that does not suit its command (R174). -/
def execBadFrame (port : PortId) (_ : FrameDefect) (s : State) : Result :=
  .next ((s.frameReceived port).reply port badFrameResponse)

/-- FRAME_TIMEOUT: a frame whose bytes stop for 100 ms is abandoned without a response; it is no frame received (R174).
Bytes of a frame not yet complete are no state (log entry 27). -/
def execFrameTimeout (_ : PortId) (s : State) : Result := .next s

/-- FRAME_WHILE_ANSWERING: BUSY with its own tag for a good frame, BAD_FRAME for a bad one, dropped where an extra response
is queued (R175). At a READY port there is no such event (log entry 3). -/
def execFrameWhileAnswering (port : PortId) (frame : ExtraFrame) (s : State) : Result :=
  .next
    (if (s.port port).sending.isSome then
      match frame with
      | .good tag code => (s.frameReceived port).queueExtra port ((Reply.of .busy).response tag code)
      | .bad _ => (s.frameReceived port).queueExtra port badFrameResponse
    else s)

/-- FRAME_DURING_RECOVERY: a good frame is answered BUSY (R173). Outside a reset there is no such event (log entry 3). -/
def execFrameDuringRecovery (r : Req) (code : Nat) (s : State) : Result :=
  .next
    (if s.power.state = .inReset then
      (s.frameReceived r.port).reply r.port ((Reply.of .busy).response r.tag code)
    else s)

/-- The response has been sent whole: READY, or the extra response is sent next (R175). -/
def State.responseSent (s : State) (o : PortId) : State :=
  if (s.port o).sending.isSome then s.setPort o { s.port o with sending := (s.port o).extra, extra := none } else s

/-- RESPONSE_SENT (R175). -/
def execResponseSent (port : PortId) (s : State) : Result := .next (s.responseSent port)

/-- UNKNOWN_COMMAND_CODE: a good frame answered BAD_PARAM (R174, R176). -/
def execUnknownCommandCode (r : Req) (code : Nat) (s : State) : Result :=
  .next (s.framed r code .anyPort State.badParam)

end Sys2Proof.Machine
end

