-- ==== Sys2Proof/Machine/EvPower.lean ====
section
/-! DEFINITION. Ignition, supply, resets and the recovery of interrupted work (R188 to R193). -/

namespace Sys2Proof.Machine

open Sys2Proof

/-! ### Ignition (R87, R188) -/

/-- Ignition off at a point (R87). -/
def State.ignitionEnds (s : State) (p : PointId) : State :=
  if (s.point p).state.unfinished then (s.endSeries p).finish p .ignitionOff else s

/-- RUN or WAKE_SETTLE into STANDBY (R188). -/
def State.standBy (s : State) : State := s.setPower { s.power with state := .standby, wake := none }

/-- IGNITION_OFF (R188). -/
def execIgnitionOff (s : State) : Result :=
  let t := s.setPower { s.power with ignition := false }
  .next
    (match s.power.state with
    | .run => ((t.standBy.ignitionEnds .a).ignitionEnds .b).follow s
    | .wakeSettle => ((t.standBy.ignitionEnds .a).ignitionEnds .b).follow s
    | .standby => t
    | .inReset => t)

/-- Into WAKE_SETTLE with the full wake settle time (R188, R189). -/
def State.wakeUp (s : State) : State :=
  s.setPower { s.power with state := .wakeSettle, wake := some s.power.wakeTime }

/-- IGNITION_ON (R188). -/
def execIgnitionOn (s : State) : Result :=
  let t := s.setPower { s.power with ignition := true }
  .next
    (match s.power.state with
    | .standby => t.wakeUp.follow s
    | .wakeSettle => t
    | .run => t
    | .inReset => t)

/-- WAKE_SETTLE_EXPIRY (R188). -/
def execWakeSettleExpiry (s : State) : Result :=
  .next
    (if s.power.wake.isSome ∧ s.power.state = .wakeSettle then
      (s.setPower { s.power with state := .run, wake := none }).follow s
    else s)

/-! ### Into reset (R190, R191) -/

/-- A coupler after every reset (R30); its hook line is an input. -/
def Coupler.reset (x : Coupler) : Coupler :=
  { coupling := .uncoupled, lastValid := none, validCount := 0, failedCount := 0, outcome := none, grace := none,
    offHook := x.offHook }

/-- A point after every reset (R66, R67): its context, settings, parked flag and mode are retained. -/
def Point.reset (x : Point) : Point :=
  { x with
    state := .closed, fastValve := false, slowValve := false, preset := none, pendingEnd := none,
    flowStarted := false, seriesEnds := false, fill := 0, lastClose := none, authTimer := none, pressWait := none,
    pumpSuspend := none, meterSettle := none }

/-- The arbiter after every reset (R94). -/
def Arbiter.reset (x : Arbiter) : Arbiter :=
  { Arbiter.factory with policy := x.policy, holdTime := x.holdTime, travelTime := x.travelTime }

/-- The pump after every reset (R102); its sensed inputs and settings are kept. -/
def Pump.reset (x : Pump) : Pump :=
  { Pump.factory with
    speed := x.speed, current := x.current, supply := x.supply, faults := x.faults, rampTime := x.rampTime,
    retryTime := x.retryTime, retryLimit := x.retryLimit }

/-- A compartment's volatile items after every reset (R114). -/
def Compartment.reset (x : Compartment) : Compartment :=
  { x with settle := none, gaugeNoted := false, lastRec := none }

/-- The load sequencer after every reset (R131, R148). -/
def Loader.reset (x : Loader) : Loader :=
  { x with
    paused := false, stageEmpty := false, lastResult := none, noFlow := none, settle := none,
    inlets := Quad.all false }

/-- A port after every reset: its pending set holds RESTARTED alone (R173, R182). -/
def Port.reset : Port :=
  { sending := none, extra := none, silence := 0, notices := Notice.restarted.flag, mask := BitVec.allOnes 25,
    enable := true, attention := true }

/-- Into reset: outputs safe, every timer stopped, volatile state as each chapter gives, retained memory kept (R191). -/
def State.enterReset (s : State) : State :=
  { s with
    channels :=
      { first := s.channels.first.reset, second := s.channels.second.reset, third := s.channels.third.reset }
    couplers := { a := s.couplers.a.reset, b := s.couplers.b.reset }
    points := { a := s.points.a.reset, b := s.points.b.reset }
    arbiter := s.arbiter.reset
    pump := s.pump.reset
    stock := s.stock.map fun x => x.map Compartment.reset
    loader := s.loader.reset
    journal := { s.journal with highMark := false }
    ports := { first := Port.reset, second := Port.reset, third := Port.reset }
    roles := { s.roles with holder := .office, requester := none, answer := none }
    watch := { s.watch with timer := none, silent := false, block := false }
    power := { s.power with state := .inReset, wake := none } }

/-- SUPPLY_FAIL: the windows in progress are flushed into their owners, the flush mark is set, and the part enters reset
(R23, R190). A pin asserted before it in the same reset no longer counts (log entry 6). -/
def execSupplyFail (probes : Triple (Option Int)) (s : State) : Result :=
  let t := ((s.endWindow .a probes.first).endWindow .b probes.second).endWindow .load probes.third
  .next (t.setPower { t.power with flushMark := true, pinSeen := false, supplyOut := true }).enterReset

/-- RESET_PIN: no flush; the pin counts where it is asserted while the supply is good (R191). -/
def execResetPin (s : State) : Result :=
  .next (s.setPower { s.power with pinSeen := !s.power.supplyOut }).enterReset

/-- POWER_ON: supply is applied (R191). THE MODEL'S CHOICE (log entry 6): a pin asserted before it in the same reset no longer
counts, the supply having been lost since. -/
def execPowerOn (s : State) : Result :=
  .next (s.setPower { s.power with pinSeen := false, supplyOut := false }).enterReset

/-! ### Out of reset (R164, R192, R193) -/

/-- The kind of the reset, decided on leaving it (R191; log entry 6). -/
def Power.kind (x : Power) : ResetKind :=
  if x.pinSeen then .resetPin else if x.flushMark then .supplyFail else .powerOn

/-- The clock on leaving reset (R164). -/
def State.testBackup (s : State) (held : Bool) : State :=
  let t := if held then s else s.setClock { s.clock with now := DateTime.epoch, valid := false }
  if t.clock.valid then t else t.raise .clockInvalid

/-- Recovery of the current load entry: whether a receipt close was made (R192, step 2). -/
def State.recoverEntry (s : State) : State × Bool :=
  match s.loader.current with
  | none => (s, false)
  | some e =>
    match e.context with
    | some x => (s.closeReceipt e x .restart true, true)
    | none => (s.dropEntry e .restart, false)

def State.openCount (s : State) : Nat := bit s.points.a.context.isSome + bit s.points.b.context.isSome

/-- The recovery of the deliveries, that of point A and then that of point B (R192, step 1). -/
def State.recoverDelivery (s : State) (p : PointId) : State := s.close p .restart true

/-- The recovery of interrupted work (R192). -/
def State.recover (s : State) : State :=
  let n := s.openCount
  let t := (s.recoverDelivery .a).recoverDelivery .b
  let u := t.recoverEntry.1.closePlan
  u.setPower { u.power with closedDeliveries := n, closedEntries := bit t.recoverEntry.2 }

/-- The recovery as far as `k`: each close is a retained update of its own (R192). -/
def State.recoverTo (s : State) : RecoveryPoint → State
  | .start => s
  | .pointA => s.recoverDelivery .a
  | .pointB => (s.recoverDelivery .a).recoverDelivery .b
  | .entry => ((s.recoverDelivery .a).recoverDelivery .b).recoverEntry.1
  | .plan => s.recover

/-- Every configured compartment starts its settle timer (R193). -/
def State.startAllSettle (s : State) : State :=
  { s with stock := s.stock.map fun x => x.map fun y => { y with settle := some s.stockSettle } }

/-- The power state on leaving reset (R189). -/
def State.setPowerState (s : State) : State := if s.power.ignition then s.wakeUp else s.standBy

/-- The end of the recovery, in the order of R193. The ports' silence is 0 since the reset. -/
def State.startBlocks (s : State) : State := ((s.testHighMark).startAllSettle.evaluateShift).setPowerState

/-- The part leaves reset: the kind is decided and the flush mark cleared, the clock is tested, and the pump's conditions
are tested as they now stand (R105, R164, R191). The supply is good: the part stays in reset until it is (R190). -/
def State.leaveReset (s : State) (held : Bool) : State :=
  let t :=
    s.setPower { s.power with lastReset := s.power.kind, flushMark := false, pinSeen := false, supplyOut := false }
  (t.setPump t.pump.testAll).testBackup held

/-- Out of reset. Where another reset falls into the recovery, what is closed stays closed, the rest stays open for the next
recovery, and the part is in reset again (R191 to R193; log entry 5). -/
def State.exitReset (s : State) (x : ResetExit) : State :=
  match x.cut with
  | none => (s.leaveReset x.backupHeld).recover.startBlocks
  | some k => ((s.leaveReset x.backupHeld).recoverTo k).enterReset

/-- RESET_EXIT (R192). -/
def execResetExit (x : ResetExit) (s : State) : Result := .next (if s.inReset then s.exitReset x else s)

end Sys2Proof.Machine
end

