-- ==== Sys2Proof/Machine/EvTimers.lean ====
section
/-! DEFINITION. The expiries of the part's timers, the selector's arrival and the clock's minute. A timer that is not running
has no expiry: such a row changes nothing (log entry 3). The row of a timer that runs is its expiry, whatever time was
left on it (log entry 32). -/

namespace Sys2Proof.Machine

open Sys2Proof

/-! ### Points (R38, R73, R79, R81, R82) -/

/-- A timer's expiry closes the delivery of a point, without FINISHING. -/
def State.expireClose (s : State) (p : PointId) (t : Timer) (cause : EndCause) : State :=
  if t.isSome then (s.closeOn p cause).follow s else s

/-- AUTH_TIMER_EXPIRY (R73). -/
def execAuthTimerExpiry (p : PointId) (s : State) : Result :=
  .next (s.expireClose p (s.point p).authTimer .authTimeout)

/-- PRESS_WAIT_EXPIRY (R81). -/
def execPressWaitExpiry (p : PointId) (s : State) : Result :=
  .next (s.expireClose p (s.point p).pressWait .triggerTimeout)

/-- PUMP_FAULT_SUSPEND_EXPIRY (R82). -/
def execPumpFaultSuspendExpiry (p : PointId) (s : State) : Result :=
  .next (s.expireClose p (s.point p).pumpSuspend .pumpFault)

/-- COUPLING_GRACE_EXPIRY (R38). -/
def execCouplingGraceExpiry (p : PointId) (s : State) : Result :=
  .next (s.expireClose p (s.coupler p).grace .couplingLost)

/-- METER_SETTLE_EXPIRY of a point in FINISHING (R79). -/
def execMeterSettleExpiry (p : PointId) (s : State) : Result :=
  .next
    (match (s.point p).pendingEnd with
    | some cause => s.expireClose p (s.point p).meterSettle cause
    | none => s)

/-! ### Suction (R98, R100) -/

/-- SELECTOR_ARRIVAL: the travel timer runs out (R98). -/
def execSelectorArrival (s : State) : Result :=
  .next
    (match s.arbiter.selector with
    | .moving c => (s.arrive c).follow s
    | .idle _ => s
    | .held _ => s)

/-- SUCTION_HOLD_EXPIRY (R100). -/
def execSuctionHoldExpiry (p : PointId) (s : State) : Result :=
  .next (if (s.arbiter.hold.get p).isSome then (s.setArbiter (s.arbiter.dropClaim p)).follow s else s)

/-! ### Pump (R103, R105 to R109) -/

/-- PUMP_RAMP_EXPIRY: RUNNING (R103). -/
def execPumpRampExpiry (s : State) : Result :=
  .next (if s.pump.state = .starting ∧ s.pump.ramp.isSome then (s.setPump s.pump.run).testNoFlow else s)

/-- FAULT_DEGLITCH_EXPIRY: a detection (R105). -/
def execFaultDeglitchExpiry (kind : FaultKind) (s : State) : Result :=
  .next (if (s.pump.deglitch.get kind).isSome then (s.detect kind).follow s else s)

/-- NO_FLOW_TIMER_EXPIRY: the detection of NO_FLOW (R106). -/
def execNoFlowTimerExpiry (s : State) : Result :=
  .next
    (if s.pump.noFlow.isSome then ((s.setPump { s.pump with noFlow := none }).detect .noFlow).follow s else s)

/-- RETRY_TIMER_EXPIRY (R108). -/
def execRetryTimerExpiry (s : State) : Result :=
  .next (if s.pump.state = .retryWait ∧ s.pump.retry.isSome then s.releasePump.follow s else s)

/-- CLEAN_RUN_EXPIRY clears the retry counter (R108). -/
def execCleanRunExpiry (s : State) : Result :=
  .next
    (if s.pump.cleanRun.isSome then s.setPump { s.pump with cleanRun := none, retryCount := 0 } else s)

/-- CLEAR_TIMER_EXPIRY takes the pump out of LATCHED (R109). -/
def execClearTimerExpiry (s : State) : Result :=
  .next (if s.pump.state = .latched ∧ s.pump.clear.isSome then s.releasePump.follow s else s)

/-! ### Console (R83, R185) -/

/-- The OPERATOR port is found silent (R185); in mode STOP the points are suspended and the flow block stands (R83). -/
def State.findSilent (s : State) : State :=
  let s := (s.setWatch { s.watch with timer := none, silent := true }).raise .consoleSilent
  match s.watch.mode with
  | .report => s
  | .stop =>
    ((s.setWatch { s.watch with block := true }).suspendFlow .a .consoleSilent).suspendFlow .b .consoleSilent

/-- CONSOLE_TIMER_EXPIRY (R185). An expiry that an OPERATOR frame has overtaken is spent without an effect: the frame was taken
first (R186; log entry 32). -/
def execConsoleTimerExpiry (s : State) : Result :=
  .next
    (if s.watch.overtaken ≠ 0 then s.setWatch { s.watch with overtaken := s.watch.overtaken - 1 }
    else if s.watch.timer.isSome then s.findSilent.follow s
    else s)

/-! ### Stock and loading (R126, R142, R145) -/

/-- STOCK_SETTLE_EXPIRY: a SETTLE reconciliation (R126). -/
def execStockSettleExpiry (c : CompId) (s : State) : Result :=
  .next
    (if (s.comp c).any fun x => x.settle.isSome then (s.stopSettle c).reconcile .settle c else s)

/-- LOAD_NO_FLOW_EXPIRY (R142). -/
def execLoadNoFlowExpiry (s : State) : Result :=
  .next (if s.loader.noFlow.isSome then s.stopLoading .supplyStopped else s)

/-- The SETTLING entry's receipt close, and the plan's going on (R145). -/
def State.endSettling (s : State) : State :=
  match s.loader.current with
  | some e =>
    match e.context with
    | some x =>
      match x.pendingEnd with
      | some cause => ((s.closeReceipt e x cause false).afterEntry).follow s
      | none => s
    | none => s
  | none => s

/-- LOAD_SETTLE_EXPIRY (R145). -/
def execLoadSettleExpiry (s : State) : Result := .next (if s.loader.settle.isSome then s.endSettling else s)

/-! ### Clock and roles (R163, R168, R180) -/

/-- CLOCK_MINUTE: the clock counts into :00 of the next minute, and a valid clock is evaluated outside the recovery (R163,
R168; log entry 22). -/
def execClockMinute (s : State) : Result :=
  .next (if s.inReset then s.passMinute else s.passMinute.evaluateShift)

/-- ROLE_ANSWER_TIMER_EXPIRY (R180). -/
def execRoleAnswerTimerExpiry (s : State) : Result :=
  .next (if s.roles.answer.isSome then s.denyRequest else s)

/-- ROLE_LAPSE: the holder's silence reaches the role lapse while a request is pending against an unprotected holder (R180;
log entry 19). -/
def execRoleLapse (s : State) : Result :=
  .next
    (if s.roles.requester.isSome ∧ ¬ s.holderProtected then
      let x := s.port s.roles.holder
      (s.setPort s.roles.holder { x with silence := max x.silence s.watch.lapse }).applyLapse
    else s)

end Sys2Proof.Machine
end

