-- ==== Sys2Proof/Machine/Dispatch.lean ====
section
/-! DEFINITION. The effect of a command on everything but the queue: one arm for each row of spec/opcode_table.json. -/

namespace Sys2Proof.Machine

open Sys2Proof

def exec (i : Instr) (s : State) : Host.Outcome State Fault Refusal :=
  match i with
  | .getStatus r sect => Sys2Proof.Machine.execGetStatus r sect s
  | .getMachine r key value => Sys2Proof.Machine.execGetMachine r key value s
  | .getAccount r account => Sys2Proof.Machine.execGetAccount r account s
  | .getStock r comp => Sys2Proof.Machine.execGetStock r comp s
  | .readJournal r start count => Sys2Proof.Machine.execReadJournal r start count s
  | .getNotices r => Sys2Proof.Machine.execGetNotices r s
  | .getTime r => Sys2Proof.Machine.execGetTime r s
  | .setNoticeMask r mask enable => Sys2Proof.Machine.execSetNoticeMask r mask enable s
  | .requestAccountRole r => Sys2Proof.Machine.execRequestAccountRole r s
  | .identifyManual r point machine hours => Sys2Proof.Machine.execIdentifyManual r point machine hours s
  | .setPreset r point kind value => Sys2Proof.Machine.execSetPreset r point kind value s
  | .stopPoint r point => Sys2Proof.Machine.execStopPoint r point s
  | .stopRepeat r point => Sys2Proof.Machine.execStopRepeat r point s
  | .setPointMode r point mode count => Sys2Proof.Machine.execSetPointMode r point mode count s
  | .parkPoint r point => Sys2Proof.Machine.execParkPoint r point s
  | .unparkPoint r point => Sys2Proof.Machine.execUnparkPoint r point s
  | .clearPumpFault r => Sys2Proof.Machine.execClearPumpFault r s
  | .openLoadPlan r docket => Sys2Proof.Machine.execOpenLoadPlan r docket s
  | .appendLoadEntry r comp target => Sys2Proof.Machine.execAppendLoadEntry r comp target s
  | .stopLoad r => Sys2Proof.Machine.execStopLoad r s
  | .closeLoadPlan r => Sys2Proof.Machine.execCloseLoadPlan r s
  | .setCompartmentService r comp service => Sys2Proof.Machine.execSetCompartmentService r comp service s
  | .reconcile r comp => Sys2Proof.Machine.execReconcile r comp s
  | .putMachine r m => Sys2Proof.Machine.execPutMachine r m s
  | .dropMachine r machine => Sys2Proof.Machine.execDropMachine r machine s
  | .putAccount r account code credit tier closed => Sys2Proof.Machine.execPutAccount r account code credit tier closed s
  | .creditAdjust r account credit reset => Sys2Proof.Machine.execCreditAdjust r account credit reset s
  | .putProduct r product code alpha points => Sys2Proof.Machine.execPutProduct r product code alpha points s
  | .stagePrices r choice prices => Sys2Proof.Machine.execStagePrices r choice prices s
  | .setLimitSettings r minimum cap => Sys2Proof.Machine.execSetLimitSettings r minimum cap s
  | .adjustStock r comp book => Sys2Proof.Machine.execAdjustStock r comp book s
  | .setStockLimits r comp reorder tolerance => Sys2Proof.Machine.execSetStockLimits r comp reorder tolerance s
  | .releaseThrough r seq => Sys2Proof.Machine.execReleaseThrough r seq s
  | .setTime r year month day hour minute second => Sys2Proof.Machine.execSetTime r year month day hour minute second s
  | .trimClock r => Sys2Proof.Machine.execTrimClock r s
  | .setShifts r starts => Sys2Proof.Machine.execSetShifts r starts s
  | .setSuctionPolicy r policy point => Sys2Proof.Machine.execSetSuctionPolicy r policy point s
  | .yieldAccountRole r => Sys2Proof.Machine.execYieldAccountRole r s
  | .denyAccountRole r => Sys2Proof.Machine.execDenyAccountRole r s
  | .setKFactor r channel k => Sys2Proof.Machine.execSetKFactor r channel k s
  | .setRatedFlow r channel maximum => Sys2Proof.Machine.execSetRatedFlow r channel maximum s
  | .setLinearisation r channel points => Sys2Proof.Machine.execSetLinearisation r channel points s
  | .setPointVolumes r point slowdown closeAhead => Sys2Proof.Machine.execSetPointVolumes r point slowdown closeAhead s
  | .setPointTimes r auth hold settle pump => Sys2Proof.Machine.execSetPointTimes r auth hold settle pump s
  | .setSuctionTimes r hold travel => Sys2Proof.Machine.execSetSuctionTimes r hold travel s
  | .setPumpFault r kind action deglitch th1 th2 => Sys2Proof.Machine.execSetPumpFault r kind action deglitch th1 th2 s
  | .setPumpRun r ramp retry limit => Sys2Proof.Machine.execSetPumpRun r ramp retry limit s
  | .configureCompartment r comp product capacity safeFill heel margin => Sys2Proof.Machine.execConfigureCompartment r comp product capacity safeFill heel margin s
  | .removeCompartment r comp => Sys2Proof.Machine.execRemoveCompartment r comp s
  | .setStrapping r comp points => Sys2Proof.Machine.execSetStrapping r comp points s
  | .setStockSettle r time => Sys2Proof.Machine.execSetStockSettle r time s
  | .setLoadSettings r closeAhead noFlow => Sys2Proof.Machine.execSetLoadSettings r closeAhead noFlow s
  | .setCouplingGrace r time => Sys2Proof.Machine.execSetCouplingGrace r time s
  | .setPortSupervision r timeout mode lapse => Sys2Proof.Machine.execSetPortSupervision r timeout mode lapse s
  | .setWakeSettle r time => Sys2Proof.Machine.execSetWakeSettle r time s
  | .badFrame port why => Sys2Proof.Machine.execBadFrame port why s
  | .frameTimeout port => Sys2Proof.Machine.execFrameTimeout port s
  | .frameWhileAnswering port frame => Sys2Proof.Machine.execFrameWhileAnswering port frame s
  | .frameDuringRecovery r code => Sys2Proof.Machine.execFrameDuringRecovery r code s
  | .responseSent port => Sys2Proof.Machine.execResponseSent port s
  | .unknownCommandCode r code => Sys2Proof.Machine.execUnknownCommandCode r code s
  | .meterPulse channel dir => Sys2Proof.Machine.execMeterPulse channel dir s
  | .meterWindowEnd channel probe => Sys2Proof.Machine.execMeterWindowEnd channel probe s
  | .nozzleOffHook p => Sys2Proof.Machine.execNozzleOffHook p s
  | .nozzleOnHook p => Sys2Proof.Machine.execNozzleOnHook p s
  | .tagRead p reply => Sys2Proof.Machine.execTagRead p reply s
  | .couplingGraceExpiry p => Sys2Proof.Machine.execCouplingGraceExpiry p s
  | .triggerPress p => Sys2Proof.Machine.execTriggerPress p s
  | .triggerRelease p => Sys2Proof.Machine.execTriggerRelease p s
  | .authTimerExpiry p => Sys2Proof.Machine.execAuthTimerExpiry p s
  | .pressWaitExpiry p => Sys2Proof.Machine.execPressWaitExpiry p s
  | .pumpFaultSuspendExpiry p => Sys2Proof.Machine.execPumpFaultSuspendExpiry p s
  | .meterSettleExpiry p => Sys2Proof.Machine.execMeterSettleExpiry p s
  | .selectorArrival => Sys2Proof.Machine.execSelectorArrival s
  | .suctionHoldExpiry p => Sys2Proof.Machine.execSuctionHoldExpiry p s
  | .pumpRampExpiry => Sys2Proof.Machine.execPumpRampExpiry s
  | .pumpSenseChange speed current supply => Sys2Proof.Machine.execPumpSenseChange speed current supply s
  | .faultDeglitchExpiry kind => Sys2Proof.Machine.execFaultDeglitchExpiry kind s
  | .pumpOvercurrent => Sys2Proof.Machine.execPumpOvercurrent s
  | .noFlowTimerExpiry => Sys2Proof.Machine.execNoFlowTimerExpiry s
  | .retryTimerExpiry => Sys2Proof.Machine.execRetryTimerExpiry s
  | .cleanRunExpiry => Sys2Proof.Machine.execCleanRunExpiry s
  | .clearTimerExpiry => Sys2Proof.Machine.execClearTimerExpiry s
  | .consoleTimerExpiry => Sys2Proof.Machine.execConsoleTimerExpiry s
  | .stockSettleExpiry c => Sys2Proof.Machine.execStockSettleExpiry c s
  | .levelProbeReading c reading => Sys2Proof.Machine.execLevelProbeReading c reading s
  | .highLevelSwitch c active => Sys2Proof.Machine.execHighLevelSwitch c active s
  | .loadNoFlowExpiry => Sys2Proof.Machine.execLoadNoFlowExpiry s
  | .loadSettleExpiry => Sys2Proof.Machine.execLoadSettleExpiry s
  | .clockMinute => Sys2Proof.Machine.execClockMinute s
  | .roleAnswerTimerExpiry => Sys2Proof.Machine.execRoleAnswerTimerExpiry s
  | .roleLapse => Sys2Proof.Machine.execRoleLapse s
  | .calibrationSwitchChange closed => Sys2Proof.Machine.execCalibrationSwitchChange closed s
  | .ignitionOff => Sys2Proof.Machine.execIgnitionOff s
  | .ignitionOn => Sys2Proof.Machine.execIgnitionOn s
  | .wakeSettleExpiry => Sys2Proof.Machine.execWakeSettleExpiry s
  | .supplyFail probes => Sys2Proof.Machine.execSupplyFail probes s
  | .resetPin => Sys2Proof.Machine.execResetPin s
  | .powerOn => Sys2Proof.Machine.execPowerOn s
  | .resetExit x => Sys2Proof.Machine.execResetExit x s

end Sys2Proof.Machine
end

