-- ==== Sys2Proof/Machine/Tick.lean ====
section
/-! DEFINITION. A tenth of a second passing: what the part does on an empty queue (log entries 1, 2). Every running timer
counts down, the ports' silences and the clock count up, and what falls due is put in the queue as its own row. -/

namespace Sys2Proof.Machine

open Sys2Proof

/-- A tenth of a second of a timer. -/
def tickTimer (t : Timer) : Timer := t.map fun n => n - 1

/-- A timer falls due at this tick. -/
def dueNow (t : Timer) (i : Instr) : List Instr := if t = some 1 then [i] else []

def PerFault.map {α β : Type} (f : α → β) (x : PerFault α) : PerFault β :=
  { stall := f x.stall, dryRun := f x.dryRun, noFlow := f x.noFlow, supplyLow := f x.supplyLow,
    supplyHigh := f x.supplyHigh, overcurrent := f x.overcurrent }

def Point.tick (x : Point) : Point :=
  { x with
    authTimer := tickTimer x.authTimer, pressWait := tickTimer x.pressWait, pumpSuspend := tickTimer x.pumpSuspend,
    meterSettle := tickTimer x.meterSettle }

def Coupler.tick (x : Coupler) : Coupler := { x with grace := tickTimer x.grace }

def Arbiter.tick (a : Arbiter) : Arbiter :=
  { a with hold := { a := tickTimer a.hold.a, b := tickTimer a.hold.b }, travel := tickTimer a.travel }

def Pump.tick (x : Pump) : Pump :=
  { x with
    deglitch := x.deglitch.map tickTimer, noFlow := tickTimer x.noFlow, cleanRun := tickTimer x.cleanRun,
    ramp := tickTimer x.ramp, retry := tickTimer x.retry, clear := tickTimer x.clear }

def Compartment.tick (x : Compartment) : Compartment := { x with settle := tickTimer x.settle }

def Port.tick (x : Port) : Port := { x with silence := addCapped Config.max32 x.silence 1 }

/-- The timers of one point that fall due. -/
def State.duePoint (s : State) (p : PointId) : List Instr :=
  let x := s.point p
  dueNow x.authTimer (.authTimerExpiry p) ++ dueNow x.pressWait (.pressWaitExpiry p) ++
  dueNow x.pumpSuspend (.pumpFaultSuspendExpiry p) ++ dueNow x.meterSettle (.meterSettleExpiry p) ++
  dueNow (s.coupler p).grace (.couplingGraceExpiry p)

def Pump.due (x : Pump) : List Instr :=
  dueNow x.ramp .pumpRampExpiry ++ dueNow x.deglitch.stall (.faultDeglitchExpiry .stall) ++
  dueNow x.deglitch.dryRun (.faultDeglitchExpiry .dryRun) ++
  dueNow x.deglitch.supplyLow (.faultDeglitchExpiry .supplyLow) ++
  dueNow x.deglitch.supplyHigh (.faultDeglitchExpiry .supplyHigh) ++ dueNow x.noFlow .noFlowTimerExpiry ++
  dueNow x.retry .retryTimerExpiry ++ dueNow x.cleanRun .cleanRunExpiry ++ dueNow x.clear .clearTimerExpiry

def State.dueSettle (s : State) (c : CompId) : List Instr :=
  dueNow ((s.comp c).bind fun x => x.settle) (.stockSettleExpiry c)

/-- The role lapse falls due: a pending request, and the holder's silence at or above the lapse (R180). -/
def State.dueLapse (s : State) : List Instr :=
  if s.roles.requester.isSome ∧ s.holderLapsed then [.roleLapse] else []

/-- What falls due at this tick but for the clock and the lapse, in a fixed order (log entry 2). -/
def State.dueTimers (s : State) : List Instr :=
  s.duePoint .a ++ s.duePoint .b ++ dueNow s.arbiter.travel .selectorArrival ++
  dueNow s.arbiter.hold.a (.suctionHoldExpiry .a) ++ dueNow s.arbiter.hold.b (.suctionHoldExpiry .b) ++ s.pump.due ++
  dueNow s.watch.timer .consoleTimerExpiry ++ Num4.all.flatMap s.dueSettle ++
  dueNow s.loader.noFlow .loadNoFlowExpiry ++ dueNow s.loader.settle .loadSettleExpiry ++
  dueNow s.roles.answer .roleAnswerTimerExpiry ++ dueNow s.power.wake .wakeSettleExpiry

/-- The clock's tenth: the one that counts into a minute is the row CLOCK_MINUTE (R163, R168). -/
def State.tickClock (s : State) : State :=
  if s.clock.now.atMinuteEnd then s else s.setClock { s.clock with now := s.clock.now.nextTenth }

def State.dueMinute (s : State) : List Instr := if s.clock.now.atMinuteEnd then [.clockMinute] else []

/-- Every timer and silence a tenth of a second on. -/
def State.tickTimers (s : State) : State :=
  { s with
    points := { a := s.points.a.tick, b := s.points.b.tick }
    couplers := { a := s.couplers.a.tick, b := s.couplers.b.tick }
    arbiter := s.arbiter.tick
    pump := s.pump.tick
    stock := s.stock.map fun x => x.map Compartment.tick
    loader := { s.loader with noFlow := tickTimer s.loader.noFlow, settle := tickTimer s.loader.settle }
    ports := { first := s.ports.first.tick, second := s.ports.second.tick, third := s.ports.third.tick }
    roles := { s.roles with answer := tickTimer s.roles.answer }
    watch := { s.watch with timer := tickTimer s.watch.timer }
    power := { s.power with wake := tickTimer s.power.wake } }

/-- A tenth of a second (log entry 1). In reset only the clock counts (R190, R192). -/
def State.tick (s : State) : State :=
  if s.inReset then { s.tickClock with pending := s.dueMinute }
  else
    let t := s.tickTimers.tickClock
    { t with pending := s.dueTimers ++ t.dueLapse ++ s.dueMinute }

end Sys2Proof.Machine
end

