-- ==== Sys2Proof/Safety.lean ====
section
/-! DEFINITION. What counts as a safe state of the part: its outputs agree with its states, its books agree with its open
work, and its journal is whole. Each is a property every step keeps and the reset state has; the statements about them are
in Sys2Proof/Certificates. -/

namespace Sys2Proof.Machine

open Sys2Proof

/-! ### Outputs -/

/-- The valves of a point agree with its state: the fast valve is open in FLOWING(FAST) alone, the slow valve in FLOWING
(R66, R77). -/
def Point.valvesAgree (x : Point) : Prop :=
  (x.fastValve = true ↔ x.state = .flowing .fast) ∧ (x.slowValve = true ↔ x.state.isFlowing = true)

def State.ValvesAgree (s : State) : Prop := s.points.a.valvesAgree ∧ s.points.b.valvesAgree

/-- The pump is driven in STARTING and RUNNING alone (R102). -/
def Pump.driveAgrees (x : Pump) : Prop := x.drive = true ↔ (x.state = .starting ∨ x.state = .running)

/-- In reset both points are CLOSED and the pump is not driven (R66, R102). -/
def State.ResetQuiet (s : State) : Prop :=
  s.power.state = .inReset → s.points.a.state = .closed ∧ s.points.b.state = .closed ∧ s.pump.drive = false

/-- The pump is driven only while the selector is HELD and a point is FLOWING on the held compartment (R103). -/
def State.PumpSafe (s : State) : Prop :=
  s.pump.driveAgrees ∧ (s.pump.drive = true → s.runCondition = true) ∧ s.ResetQuiet

/-- The selector motor is driven, and its travel timer runs, in MOVING alone (R94). -/
def State.SelectorAgrees (s : State) : Prop :=
  (s.arbiter.motor = true ↔ ∃ c, s.arbiter.selector = .moving c) ∧
    (s.arbiter.travel.isSome = true ↔ ∃ c, s.arbiter.selector = .moving c)

/-- The selector never holds a LOADING compartment, and an inlet valve is open only on one (R95, R132). -/
def State.InletsSafe (s : State) : Prop :=
  ∀ c,
    (s.arbiter.selector.holds c = true → ∀ x, s.comp c = some x → x.state ≠ .loading) ∧
      (s.loader.inlets.get c = true → ∃ x, s.comp c = some x ∧ x.state = .loading)

/-- A plan that is NONE has no current entry; an entry holds a load context exactly in LOADING and SETTLING (R131, R132); a
compartment is LOADING only for a current entry on it that holds one, and DRAINING only for a current entry on it (R114). -/
def State.LoadsAgree (s : State) : Prop :=
  (s.loader.state = .none → s.loader.current = none) ∧
    (∀ e, s.loader.current = some e →
      (e.context.isSome = true ↔ (e.state = .loading ∨ e.state = .settling))) ∧
    ∀ c x, s.comp c = some x →
      (x.state = .loading → ∃ e, s.loader.current = some e ∧ e.comp = c ∧ e.context.isSome = true) ∧
        (x.draining = true → ∃ e, s.loader.current = some e ∧ e.comp = c)

/-- A port's attention line follows its pending set, mask and global enable (R183). -/
def Port.lineAgrees (x : Port) : Prop := x.attention = (x.enable && (x.notices &&& x.mask != 0))

def State.LinesAgree (s : State) : Prop := ∀ o, (s.port o).lineAgrees

/-! ### Tables and journal -/

/-- The roster: ascending machine numbers, no tag identity twice, at most 512 records (R26). -/
def State.RosterOrdered (s : State) : Prop :=
  s.roster.Pairwise (fun x y => x.number < y.number ∧ ∀ t, x.tagId = some t → y.tagId ≠ some t) ∧
    s.roster.length ≤ Config.rosterSize

/-- The accounts: one record at most for each number (R45), kept in ascending order. -/
def State.AccountsOrdered (s : State) : Prop := s.accounts.Pairwise fun x y => x.number < y.number

/-- The stored records carry contiguous sequence numbers from oldest to newest (R151). -/
def Journal.contiguous (j : Journal) : Prop :=
  ∀ i r, j.records[i]? = some r → r.seq = j.oldest + BitVec.ofNat 32 i

/-- Every DELIVERY and CAN_FILL record bills its net centilitres at its locked price (R24). -/
def State.AmountsAgree (s : State) : Prop :=
  ∀ x ∈ s.journal.records, ∀ r, x.body = .delivery r → r.amount = (r.net * r.price + 500) / 1000

/-- A point has an open delivery exactly while it is not CLOSED; in reset a point is CLOSED and its context is what the
reset left (R66, R90). A plan that is NONE has no current entry (R131). -/
def State.WorkAgrees (s : State) : Prop :=
  (∀ p, s.inReset = false → ((s.point p).context.isSome = true ↔ (s.point p).state ≠ .closed)) ∧
    (∀ p, s.inReset = true → (s.point p).state = .closed) ∧
    (s.loader.state = .none → s.loader.current = none)

/-- The holders of journal slots: the open deliveries and the current load entry (R154). -/
def State.holders (s : State) : Nat :=
  bit s.points.a.context.isSome + bit s.points.b.context.isSome + bit s.loader.current.isSome

/-- Every holder holds one slot, and the slots never exceed 2,048 (R154). -/
def State.SlotsAgree (s : State) : Prop :=
  s.WorkAgrees ∧ s.journal.reserved = s.holders ∧ s.journal.occupied + s.journal.reserved ≤ Config.journalSize

/-! ### Reservations (R57) -/

/-- A figure of a point's open delivery, 0 where it has none or the test fails. -/
def State.figure (s : State) (p : PointId) (test : Delivery → Bool) (f : Delivery → Nat) : Nat :=
  match (s.point p).context with
  | some d => if test d then f d else 0
  | none => 0

/-- The sum of a figure over both points. -/
def State.openSum (s : State) (test : Delivery → Bool) (f : Delivery → Nat) : Nat :=
  s.figure .a test f + s.figure .b test f

/-- What an open delivery rests on: its machine, account and compartment have records, and its account reservation is that
of its limit at its locked price (R29, R57, R116). -/
def State.backed (s : State) (d : Delivery) : Prop :=
  (findMachine s.roster d.machine).isSome = true ∧ (findAccount s.accounts d.account).isSome = true ∧
    (s.comp d.current.comp).isSome = true ∧ d.reservation = reservationFor d.limit d.price

/-- The relations of R57 between the reserved sums and the open deliveries. -/
structure State.Reserved (s : State) : Prop where
  machines : ∀ m ∈ s.roster, m.reserved = s.openSum (fun d => d.machine == m.number) fun d => d.limit
  accounts : ∀ a ∈ s.accounts, a.reserved = s.openSum (fun d => d.account == a.number) fun d => d.reservation
  comps : ∀ c x, s.comp c = some x → x.reserved = s.openSum (fun d => d.current.comp == c) fun d => d.current.remaining

/-- The relations of R57 with what they rest on: the order of the tables, no machine open twice (R58), and the records
behind each open delivery. -/
structure State.BooksAgree (s : State) : Prop where
  work : s.WorkAgrees
  roster : s.RosterOrdered
  accounts : s.AccountsOrdered
  distinct : ∀ d e, s.points.a.context = some d → s.points.b.context = some e → d.machine ≠ e.machine
  backing : ∀ p d, (s.point p).context = some d → s.backed d
  reserved : s.Reserved

end Sys2Proof.Machine
end

