-- ==== Sys2Proof/Claims.lean ====
section
/-! DEFINITION. The words the statements are written in: how a command comes in and is answered, what the other blocks may
change in the step in which they follow, and how a delivery opens, finishes, suspends and closes. -/

namespace Sys2Proof.Machine

open Sys2Proof

/-- A notice stands in a port's pending set. -/
def Port.has (x : Port) (n : Notice) : Bool := x.notices.getLsbD n.bit

/-! ### What the blocks that follow may change -/

/-- How a point may move while the blocks follow: only a grant reaches it, and only in WAIT_SUCTION (R76, R98). -/
structure Point.MovesTo (x y : Point) : Prop where
  still : x.state ≠ .waitSuction → y = x
  kept :
    y = { x with
      state := y.state, fastValve := y.fastValve, slowValve := y.slowValve, pendingEnd := y.pendingEnd
      flowStarted := y.flowStarted, authTimer := y.authTimer, pressWait := y.pressWait, pumpSuspend := y.pumpSuspend
      meterSettle := y.meterSettle }
  state : y.state = x.state ∨ y.state = .finishing ∨ y.state.isFlowing = true

/-- What the sequencer may change of a compartment (R135, R139). -/
def Compartment.LoadsTo (x y : Compartment) : Prop :=
  y = { x with state := y.state, settle := y.settle, draining := y.draining } ∧
    (y.state = x.state ∨ y.state = .loading)

/-- What a binding may change of channel LOAD (R15). -/
def Channel.BindsTo (x y : Channel) : Prop :=
  y = { x with
    debt := y.debt, held := y.held, bound := y.bound, alpha := y.alpha, idle := y.idle
    idleNotified := y.idleNotified }

/-- `t` is `u` after the other blocks have followed: the sequencer promotes and starts (R135 to R139), the arbiter
releases, picks and grants (R97, R98, R100), the pump follows the run condition (R103, R106) and the console timer the
points (R185). Everything not named here is as it was. -/
structure State.FollowedBy (u t : State) : Prop where
  channelA : t.channels.first = u.channels.first
  channelB : t.channels.second = u.channels.second
  channelLoad : u.channels.third.BindsTo t.channels.third
  couplers : ∀ p, t.coupler p = { u.coupler p with grace := (t.coupler p).grace }
  couplersStill : ∀ p, (u.point p).state ≠ .waitSuction → t.coupler p = u.coupler p
  points : ∀ p, (u.point p).MovesTo (t.point p)
  arbiter :
    t.arbiter = { u.arbiter with
      selector := t.arbiter.selector, motor := t.arbiter.motor, waiting := t.arbiter.waiting
      admitted := t.arbiter.admitted, claims := t.arbiter.claims, hold := t.arbiter.hold, travel := t.arbiter.travel
      lastGranted := t.arbiter.lastGranted }
  noRequest :
    ∀ p, (u.point p).state ≠ .waitSuction → u.arbiter.waiting.get p = none → u.arbiter.admitted.get p = false →
      t.arbiter.waiting.get p = none ∧ t.arbiter.admitted.get p = false ∧
        t.arbiter.claims.get p = u.arbiter.claims.get p ∧ t.arbiter.hold.get p = u.arbiter.hold.get p
  pump :
    t.pump = { u.pump with
      state := t.pump.state, drive := t.pump.drive, deglitch := t.pump.deglitch, noFlow := t.pump.noFlow
      cleanRun := t.pump.cleanRun, ramp := t.pump.ramp, reported := t.pump.reported
      lowPresent := t.pump.lowPresent, highPresent := t.pump.highPresent }
  pumpStill : u.pump.state.blocks = true → t.pump = u.pump
  unconfigured : ∀ c, u.comp c = none → t.comp c = none
  comps : ∀ c x, u.comp c = some x → ∃ y, t.comp c = some y ∧ x.LoadsTo y
  loader :
    t.loader = { u.loader with
      state := t.loader.state, docket := t.loader.docket, current := t.loader.current, staged := t.loader.staged
      paused := t.loader.paused, stageEmpty := t.loader.stageEmpty, lastResult := t.loader.lastResult
      noFlow := t.loader.noFlow, settle := t.loader.settle, inlets := t.loader.inlets }
  journal :
    t.journal = { u.journal with reserved := t.journal.reserved, highMark := t.journal.highMark }
  ports :
    ∀ o, t.port o = { u.port o with notices := (t.port o).notices, attention := (t.port o).attention }
  notices : ∀ o n, n ≠ .loadStageEmpty → (u.port o).has n = true → (t.port o).has n = true
  watch : t.watch = { u.watch with timer := t.watch.timer }
  rest :
    t.roster = u.roster ∧ t.accounts = u.accounts ∧ t.products = u.products ∧ t.prices = u.prices ∧
      t.limits = u.limits ∧ t.times = u.times ∧ t.probes = u.probes ∧ t.stockSettle = u.stockSettle ∧
      t.clock = u.clock ∧ t.roles = u.roles ∧ t.power = u.power ∧ t.choices = u.choices ∧ t.pending = u.pending

/-- An event takes `s` to `u` by its own effect, and the other blocks then follow. -/
def Gives (i : Instr) (s u : State) : Prop := ∃ t, u.FollowedBy t ∧ exec i s = .next t

/-! ### A framed command and its answer (R173 to R178, 10.7) -/

/-- The frame, command code and access of each command row (10.7). A row that is no command has none. -/
def framing : Instr → Option (Req × Nat × Access)
  | .getStatus r _ => some (r, 0x01, .anyPort)
  | .getMachine r _ _ => some (r, 0x02, .anyPort)
  | .getAccount r _ => some (r, 0x03, .anyPort)
  | .getStock r _ => some (r, 0x04, .anyPort)
  | .readJournal r _ _ => some (r, 0x05, .anyPort)
  | .getNotices r => some (r, 0x06, .anyPort)
  | .getTime r => some (r, 0x07, .anyPort)
  | .setNoticeMask r _ _ => some (r, 0x08, .anyPort)
  | .requestAccountRole r => some (r, 0x09, .anyPort)
  | .identifyManual r _ _ _ => some (r, 0x10, .operate)
  | .setPreset r _ _ _ => some (r, 0x11, .operate)
  | .stopPoint r _ => some (r, 0x12, .operate)
  | .stopRepeat r _ => some (r, 0x13, .operate)
  | .setPointMode r _ _ _ => some (r, 0x14, .operate)
  | .parkPoint r _ => some (r, 0x15, .operate)
  | .unparkPoint r _ => some (r, 0x16, .operate)
  | .clearPumpFault r => some (r, 0x17, .operate)
  | .openLoadPlan r _ => some (r, 0x20, .operateOrAccount)
  | .appendLoadEntry r _ _ => some (r, 0x21, .operateOrAccount)
  | .stopLoad r => some (r, 0x22, .operateOrAccount)
  | .closeLoadPlan r => some (r, 0x23, .operateOrAccount)
  | .setCompartmentService r _ _ => some (r, 0x24, .operateOrAccount)
  | .reconcile r _ => some (r, 0x25, .operateOrAccount)
  | .putMachine r _ => some (r, 0x30, .account)
  | .dropMachine r _ => some (r, 0x31, .account)
  | .putAccount r _ _ _ _ _ => some (r, 0x32, .account)
  | .creditAdjust r _ _ _ => some (r, 0x33, .account)
  | .putProduct r _ _ _ _ => some (r, 0x34, .account)
  | .stagePrices r _ _ => some (r, 0x35, .account)
  | .setLimitSettings r _ _ => some (r, 0x36, .account)
  | .adjustStock r _ _ => some (r, 0x37, .account)
  | .setStockLimits r _ _ _ => some (r, 0x38, .account)
  | .releaseThrough r _ => some (r, 0x39, .account)
  | .setTime r _ _ _ _ _ _ => some (r, 0x3A, .account)
  | .trimClock r => some (r, 0x3B, .account)
  | .setShifts r _ => some (r, 0x3C, .account)
  | .setSuctionPolicy r _ _ => some (r, 0x3D, .account)
  | .yieldAccountRole r => some (r, 0x3E, .account)
  | .denyAccountRole r => some (r, 0x3F, .account)
  | .setKFactor r _ _ => some (r, 0x40, .calibrate)
  | .setRatedFlow r _ _ => some (r, 0x41, .calibrate)
  | .setLinearisation r _ _ => some (r, 0x42, .calibrate)
  | .setPointVolumes r _ _ _ => some (r, 0x43, .calibrate)
  | .setPointTimes r _ _ _ _ => some (r, 0x44, .calibrate)
  | .setSuctionTimes r _ _ => some (r, 0x45, .calibrate)
  | .setPumpFault r _ _ _ _ _ => some (r, 0x46, .calibrate)
  | .setPumpRun r _ _ _ => some (r, 0x47, .calibrate)
  | .configureCompartment r _ _ _ _ _ _ => some (r, 0x48, .calibrate)
  | .removeCompartment r _ => some (r, 0x49, .calibrate)
  | .setStrapping r _ _ => some (r, 0x4A, .calibrate)
  | .setStockSettle r _ => some (r, 0x4B, .calibrate)
  | .setLoadSettings r _ _ => some (r, 0x4C, .calibrate)
  | .setCouplingGrace r _ => some (r, 0x4D, .calibrate)
  | .setPortSupervision r _ _ _ => some (r, 0x4E, .calibrate)
  | .setWakeSettle r _ => some (r, 0x4F, .calibrate)
  | .badFrame _ _ | .frameTimeout _ | .frameWhileAnswering _ _ | .frameDuringRecovery _ _ | .responseSent _
  | .unknownCommandCode _ _ => none
  | .meterPulse _ _ | .meterWindowEnd _ _ | .nozzleOffHook _ | .nozzleOnHook _ | .tagRead _ _
  | .couplingGraceExpiry _ | .triggerPress _ | .triggerRelease _ | .authTimerExpiry _ | .pressWaitExpiry _
  | .pumpFaultSuspendExpiry _ | .meterSettleExpiry _ => none
  | .selectorArrival | .suctionHoldExpiry _ | .pumpRampExpiry | .pumpSenseChange _ _ _ | .faultDeglitchExpiry _
  | .pumpOvercurrent | .noFlowTimerExpiry | .retryTimerExpiry | .cleanRunExpiry | .clearTimerExpiry
  | .consoleTimerExpiry => none
  | .stockSettleExpiry _ | .levelProbeReading _ _ | .highLevelSwitch _ _ | .loadNoFlowExpiry | .loadSettleExpiry
  | .clockMinute | .roleAnswerTimerExpiry | .roleLapse | .calibrationSwitchChange _ => none
  | .ignitionOff | .ignitionOn | .wakeSettleExpiry | .supplyFail _ | .resetPin | .powerOn | .resetExit _ => none

/-- The port takes a command of this access: it is READY, the part is out of reset and recovery, and the port holds a role
for it. -/
abbrev State.takes (s : State) (r : Req) (a : Access) : Prop :=
  (s.port r.port).sending = none ∧ s.inReset = false ∧ s.mayUse r.port a = true

/-- The command is taken: its effect leaves `u`, and its port sends the answer. -/
def Answers (i : Instr) (s : State) (r : Req) (code : Nat) (u : State) (x : Reply) : Prop :=
  exec i s = .next (u.answer r.port (x.response r.tag code))

/-- As `Answers`, where the other blocks follow the command's own effect before the answer is sent. -/
def AnswersAfter (i : Instr) (s : State) (r : Req) (code : Nat) (u : State) (x : Reply) : Prop :=
  ∃ t, u.FollowedBy t ∧ exec i s = .next (t.answer r.port (x.response r.tag code))

/-- The account role has moved to `o` (R181): ROLE_CHANGED on every port, a pending request ended, with ROLE_DENIED on a
requester that did not receive the role. Silences apart, nothing else changes. -/
structure State.RoleMoves (s t : State) (o : PortId) : Prop where
  roles : t.roles = { s.roles with holder := o, requester := none, answer := none }
  changed :
    ∀ q, (t.port q).notices =
      (s.port q).notices ||| Notice.roleChanged.flag |||
        (if s.roles.requester = some q ∧ q ≠ o then Notice.roleDenied.flag else 0)
  ports :
    ∀ q, t.port q =
      { s.port q with
        notices := (t.port q).notices, attention := (t.port q).attention, silence := (t.port q).silence }
  rest : { t with roles := s.roles, ports := s.ports } = s

/-- The totalisers and their carries stay. -/
def Channel.KeepsTotals (x y : Channel) : Prop :=
  y.grossTotal = x.grossTotal ∧ y.grossCarry = x.grossCarry ∧ y.netTotal = x.netTotal ∧ y.netCarry = x.netCarry

/-- Each totaliser takes its increment of a window: the carry and the increment are added, the totaliser grows by the whole
centilitres of the sum and rolls over at 10,000,000,000, and the carry is what is left (R13). -/
def Channel.CountsTo (x y : Channel) (w : WindowResult) : Prop :=
  y.grossTotal = (x.grossTotal + (x.grossCarry + w.gross) / 10000) % 10000000000 ∧
    y.grossCarry = (x.grossCarry + w.gross) % 10000 ∧
    y.netTotal = (x.netTotal + (x.netCarry + w.net) / 10000) % 10000000000 ∧
    y.netCarry = (x.netCarry + w.net) % 10000

/-! ### A delivery's steps -/

/-- The conditions of an authorisation, each as R53 to R56 give it: what a point asks for (`r`), the account charged, the
compartment chosen, the limit with its source and the price locked. -/
structure State.Authorises (s : State) (p : PointId) (r : AuthRequest) (a : Account) (c : CompId) (limit : Nat)
    (source : LimitSource) (price : Nat) : Prop where
  run : s.power.state = .run
  free : s.machineBusy p r.machine.number = false
  permitted : (s.product r.machine.product).any (fun x => x.points.get p) = true
  account : findAccount s.accounts r.machine.account = some a
  opened : a.closed = false ∧ a.stopped = false
  comp : s.chooseComp r.machine.product = some c
  slot : s.journal.canReserve = true
  locked : price = s.priceOf r.machine.product a.tier
  least :
    (limit, source) = limitOf (limitTerms (s.point p).preset r a price (s.availableOn c) s.limits.manualCap)
  minimum : s.limits.minimum ≤ limit

/-- The authorisation of `r` is refused with a reason, the first of R53's checks that fails, BELOW_MINIMUM (R56) with its
limit source. An account without a record is refused as a closed one (log entry 26). -/
inductive State.Refuses (s : State) (p : PointId) (r : AuthRequest) : Reason → Option LimitSource → Prop where
  | standby : s.power.state ≠ .run → s.Refuses p r .standby none
  | machineBusy : s.power.state = .run → s.machineBusy p r.machine.number = true → s.Refuses p r .machineBusy none
  | product :
      s.power.state = .run → s.machineBusy p r.machine.number = false →
      (s.product r.machine.product).any (fun x => x.points.get p) = false → s.Refuses p r .productNotAtPoint none
  | closed :
      s.power.state = .run → s.machineBusy p r.machine.number = false →
      (s.product r.machine.product).any (fun x => x.points.get p) = true →
      (∀ a, findAccount s.accounts r.machine.account = some a → a.closed = true) →
      s.Refuses p r .accountClosed none
  | stopped (a : Account) :
      s.power.state = .run → s.machineBusy p r.machine.number = false →
      (s.product r.machine.product).any (fun x => x.points.get p) = true →
      findAccount s.accounts r.machine.account = some a → a.closed = false → a.stopped = true →
      s.Refuses p r .accountStopped none
  | noStock (a : Account) :
      s.power.state = .run → s.machineBusy p r.machine.number = false →
      (s.product r.machine.product).any (fun x => x.points.get p) = true →
      findAccount s.accounts r.machine.account = some a → a.closed = false → a.stopped = false →
      (∀ c x, s.comp c = some x → ¬ (x.state = .inService ∧ x.product = r.machine.product)) →
      s.Refuses p r .noStock none
  | journalFull (a : Account) (c : CompId) :
      s.power.state = .run → s.machineBusy p r.machine.number = false →
      (s.product r.machine.product).any (fun x => x.points.get p) = true →
      findAccount s.accounts r.machine.account = some a → a.closed = false → a.stopped = false →
      s.chooseComp r.machine.product = some c → s.journal.canReserve = false → s.Refuses p r .journalFull none
  | belowMinimum (a : Account) (c : CompId) (limit : Nat) (source : LimitSource) :
      s.power.state = .run → s.machineBusy p r.machine.number = false →
      (s.product r.machine.product).any (fun x => x.points.get p) = true →
      findAccount s.accounts r.machine.account = some a → a.closed = false → a.stopped = false →
      s.chooseComp r.machine.product = some c → s.journal.canReserve = true →
      (limit, source) =
        limitOf
          (limitTerms (s.point p).preset r a (s.priceOf r.machine.product a.tier) (s.availableOn c)
            s.limits.manualCap) →
      limit < s.limits.minimum → s.Refuses p r .belowMinimum (some source)

/-- What a successful authorisation leaves at its point: AUTHORISED with its context, the reservations, the bound channel
and the outcome (R56, R57, R73, R90). `s` is the state it was asked in. -/
structure State.Opened (s t : State) (p : PointId) (r : AuthRequest) (a : Account) (c : CompId) (limit : Nat)
    (source : LimitSource) (price : Nat) : Prop where
  state : (t.point p).state = .authorised
  timer : (t.point p).authTimer = some s.times.auth
  context :
    (t.point p).context =
      some
        { machine := r.machine.number, ident := r.ident, account := a.number, product := r.machine.product
          limit := limit, source := source, price := price, reservation := reservationFor limit price
          preset := (s.point p).preset, hours := r.hours, start := s.clock.now, startInvalid := !s.clock.valid
          gross_uL := 0, net_uL := 0, tempSum := 0, earlier := none
          current := { comp := c, net_uL := 0, remaining := limit }, flags := Flags.clear, fill := r.fill
          repeatCount := (s.point p).repeatCount, minimum := s.limits.minimum }
  machines :
    ∀ n, findMachine t.roster n =
      (findMachine s.roster n).map fun m => if n = r.machine.number then { m with reserved := limit } else m
  accounts :
    ∀ n, findAccount t.accounts n =
      (findAccount s.accounts n).map fun x =>
        if n = a.number then { x with reserved := x.reserved + reservationFor limit price } else x
  comps :
    ∀ d, (t.comp d).map (fun x => (x.book, x.reserved)) =
      (s.comp d).map fun x => (x.book, if d = c then x.reserved + limit else x.reserved)
  channel : (t.channel (channelFor p)).bound = true ∧
    (t.channel (channelFor p)).alpha = some (s.alphaOf r.machine.product)
  outcome : (t.coupler p).outcome.map (fun x => (x.status, x.machine)) = some (.ok, some r.machine.number)
  otherContext : (t.point p.other).context = (s.point p.other).context
  records : t.journal.records = s.journal.records
  kept : t.products = s.products ∧ t.prices = s.prices ∧ t.clock = s.clock ∧ t.power = s.power ∧ t.roles = s.roles

/-- A point has entered FINISHING (R79): valves closed, timers stopped but the meter settle timer, no request and no
claim; its delivery stays open as it was. -/
structure State.Finished (s t : State) (p : PointId) (cause : EndCause) : Prop where
  state : (t.point p).state = .finishing ∧ (t.point p).pendingEnd = some cause
  valves : (t.point p).fastValve = false ∧ (t.point p).slowValve = false
  timers :
    (t.point p).authTimer = none ∧ (t.point p).pressWait = none ∧ (t.point p).pumpSuspend = none ∧
      (t.point p).meterSettle = some s.times.meterSettle ∧ (t.coupler p).grace = none
  suction :
    t.arbiter.waiting.get p = none ∧ t.arbiter.admitted.get p = false ∧ t.arbiter.claims.get p = .none ∧
      t.arbiter.hold.get p = none
  context : (t.point p).context = (s.point p).context

/-- `w` wins a tie by the table of R97: A under FIXED, the other of the named point under LOWEST, and under ROTATE the other
of the last granted, or A where there is none. -/
structure Arbiter.WinsTie (a : Arbiter) (w : PointId) : Prop where
  fixed : a.policy = .fixed → w = .a
  lowest : ∀ q, a.policy = .lowest q → w = q.other
  rotate : a.policy = .rotate → (a.lastGranted = none → w = .a) ∧ ∀ q, a.lastGranted = some q → w = q.other

/-- A grant has taken a point into FLOWING (R76, R100): its stage by the slowdown volume, its valves open, its timers for the
wait stopped, and its claim flowing; its delivery `d` is as it was. -/
structure State.Flows (s t : State) (p : PointId) (d : Delivery) : Prop where
  state :
    (t.point p).state = .flowing (if d.limit ≤ cLof d.net_uL + (s.point p).slowdown then .slow else .fast)
  valves :
    (t.point p).slowValve = true ∧
      ((t.point p).fastValve = true ↔ ¬ d.limit ≤ cLof d.net_uL + (s.point p).slowdown)
  started : (t.point p).flowStarted = true ∧ (t.point p).authTimer = none ∧ (t.point p).pressWait = none
  claim : t.arbiter.claims.get p = .flowing ∧ t.arbiter.hold.get p = none ∧ t.arbiter.waiting.get p = none
  context : (t.point p).context = some d

/-- The summed rate of R106: the last rates of the channels of the points FLOWING on the held compartment. -/
def State.flowOnHeld (s : State) : Nat :=
  (if s.flowingOnHeld .a then (s.channel .a).lastRate else 0) + (if s.flowingOnHeld .b then (s.channel .b).lastRate else 0)

/-- The no-flow timer has followed the summed rate that stands in `t`, in RUNNING with the kind not OFF (R106, R110): below
the minimum rate it starts where it is stopped and nothing is reported, else it and the mark stay as `s` has them; at the
minimum rate it is stopped and the mark cleared. -/
structure State.NoFlowFollows (s t : State) : Prop where
  starts :
    s.pump.faults.noFlow.action ≠ .off → t.flowOnHeld < s.pump.faults.noFlow.first → s.pump.noFlow = none →
      s.pump.reported.noFlow = false → t.pump.noFlow = some s.pump.faults.noFlow.second
  stands :
    s.pump.faults.noFlow.action ≠ .off → t.flowOnHeld < s.pump.faults.noFlow.first →
      s.pump.noFlow.isSome = true ∨ s.pump.reported.noFlow = true →
        t.pump.noFlow = s.pump.noFlow ∧ t.pump.reported.noFlow = s.pump.reported.noFlow
  stops :
    s.pump.faults.noFlow.action ≠ .off → s.pump.faults.noFlow.first ≤ t.flowOnHeld →
      t.pump.noFlow = none ∧ t.pump.reported.noFlow = false

/-- The pump may run again (R82, R102, R108, R109): it has left RETRY_WAIT or LATCHED for STOPPED, from which it starts where
the run condition holds; a point suspended by its fault waits for a press. -/
structure State.Released (s t : State) : Prop where
  state :
    (t.pump.state = .stopped ∧ t.runCondition = false) ∨
      (t.pump.state = .starting ∧ t.pump.drive = true ∧ t.runCondition = true)
  latched : t.pump.latched = none ∧ t.pump.clear = none ∧ t.pump.retry = none
  points :
    ∀ p, (s.point p).state = .suspended .pumpFault →
      (t.point p).state = .suspended .triggerReleased ∧ (t.point p).pressWait = some s.times.holdToRun ∧
        (t.point p).context = (s.point p).context
  others : ∀ p, (s.point p).state ≠ .suspended .pumpFault → (s.point p).state ≠ .waitSuction → t.point p = s.point p

/-- A point has been suspended (R80 to R84): valves closed, request withdrawn, a flowing claim held or given up, and the
timer of the cause started; its delivery stays open as it was. -/
structure State.Suspended (s t : State) (p : PointId) (cause : Cause) : Prop where
  state : (t.point p).state = .suspended cause
  valves : (t.point p).fastValve = false ∧ (t.point p).slowValve = false
  pressWait :
    (t.point p).pressWait = if cause = .triggerReleased ∨ cause = .suctionLost then some s.times.holdToRun else none
  pumpSuspend : (t.point p).pumpSuspend = if cause = .pumpFault then some s.times.pumpSuspend else none
  suction :
    t.arbiter.waiting.get p = none ∧ t.arbiter.admitted.get p = false ∧ t.arbiter.claims.get p ≠ .flowing
  context : (t.point p).context = (s.point p).context

/-- The sequencer with its LOADING entry gone to SETTLING (R140 to R144): the inlet valve closed, the no-flow timer stopped,
the settle timer started and the end cause pending. -/
def Loader.settling (l : Loader) (e : Entry) (x : LoadContext) (cause : EndCause) (time : Nat) : Loader :=
  { l with
    current := some { e with state := .settling, context := some { x with pendingEnd := some cause } }
    noFlow := none, settle := some time, inlets := l.inlets.set e.comp false }

/-- Compartment `c` with record `x` has been reconciled on a trigger (R127): the outcome kept with its time, the VARIANCE
flag, the record and the notices as the outcome asks, GAUGE_INVALID only where its mark is clear; the book stays. -/
structure State.Reconciled (s t : State) (c : CompId) (x : Compartment) (k : Trigger) : Prop where
  noGauge :
    s.gauge c = none →
      t.comp c =
          some
            { x with
              gaugeNoted := true
              lastRec := some { trigger := k, outcome := .noGauge, variance := none, time := s.clock.now } } ∧
        t.journal = s.journal ∧ (x.gaugeNoted = false → (t.port .office).has .gaugeInvalid = true) ∧
        (x.gaugeNoted = true → t.ports = s.ports)
  within :
    ∀ g v, s.gauge c = some g → v = (g.net : Int) - (s.standingBook c : Int) → v.natAbs ≤ x.tolerance →
      t.comp c =
          some
            { x with
              variance := false
              lastRec := some { trigger := k, outcome := .inTolerance, variance := some v, time := s.clock.now } } ∧
        t.journal = s.journal ∧ t.ports = s.ports
  beyond :
    ∀ g v, s.gauge c = some g → v = (g.net : Int) - (s.standingBook c : Int) → x.tolerance < v.natAbs →
      t.comp c =
          some
            { x with
              variance := true
              lastRec := some { trigger := k, outcome := .outOfTolerance, variance := some v, time := s.clock.now } } ∧
        (t.port .office).has .stockVariance = true ∧
        (s.journal.hasRoom = false → t.journal = s.journal) ∧
        (s.journal.hasRoom = true →
          ∃ r y, t.journal.records = s.journal.records ++ [r] ∧ r.body = .reconcile y ∧ y.comp = c ∧
            y.variance = v ∧ y.standing = s.standingBook c ∧ y.gaugeNet = g.net ∧ y.trigger = k)
  others : ∀ d, d ≠ c → t.comp d = s.comp d
  rest : { t with stock := s.stock, journal := s.journal, ports := s.ports } = s

/-- The centilitres that a close charges to compartment `c` (R63): the first of two segments its own, the last the rest. -/
def Delivery.fallOn (d : Delivery) (c : CompId) : Nat :=
  (d.earlier.elim 0 fun e => if e.comp = c then cLof e.net_uL else 0) +
    if d.current.comp = c then cLof d.net_uL - d.earlier.elim 0 (fun e => cLof e.net_uL) else 0

/-- What an account has spent after the charge of `d` (R24, R63). -/
def Account.spentAfter (a : Account) (d : Delivery) : Nat :=
  min Config.spentMax (a.spent + billAmount (cLof d.net_uL) d.price)

/-- The figures of the tables, the stock and the shift tally that a delivery's release leaves, and, where it is not void, its
charge (R62, R63, R43): the account's stopped mark (R47), the fall of the book by each segment, held at 0 with VARIANCE
(R123), and the tally of its record (R158). -/
structure State.Settles (s t : State) (d : Delivery) (void : Bool) : Prop where
  machines :
    ∀ n, findMachine t.roster n =
      (findMachine s.roster n).map fun m =>
        if n ≠ d.machine then m
        else if void then { m with reserved := 0 }
        else
          { m with
            reserved := 0, shiftUsage := min Config.max32 (m.shiftUsage + cLof d.net_uL)
            dayUsage := min Config.max32 (m.dayUsage + cLof d.net_uL), lastHours := settledHours d.hours m.lastHours }
  accounts :
    ∀ n, (findAccount t.accounts n).map (fun x => (x.spent, x.reserved, x.credit, x.stopped)) =
      (findAccount s.accounts n).map fun x =>
        if n ≠ d.account then (x.spent, x.reserved, x.credit, x.stopped)
        else if void then (x.spent, x.reserved - d.reservation, x.credit, x.stopped)
        else
          (x.spentAfter d, x.reserved - d.reservation, x.credit,
            x.stopped || (x.credit != 0 && decide (x.credit ≤ x.spentAfter d)))
  stock :
    ∀ c, (t.comp c).map (fun x => (x.book, x.reserved, x.variance)) =
      (s.comp c).map fun x =>
        (x.book - (if void then 0 else d.fallOn c),
          if c = d.current.comp then x.reserved - d.current.remaining else x.reserved,
          x.variance || (!void && decide (x.book < d.fallOn c)))
  tally :
    t.journal.tally.first = s.journal.tally.first ∧ t.journal.tally.covered = s.journal.tally.covered ∧
      ∀ q,
        t.journal.tally.nets.get q =
            (if void = false ∧ q = d.product then min Config.max32 (s.journal.tally.nets.get q + cLof d.net_uL)
            else s.journal.tally.nets.get q) ∧
          t.journal.tally.counts.get q =
            if void = false ∧ q = d.product then min Config.max16 (s.journal.tally.counts.get q + 1)
            else s.journal.tally.counts.get q

/-- The notices of a charge: CREDIT_STOP where it sets an account's stopped mark (R47), STOCK_VARIANCE where a book falls
short (R123). -/
structure State.Warns (s t : State) (d : Delivery) : Prop where
  stop :
    ∀ a, findAccount s.accounts d.account = some a → a.stopped = false → a.credit ≠ 0 → a.credit ≤ a.spentAfter d →
      (t.port .operator).has .creditStop = true ∧ (t.port .office).has .creditStop = true
  short :
    ∀ c x, s.comp c = some x → x.book < d.fallOn c →
      (t.port .office).has .stockVariance = true ∧ (t.port .service).has .stockVariance = true

/-- The BOOK_NEGATIVE records `l` that the charge of `d` at `p` writes before the delivery's own (R123). -/
structure State.ShortRecords (s : State) (p : PointId) (d : Delivery) (l : List Record) : Prop where
  enough : (∀ c x, s.comp c = some x → d.fallOn c ≤ x.book) → l = []
  alone :
    d.earlier = none → s.journal.hasRoom = true → ∀ x, s.comp d.current.comp = some x → x.book < cLof d.net_uL →
      ∃ r, l = [r] ∧
        r.body =
          .bookNegative d.current.comp x.product p d.machine x.book (cLof d.net_uL) (cLof d.net_uL - x.book)
  each : ∀ r ∈ l, ∃ c q before charge, r.body = .bookNegative c q p d.machine before charge (charge - before)

/-- A close of `d` with a charge writes its record `r` as the newest, behind the BOOK_NEGATIVE records of the charge (R63,
R89, R123). -/
structure State.Records (s t : State) (p : PointId) (d : Delivery) (cause : EndCause) (recovered : Bool) (r : Record) :
    Prop where
  newest : ∃ l, t.journal.records = s.journal.records ++ l ++ [r] ∧ s.ShortRecords p d l
  time : r.time = s.clock.now
  body :
    r.body =
      .delivery
        (deliveryRecordOf p d cause
          ((findMachine s.roster d.machine).any fun m => hoursBackward d.hours m.lastHours) recovered)
  settles : s.Settles t d false

/-- A point has closed its delivery `d` (R88): CLOSED without a context, a preset or a fill, its channel unbound, and its
last close names the record or VOID. A close that is not void charges the delivery and writes its record as the newest; a
void one only releases. -/
structure State.Closes (s t : State) (p : PointId) (d : Delivery) (cause : EndCause) : Prop where
  state : (t.point p).state = .closed ∧ (t.point p).context = none ∧ (t.point p).preset = none ∧ (t.point p).fill = 0
  valves : (t.point p).fastValve = false ∧ (t.point p).slowValve = false
  timers :
    (t.point p).authTimer = none ∧ (t.point p).pressWait = none ∧ (t.point p).pumpSuspend = none ∧
      (t.point p).meterSettle = none ∧ (t.coupler p).grace = none
  suction :
    t.arbiter.waiting.get p = none ∧ t.arbiter.admitted.get p = false ∧ t.arbiter.claims.get p = .none
  channel : (t.channel (channelFor p)).bound = false ∧ (t.channel (channelFor p)).alpha = none
  void :
    d.isVoid cause = true →
      (t.point p).lastClose = some { seq := none, cause := cause } ∧ t.journal.records = s.journal.records ∧
        s.Settles t d true
  record :
    d.isVoid cause = false →
      ∃ r, s.Records t p d cause false r ∧ s.Warns t d ∧
        (t.point p).lastClose = some { seq := some r.seq, cause := cause }

/-- The part has gone into reset (R191): outputs safe, timers stopped, volatile state as each chapter gives, and the retained
store, the settings and the sensed lines as they were. -/
structure State.Resets (s t : State) : Prop where
  inReset : t.inReset = true
  points :
    ∀ p, t.point p =
      { s.point p with
        state := .closed, fastValve := false, slowValve := false, preset := none, pendingEnd := none
        flowStarted := false, seriesEnds := false, fill := 0, lastClose := none, authTimer := none
        pressWait := none, pumpSuspend := none, meterSettle := none }
  couplers :
    ∀ p, t.coupler p =
      { coupling := .uncoupled, lastValid := none, validCount := 0, failedCount := 0, outcome := none, grace := none
        offHook := (s.coupler p).offHook }
  channels :
    ∀ c, t.channel c =
      { s.channel c with
        forward := 0, reverse := 0, debt := 0, grossRem := 0, netRem := 0, lastRate := 0, held := none
        bound := false, alpha := none, idle := 0, idleNotified := false }
  arbiter :
    t.arbiter =
      { selector := .idle none, motor := false, waiting := { a := none, b := none }
        admitted := { a := false, b := false }, claims := { a := .none, b := .none }
        hold := { a := none, b := none }, travel := none, lastGranted := none, policy := s.arbiter.policy
        holdTime := s.arbiter.holdTime, travelTime := s.arbiter.travelTime }
  pump :
    t.pump =
      { s.pump with
        state := .stopped, drive := false, retryCount := 0, latched := none, lastFault := none
        deglitch := PerFault.all none, noFlow := none, cleanRun := none, ramp := none, retry := none, clear := none
        reported := PerFault.all false, lowPresent := false, highPresent := false }
  comps : ∀ c, t.comp c = (s.comp c).map fun x => { x with settle := none, gaugeNoted := false, lastRec := none }
  loader :
    t.loader =
      { s.loader with
        paused := false, stageEmpty := false, lastResult := none, noFlow := none, settle := none
        inlets := Quad.all false }
  journal : t.journal = { s.journal with highMark := false }
  ports :
    ∀ o, t.port o =
      { sending := none, extra := none, silence := 0, notices := Notice.restarted.flag, mask := BitVec.allOnes 25
        enable := true, attention := true }
  roles : t.roles = { s.roles with holder := .office, requester := none, answer := none }
  watch : t.watch = { s.watch with timer := none, silent := false, block := false }
  power :
    t.power =
      { s.power with
        state := .inReset, wake := none, flushMark := t.power.flushMark, pinSeen := t.power.pinSeen
        supplyOut := t.power.supplyOut }
  rest :
    t.roster = s.roster ∧ t.accounts = s.accounts ∧ t.products = s.products ∧ t.prices = s.prices ∧
      t.limits = s.limits ∧ t.times = s.times ∧ t.probes = s.probes ∧ t.stockSettle = s.stockSettle ∧
      t.clock = s.clock ∧ t.choices = s.choices ∧ t.pending = s.pending

/-! ### The recovery of interrupted work (R192, R193) -/

/-- Step 1 of the recovery for point `p`: nothing where no delivery is open, and else its close with end cause RESTART and
flag RECOVERED: charged, with its record and DELIVERY_CLOSED, or void, with DELIVERY_VOID and its slot back. -/
structure State.RecoversDelivery (s t : State) (p : PointId) : Prop where
  idle : (s.point p).context = none → t = s
  closed :
    ∀ d, (s.point p).context = some d →
      (t.point p).state = .closed ∧ (t.point p).context = none ∧ t.journal.reserved = s.journal.reserved - 1
  void :
    ∀ d, (s.point p).context = some d → cLof d.net_uL = 0 →
      t.journal.records = s.journal.records ∧ s.Settles t d true ∧
        (t.point p).lastClose = some { seq := none, cause := .restart } ∧
        (t.port .operator).has .deliveryVoid = true ∧ (t.port .office).has .deliveryVoid = true
  record :
    ∀ d, (s.point p).context = some d → 0 < cLof d.net_uL →
      ∃ r, s.Records t p d .restart true r ∧ s.Warns t d ∧
        (t.point p).lastClose = some { seq := some r.seq, cause := .restart } ∧
        (t.port .operator).has .deliveryClosed = true ∧ (t.port .office).has .deliveryClosed = true
  other : t.point p.other = s.point p.other
  notices : ∀ o n, (s.port o).has n = true → (t.port o).has n = true
  comps : ∀ c, (t.comp c).map (fun x => (x.state, x.draining)) = (s.comp c).map fun x => (x.state, x.draining)
  kept : t.loader = s.loader ∧ t.clock = s.clock ∧ t.prices = s.prices

/-- Step 2 of the recovery: an entry that was LOADING or SETTLING gets its receipt close with end cause RESTART and flag
RECOVERED, and LOAD_DONE; one that was DUE or WAITING ends without a receipt or a notice. -/
structure State.RecoversEntry (s t : State) : Prop where
  idle : s.loader.current = none → t = s
  ended :
    ∀ e, s.loader.current = some e → t.loader.current = none ∧ t.journal.reserved = s.journal.reserved - 1
  receipt :
    ∀ e x before, s.loader.current = some e → e.context = some x →
      before = (s.comp e.comp).elim 0 (fun y => y.book) →
        ∃ r after, after = min Config.bookMax (before + cLof x.net_uL) ∧
          t.journal.records = s.journal.records ++ [r] ∧ r.time = s.clock.now ∧
          r.body = .receipt (receiptOf e x before after .restart true) ∧
          t.loader.lastResult = some { seq := some r.seq, comp := e.comp, cause := .restart } ∧
          (t.port .operator).has .loadDone = true ∧ (t.port .office).has .loadDone = true ∧
          (t.comp e.comp).map (fun y => (y.book, y.reserved, y.state, y.draining)) =
            (s.comp e.comp).map fun y => (after, y.reserved, .inService, false)
  dropped :
    ∀ e, s.loader.current = some e → e.context = none →
      t.journal.records = s.journal.records ∧ t.ports = s.ports ∧
        t.comp e.comp = (s.comp e.comp).map fun y => { y with draining := false }
  others : ∀ c, (∀ e, s.loader.current = some e → e.comp ≠ c) → t.comp c = s.comp c
  notices : ∀ o n, (s.port o).has n = true → (t.port o).has n = true
  kept :
    t.roster = s.roster ∧ t.accounts = s.accounts ∧ t.points = s.points ∧ t.clock = s.clock ∧
      t.journal.tally = s.journal.tally

/-- Step 3 of the recovery: the staged entries are discarded and the plan is NONE. -/
structure State.DropsPlan (s t : State) : Prop where
  plan : t.loader.state = .none ∧ t.loader.current = s.loader.current ∧ t.loader.staged = []
  notices : ∀ o n, n ≠ .loadStageEmpty → (s.port o).has n = true → (t.port o).has n = true
  rest : t = { s with loader := t.loader, ports := t.ports, power := t.power }

/-- The recovery as far as `k` takes `s` to `t`: point A, point B, the load entry and the plan, in this order. -/
def State.RecoversTo (s t : State) : RecoveryPoint → Prop
  | .start => t = s
  | .pointA => s.RecoversDelivery t .a
  | .pointB => ∃ m, s.RecoversDelivery m .a ∧ m.RecoversDelivery t .b
  | .entry => ∃ m n, s.RecoversDelivery m .a ∧ m.RecoversDelivery n .b ∧ n.RecoversEntry t
  | .plan =>
    ∃ m n v, s.RecoversDelivery m .a ∧ m.RecoversDelivery n .b ∧ n.RecoversEntry v ∧ v.DropsPlan t

/-- The end of the recovery (R193): it changes no reservation, no book and no delivery; the records of a rollover stand
behind those of the recovery, and where the shift identity does not change there are none. -/
structure State.StartsBlocks (s t : State) : Prop where
  machines :
    ∀ n, (findMachine t.roster n).map (fun m => (m.reserved, m.lastHours)) =
      (findMachine s.roster n).map fun m => (m.reserved, m.lastHours)
  comps :
    ∀ c, (t.comp c).map (fun x => (x.book, x.reserved, x.state, x.draining)) =
      (s.comp c).map fun x => (x.book, x.reserved, x.state, x.draining)
  records : ∃ l, t.journal.records = s.journal.records ++ l
  notices : ∀ o n, (s.port o).has n = true → (t.port o).has n = true
  still :
    s.clock.valid = false ∨ shiftAt s.clock.shifts s.clock.now = s.clock.shift →
      t.roster = s.roster ∧ t.journal.records = s.journal.records ∧ t.journal.tally = s.journal.tally
  kept :
    t.accounts = s.accounts ∧ t.points = s.points ∧ t.loader = s.loader ∧ t.journal.reserved = s.journal.reserved

/-! ### What falls due, and what follows an entry -/

/-- What falls due in a tenth of a second outside a reset (log entries 1, 2): the timers with one tenth left, the clock's
minute, and the lapse of a holder whose silence reaches it while a request is pending (R180). -/
def State.fallsDue (s : State) (i : Instr) : Prop :=
  (∃ p,
    (i = .authTimerExpiry p ∧ (s.point p).authTimer = some 1) ∨
      (i = .pressWaitExpiry p ∧ (s.point p).pressWait = some 1) ∨
      (i = .pumpFaultSuspendExpiry p ∧ (s.point p).pumpSuspend = some 1) ∨
      (i = .meterSettleExpiry p ∧ (s.point p).meterSettle = some 1) ∨
      (i = .couplingGraceExpiry p ∧ (s.coupler p).grace = some 1) ∨
      (i = .suctionHoldExpiry p ∧ s.arbiter.hold.get p = some 1)) ∨
  (i = .selectorArrival ∧ s.arbiter.travel = some 1) ∨ (i = .pumpRampExpiry ∧ s.pump.ramp = some 1) ∨
  (∃ k, k ≠ .noFlow ∧ k ≠ .overcurrent ∧ i = .faultDeglitchExpiry k ∧ s.pump.deglitch.get k = some 1) ∨
  (i = .noFlowTimerExpiry ∧ s.pump.noFlow = some 1) ∨ (i = .retryTimerExpiry ∧ s.pump.retry = some 1) ∨
  (i = .cleanRunExpiry ∧ s.pump.cleanRun = some 1) ∨ (i = .clearTimerExpiry ∧ s.pump.clear = some 1) ∨
  (i = .consoleTimerExpiry ∧ s.watch.timer = some 1) ∨
  (∃ c x, i = .stockSettleExpiry c ∧ s.comp c = some x ∧ x.settle = some 1) ∨
  (i = .loadNoFlowExpiry ∧ s.loader.noFlow = some 1) ∨ (i = .loadSettleExpiry ∧ s.loader.settle = some 1) ∨
  (i = .roleAnswerTimerExpiry ∧ s.roles.answer = some 1) ∨ (i = .wakeSettleExpiry ∧ s.power.wake = some 1) ∨
  (i = .roleLapse ∧ s.roles.requester.isSome = true ∧
    ¬ (s.roles.holder = .service ∧ s.roles.calibration = true) ∧
    s.watch.lapse ≤ min Config.max32 ((s.port s.roles.holder).silence + 1)) ∨
  (i = .clockMinute ∧ s.clock.now.second = 59 ∧ s.clock.now.tenth = 9)

/-- The head staged entry `h`, with `rest` behind it, has been promoted after an entry ended (R135, R137 to R139): DUE on an
out-of-service compartment, WAITING on one a delivery draws on, and LOADING on a free one with ullage. `w` is its
compartment's record as the ended entry left it, and `s` the state before. -/
structure State.Promotes (s t : State) (h : Staged) (rest : List Staged) (w : Compartment) : Prop where
  due :
    w.state = .outOfService →
      t.loader.current = some { comp := h.comp, target := h.target, state := .due, context := none } ∧
        t.loader.staged = rest ∧ t.comp h.comp = some { w with draining := true }
  waits :
    w.state ≠ .outOfService → s.segmentOn h.comp = true →
      t.loader.current = some { comp := h.comp, target := h.target, state := .waiting, context := none } ∧
        t.loader.staged = rest ∧ t.comp h.comp = some { w with draining := true }
  starts :
    w.state ≠ .outOfService → s.segmentOn h.comp = false → s.arbiter.selector.holds h.comp = false →
      (100 : Int) ≤ w.ullage → s.loader.closeAhead < (h.target.used w.ullage.toNat).1 →
      s.loader.highLevel.get h.comp = false →
        t.loader.staged = rest ∧ t.comp h.comp = some { w with draining := true, state := .loading, settle := none } ∧
          t.loader.inlets.get h.comp = true ∧ t.channels.third.bound = true ∧
          ∃ f y, t.loader.current = some f ∧ f.comp = h.comp ∧ f.target = h.target ∧ f.state = .loading ∧
            f.context = some y ∧ y.product = w.product ∧ y.used = (h.target.used w.ullage.toNat).1 ∧ y.net_uL = 0

end Sys2Proof.Machine
end

