-- ==== Sys2Proof/Certificates/Slice0/Obligations.lean ====
section
/-! DEFINITION. The statements for the provers, one `def Obligations.<Name> : Prop` each. Where a statement rests on a choice
of the model, its docstring names the log entry. `u` is the state in which the frame has been received: its port's silence
is 0, and an OPERATOR frame has been console traffic (R174, R186; see FramesAreHeardAndAnswered). -/

open Sys2Proof Sys2Proof.Machine

/-! ### The queue and the whole machine -/

/-- With a command at the front of its queue, a step is that command's effect on the state with the queue's rest. -/
def Obligations.StepTakesTheFront : Prop :=
  ∀ (c : Instr) (rest : List Instr) (s : State),
    step { s with pending := c :: rest } = exec c { s with pending := rest }

/-- With nothing waiting, a step is a tenth of a second: every running timer and the silences move by one tenth, the clock
counts, what falls due is queued, each as its own row once and nothing besides, and nothing else changes. THE MODEL'S
CHOICE (log entries 1, 2): the table has no row for time. In reset only the clock counts (R190, R192). -/
def Obligations.EmptyQueueIsATenth : Prop :=
  ∀ s : State, s.pending = [] →
    ∃ t, step s = .next t ∧
      (s.inReset = true →
        t = { s with clock := t.clock, pending := t.pending } ∧
          ∀ i, i ∈ t.pending ↔ (i = .clockMinute ∧ s.clock.now.second = 59 ∧ s.clock.now.tenth = 9)) ∧
      (s.inReset = false →
        (∀ p,
          t.point p =
            { s.point p with
              authTimer := (s.point p).authTimer.map fun n => n - 1
              pressWait := (s.point p).pressWait.map fun n => n - 1
              pumpSuspend := (s.point p).pumpSuspend.map fun n => n - 1
              meterSettle := (s.point p).meterSettle.map fun n => n - 1 }) ∧
        (∀ p, t.coupler p = { s.coupler p with grace := (s.coupler p).grace.map fun n => n - 1 }) ∧
        (∀ o, t.port o = { s.port o with silence := min Config.max32 ((s.port o).silence + 1) }) ∧
        (∀ c, t.comp c = (s.comp c).map fun x => { x with settle := x.settle.map fun n => n - 1 }) ∧
        t.arbiter =
          { s.arbiter with
            hold := { a := s.arbiter.hold.a.map fun n => n - 1, b := s.arbiter.hold.b.map fun n => n - 1 }
            travel := s.arbiter.travel.map fun n => n - 1 } ∧
        (∀ k, t.pump.deglitch.get k = (s.pump.deglitch.get k).map fun n => n - 1) ∧
        t.pump =
          { s.pump with
            deglitch := t.pump.deglitch
            noFlow := s.pump.noFlow.map fun n => n - 1, cleanRun := s.pump.cleanRun.map fun n => n - 1
            ramp := s.pump.ramp.map fun n => n - 1, retry := s.pump.retry.map fun n => n - 1
            clear := s.pump.clear.map fun n => n - 1 } ∧
        t.loader =
          { s.loader with
            noFlow := s.loader.noFlow.map fun n => n - 1, settle := s.loader.settle.map fun n => n - 1 } ∧
        t.watch = { s.watch with timer := s.watch.timer.map fun n => n - 1 } ∧
        t.roles = { s.roles with answer := s.roles.answer.map fun n => n - 1 } ∧
        t.power = { s.power with wake := s.power.wake.map fun n => n - 1 } ∧
        (∀ i, i ∈ t.pending ↔ s.fallsDue i) ∧ t.pending.Nodup ∧
        t.channels = s.channels ∧ t.roster = s.roster ∧ t.accounts = s.accounts ∧ t.products = s.products ∧
        t.prices = s.prices ∧ t.limits = s.limits ∧ t.times = s.times ∧ t.probes = s.probes ∧
        t.stockSettle = s.stockSettle ∧ t.journal = s.journal ∧ t.choices = s.choices) ∧
      (s.clock.now.second = 59 ∧ s.clock.now.tenth = 9 → t.clock = s.clock) ∧
      (¬ (s.clock.now.second = 59 ∧ s.clock.now.tenth = 9) →
        t.clock = { s.clock with now := s.clock.now.nextTenth })

/-- Every row of the table has an effect in every state: none faults and none is refused by the model. -/
def Obligations.EveryRowIsTaken : Prop := ∀ (i : Instr) (s : State), ∃ t : State, exec i s = .next t

/-- A command row that its port takes (READY, out of reset, a role for it) is answered on its port; with a status other
than OK and ACCEPTED it changes nothing but what every frame changes. IDENTIFY_MANUAL, whose refusals are also the point's
last identification outcome (R41), is left to ManualIdentificationRefused. -/
def Obligations.ErrorsChangeNothing : Prop :=
  ∀ (i : Instr) (r : Req) (code : Nat) (a : Access) (s : State), framing i = some (r, code, a) → s.takes r a →
    (∀ p m h, i ≠ .identifyManual r p m h) →
      ∃ u x, Answers i s r code u x ∧ (x.status ≠ .ok → x.status ≠ .accepted → u = s.frameReceived r.port)

/-- A command from a port that holds none of its roles, for every command row: WRONG_ROLE is the answer, the notice
WRONG_ROLE is raised on that port alone, and nothing else changes but what every frame changes: of its port, only the
silence, the answer, the notice and the attention line. -/
def Obligations.WrongRoleHasNoAction : Prop :=
  ∀ (i : Instr) (r : Req) (code : Nat) (a : Access) (s : State), framing i = some (r, code, a) →
    (s.port r.port).sending = none → s.inReset = false → s.mayUse r.port a = false →
      ∃ t : State, exec i s = .next t ∧
        t.port r.port =
          { s.port r.port with
            silence := 0, sending := some ((Reply.of .wrongRole).response r.tag code)
            notices := (s.port r.port).notices ||| Notice.wrongRole.flag
            attention :=
              (s.port r.port).enable &&
                (((s.port r.port).notices ||| Notice.wrongRole.flag) &&& (s.port r.port).mask != 0) } ∧
        (∀ o, o ≠ r.port → t.port o = s.port o) ∧
        { t with ports := s.ports } = { s.frameReceived r.port with ports := s.ports }

/-- A command row at a port that is ANSWERING is not taken: a BUSY with its own tag is queued behind the response being
sent, or dropped where an extra response is queued. While the part is in reset or recovering, a READY port answers BUSY.
That BUSY in reset is also sent for a command row is the model's choice (log entry 20). -/
def Obligations.BusyIsAnswered : Prop :=
  ∀ (i : Instr) (r : Req) (code : Nat) (a : Access) (s u : State), framing i = some (r, code, a) →
    u = s.frameReceived r.port →
      ((s.port r.port).sending.isSome = true → (s.port r.port).extra = none →
        exec i s =
          .next
            (u.setPort r.port { u.port r.port with extra := some ((Reply.of .busy).response r.tag code) })) ∧
      ((s.port r.port).sending.isSome = true → (s.port r.port).extra.isSome = true → exec i s = .next u) ∧
      ((s.port r.port).sending = none → s.inReset = true →
        exec i s =
          .next
            (u.setPort r.port { u.port r.port with sending := some ((Reply.of .busy).response r.tag code) }))

/-! ### Invariants: what every step keeps, from every state that has it -/

/-- The valves agree with the point states, the fast valve in FLOWING(FAST) alone and the slow valve in FLOWING; the
selector motor is driven and the travel timer runs in MOVING alone. -/
def Obligations.OutputsFollowTheirStates : Prop :=
  ∀ s t : State, step s = .next t →
    (s.ValvesAgree → t.ValvesAgree) ∧ (s.SelectorAgrees → t.SelectorAgrees)

/-- The pump is driven in STARTING and RUNNING alone, and only while the selector is HELD and a point is FLOWING on
the held compartment. -/
def Obligations.PumpRunsOnlyOnFlow : Prop := ∀ s t : State, s.PumpSafe → step s = .next t → t.PumpSafe

/-- The selector never holds a LOADING compartment, and an inlet valve is open only on a LOADING one. A compartment is LOADING
or DRAINING only for the current load entry, which holds a load context exactly in LOADING and SETTLING. -/
def Obligations.NoSuctionFromLoading : Prop :=
  ∀ s t : State, step s = .next t →
    (s.InletsSafe → t.InletsSafe) ∧ (s.LoadsAgree → t.LoadsAgree)

/-- The attention line of every port follows its pending set, mask and global enable. -/
def Obligations.AttentionFollowsNotices : Prop := ∀ s t : State, s.LinesAgree → step s = .next t → t.LinesAgree

/-- The roster stays in ascending order with no tag identity twice and at most 512 records, and the accounts keep one
record at most for each number. -/
def Obligations.TablesStayOrdered : Prop :=
  ∀ s t : State, step s = .next t →
    (s.RosterOrdered → t.RosterOrdered) ∧ (s.AccountsOrdered → t.AccountsOrdered)

/-- The stored records carry contiguous sequence numbers from oldest to newest. -/
def Obligations.JournalStaysContiguous : Prop :=
  ∀ s t : State, s.journal.contiguous → step s = .next t → t.journal.contiguous

/-- A point has a context exactly while it has an open delivery; every open delivery and every current load entry
holds one journal slot; occupied and reserved never exceed 2,048. -/
def Obligations.SlotsStayHeld : Prop := ∀ s t : State, s.SlotsAgree → step s = .next t → t.SlotsAgree

/-- The reserved sums of machines, accounts and compartments equal those of the open deliveries, and no machine has
two. -/
def Obligations.ReservationsStayExact : Prop := ∀ s t : State, s.BooksAgree → step s = .next t → t.BooksAgree

/-- Every delivery record in the journal bills its net volume at its locked price, and a delivery billed at exactly
its limit never costs more than its account reservation; one of no centilitre amounts to nothing and closes void,
which writes no record (Closes). -/
def Obligations.AmountsFollowPrices : Prop :=
  (∀ s t : State, s.AmountsAgree → step s = .next t → t.AmountsAgree) ∧ State.reset.AmountsAgree ∧
    (∀ limit price : Nat, (limit * price + 500) / 1000 ≤ reservationFor limit price) ∧
    (∀ net price : Nat, billAmount net price = (net * price + 500) / 1000) ∧
    ∀ (d : Delivery) (cause : EndCause), cLof d.net_uL = 0 →
      billAmount (cLof d.net_uL) d.price = 0 ∧ d.isVoid cause = true

/-- The totalisers and their carries change at a window's end alone, of their own channel (METER_WINDOW_END, or
SUPPLY_FAIL, which ends all three windows), bound or unbound, and there by R13: no command writes them and every reset
keeps them. -/
def Obligations.TotalisersOnlyCountWindows : Prop :=
  (∀ (i : Instr) (s t : State), exec i s = .next t → (∀ c x, i ≠ .meterWindowEnd c x) → (∀ x, i ≠ .supplyFail x) →
    ∀ c, (s.channel c).KeepsTotals (t.channel c)) ∧
  (∀ (c : ChannelId) (probe : Option Int) (s : State), s.inReset = false →
    ∃ t : State, exec (.meterWindowEnd c probe) s = .next t ∧
      (s.channel c).CountsTo (t.channel c) ((s.channel c).window probe).2 ∧
      ∀ d, d ≠ c → (s.channel d).KeepsTotals (t.channel d)) ∧
  ∀ (probes : Triple (Option Int)) (s : State),
    ∃ t : State, exec (.supplyFail probes) s = .next t ∧
      ∀ c, (s.channel c).CountsTo (t.channel c) ((s.channel c).window (probes.channel c)).2

/-- The state after reset has every invariant above. -/
def Obligations.ResetHasTheInvariants : Prop :=
  State.reset.ValvesAgree ∧ State.reset.PumpSafe ∧ State.reset.SelectorAgrees ∧ State.reset.InletsSafe ∧
    State.reset.LoadsAgree ∧ State.reset.LinesAgree ∧ State.reset.RosterOrdered ∧ State.reset.AccountsOrdered ∧
    State.reset.journal.contiguous ∧ State.reset.SlotsAgree ∧ State.reset.BooksAgree

/-! ### Frames, reads and notices -/

/-- The frame rows. What every frame received does, shown by BAD_FRAME: its port's silence becomes 0; on the OPERATOR
port it also clears the console silent mark and the console flow block, restarts the console timer while the watch is
active, which overtakes every expiry of it that waits in the queue (log entry 32), and takes each point in
SUSPENDED(CONSOLE_SILENT) to SUSPENDED(TRIGGER_RELEASED) with its press-wait timer started. A READY port then sends
BAD_FRAME with tag 0 and code 0; an ANSWERING one queues it, or drops it where an extra response is queued. Then: a frame
reaching an ANSWERING port, a good frame during recovery, a response sent whole, a frame abandoned after 100 ms, and a
frame with an unknown command code, the second and the last at READY and ANSWERING ports. At a READY port
FRAME_WHILE_ANSWERING and outside a reset FRAME_DURING_RECOVERY are no events and change nothing: the model's choice
(log entry 3). -/
def Obligations.FramesAreHeardAndAnswered : Prop :=
  (∀ (o : PortId) (why : FrameDefect) (s : State), ∃ t : State, exec (.badFrame o why) s = .next t ∧
      (t.port o).silence = 0 ∧
      ((s.port o).sending = none →
        (t.port o).sending = some { tag := 0, code := 0, status := .badFrame, reason := none, detail := none, data := [] }) ∧
      ((s.port o).sending.isSome = true → (s.port o).extra = none → (t.port o).sending = (s.port o).sending ∧
        (t.port o).extra = some { tag := 0, code := 0, status := .badFrame, reason := none, detail := none, data := [] }) ∧
      ((s.port o).sending.isSome = true → (s.port o).extra.isSome = true →
        t.port o = { s.port o with silence := 0 }) ∧
      (t.port o).notices = (s.port o).notices ∧ (t.port o).attention = (s.port o).attention ∧
      (∀ q, q ≠ o → t.port q = s.port q) ∧
      (o ≠ .operator → { t with ports := s.ports } = s) ∧
      (o = .operator →
        t.watch =
            { s.watch with
              silent := false, block := false
              timer := if s.watchActive then s.watch.timeout else s.watch.timer
              overtaken :=
                if s.watchActive then s.pending.count .consoleTimerExpiry else s.watch.overtaken } ∧
          (∀ p,
            t.point p =
              if (s.point p).state = .suspended .consoleSilent then
                { s.point p with
                  state := .suspended .triggerReleased, authTimer := none, pumpSuspend := none
                  pressWait := some s.times.holdToRun }
              else s.point p) ∧
          { t with ports := s.ports, points := s.points, watch := s.watch } = s)) ∧
  ∀ (o : PortId) (r : Req) (tag code : Nat) (why : FrameDefect) (s : State),
    ((s.port o).sending.isSome = true → (s.port o).extra = none →
      exec (.frameWhileAnswering o (.good tag code)) s =
          .next
            ((s.frameReceived o).setPort o
              { s.port o with silence := 0, extra := some ((Reply.of .busy).response tag code) }) ∧
        exec (.frameWhileAnswering o (.bad why)) s =
          .next
            ((s.frameReceived o).setPort o
              { s.port o with silence := 0, extra := some ((Reply.of .badFrame).response 0 0) })) ∧
    ((s.port o).sending.isSome = true → (s.port o).extra.isSome = true → ∀ f,
      exec (.frameWhileAnswering o f) s = .next (s.frameReceived o)) ∧
    ((s.port o).sending = none → ∀ f, exec (.frameWhileAnswering o f) s = .next s) ∧
    (s.inReset = false → exec (.frameDuringRecovery r code) s = .next s) ∧
    ((s.port r.port).sending.isSome = true → ∀ i,
      (i = .frameDuringRecovery r code ∧ s.inReset = true) ∨ i = .unknownCommandCode r code →
        ((s.port r.port).extra = none →
          exec i s =
            .next
              ((s.frameReceived r.port).setPort r.port
                { s.port r.port with silence := 0, extra := some ((Reply.of .busy).response r.tag code) })) ∧
        ((s.port r.port).extra.isSome = true → exec i s = .next (s.frameReceived r.port))) ∧
    (s.inReset = true → (s.port r.port).sending = none →
      Answers (.unknownCommandCode r code) s r code (s.frameReceived r.port) (Reply.of .busy)) ∧
    (s.inReset = true → (s.port r.port).sending = none →
      Answers (.frameDuringRecovery r code) s r code (s.frameReceived r.port) (Reply.of .busy)) ∧
    ((s.port o).sending.isSome = true →
      exec (.responseSent o) s = .next (s.setPort o { s.port o with sending := (s.port o).extra, extra := none })) ∧
    exec (.frameTimeout o) s = .next s ∧
    (s.takes r .anyPort →
      Answers (.unknownCommandCode r code) s r code (s.frameReceived r.port) (Reply.of .badParam))

/-- The reads answer OK with the data named and change nothing but what every frame changes: a section of GET_STATUS; a
machine by number, the next machine above a number, a machine by tag; an account; a compartment; journal records from a
stored number; the time. A machine number is read from the first 4 bytes of its key value (10.8). What names nothing is
NOT_FOUND, for each of the three keys of GET_MACHINE, GET_ACCOUNT, GET_STOCK and READ_JOURNAL; an unknown section or key
and a number or count outside its range are BAD_PARAM. THE MODEL'S CHOICE (log entries 9, 10, 33, 34): the bytes of the
sections, machines, accounts, compartments and the time where 10.8 leaves them open. -/
def Obligations.ReadsAnswerAndChangeNothing : Prop :=
  ∀ (r : Req) (s u : State), s.takes r .anyPort → u = s.frameReceived r.port →
    (∀ sect data, u.sectionFlds sect = some data → Answers (.getStatus r sect) s r 0x01 u (Reply.okWith data)) ∧
    (∀ sect, (sect < 10 → (u.sectionFlds sect).isSome = true) ∧
      (10 ≤ sect → Answers (.getStatus r sect) s r 0x01 u (Reply.of .badParam))) ∧
    (∀ (v : BitVec 64) (n : Nat), n = v.toNat % 4294967296 →
      (1 ≤ n → n ≤ 999999 →
        (∀ m, findMachine u.roster n = some m →
          Answers (.getMachine r 0 v) s r 0x02 u (Reply.okWith (u.machineFlds m))) ∧
        (findMachine u.roster n = none → Answers (.getMachine r 0 v) s r 0x02 u (Reply.of .notFound))) ∧
      (¬ (1 ≤ n ∧ n ≤ 999999) → Answers (.getMachine r 0 v) s r 0x02 u (Reply.of .badParam)) ∧
      (n ≤ 999999 →
        (∀ m, u.RosterOrdered → m ∈ u.roster → n < m.number →
          (∀ x ∈ u.roster, n < x.number → m.number ≤ x.number) →
            Answers (.getMachine r 1 v) s r 0x02 u (Reply.okWith (u.machineFlds m))) ∧
        ((∀ x ∈ u.roster, x.number ≤ n) → Answers (.getMachine r 1 v) s r 0x02 u (Reply.of .notFound))) ∧
      (999999 < n → Answers (.getMachine r 1 v) s r 0x02 u (Reply.of .badParam)) ∧
      (∀ m, u.RosterOrdered → m ∈ u.roster → m.tagId = some v →
        Answers (.getMachine r 2 v) s r 0x02 u (Reply.okWith (u.machineFlds m))) ∧
      ((∀ x ∈ u.roster, x.tagId ≠ some v) → Answers (.getMachine r 2 v) s r 0x02 u (Reply.of .notFound)) ∧
      (∀ key, 2 < key → Answers (.getMachine r key v) s r 0x02 u (Reply.of .badParam))) ∧
    (∀ n, 1 ≤ n → n ≤ 64 →
      (∀ a, findAccount u.accounts n = some a →
        Answers (.getAccount r n) s r 0x03 u (Reply.okWith (u.accountFlds a))) ∧
      (findAccount u.accounts n = none → Answers (.getAccount r n) s r 0x03 u (Reply.of .notFound))) ∧
    (∀ n, ¬ (1 ≤ n ∧ n ≤ 64) → Answers (.getAccount r n) s r 0x03 u (Reply.of .badParam)) ∧
    (∀ n c, num4Of n = some c →
      (∀ x, u.comp c = some x → Answers (.getStock r n) s r 0x04 u (Reply.okWith (u.compFlds c x))) ∧
      (u.comp c = none → Answers (.getStock r n) s r 0x04 u (Reply.of .notFound))) ∧
    (∀ n, ¬ (1 ≤ n ∧ n ≤ 4) → Answers (.getStock r n) s r 0x04 u (Reply.of .badParam)) ∧
    (∀ q n, 1 ≤ n → n ≤ 8 →
      ((q - u.journal.oldest).toNat < u.journal.occupied →
        Answers (.readJournal r q n) s r 0x05 u
          (Reply.okWith (u.journal.readFlds (q - u.journal.oldest).toNat n))) ∧
      (u.journal.occupied ≤ (q - u.journal.oldest).toNat →
        Answers (.readJournal r q n) s r 0x05 u (Reply.of .notFound))) ∧
    (∀ q n, ¬ (1 ≤ n ∧ n ≤ 8) → Answers (.readJournal r q n) s r 0x05 u (Reply.of .badParam)) ∧
    Answers (.getTime r) s r 0x07 u (Reply.okWith u.timeFlds)

/-- GET_NOTICES returns the sending port's pending set and clears every flag it returned, masked or not, but for
LOAD_STAGE_EMPTY, which stands; the attention line then follows; no other port and nothing else changes. SET_NOTICE_MASK
writes the sending port's mask and global enable alone, and its attention line follows; a mask naming a bit above 24 gives
BAD_PARAM and changes neither. -/
def Obligations.NoticesAreReturnedAndCleared : Prop :=
  (∀ (r : Req) (s u : State), s.takes r .anyPort → u = s.frameReceived r.port →
      ∃ t : State, exec (.getNotices r) s = .next t ∧
        t.port r.port =
          { u.port r.port with
            notices := (s.port r.port).notices &&& Notice.loadStageEmpty.flag
            attention :=
              (s.port r.port).enable &&
                ((s.port r.port).notices &&& Notice.loadStageEmpty.flag &&& (s.port r.port).mask != 0)
            sending := some ((Reply.okWith [fld 4 (s.port r.port).notices.toNat]).response r.tag 0x06) } ∧
        (∀ o, o ≠ r.port → t.port o = s.port o) ∧ { t with ports := u.ports } = u) ∧
  ∀ (r : Req) (s u : State) (mask : Nat) (on : Bool), s.takes r .anyPort → u = s.frameReceived r.port →
    (mask < 2 ^ 25 →
      Answers (.setNoticeMask r mask (bit on)) s r 0x08
        (u.setPort r.port
          { u.port r.port with
            mask := BitVec.ofNat 25 mask, enable := on
            attention := on && ((s.port r.port).notices &&& BitVec.ofNat 25 mask != 0) })
        Reply.ok) ∧
    (2 ^ 25 ≤ mask → Answers (.setNoticeMask r mask (bit on)) s r 0x08 u (Reply.of .badParam))

/-! ### Roles -/

/-- REQUEST_ACCOUNT_ROLE is decided in the order of R179: the holder has it; the SERVICE port with its switch closed,
or any port once the unprotected holder has been silent for the role lapse, takes it; a second request is BUSY; else
the request is pending with 60 s to answer, and the holder is told. -/
def Obligations.RoleRequestIsDecided : Prop :=
  ∀ (r : Req) (s u : State), s.takes r .anyPort → u = s.frameReceived r.port →
    (s.roles.holder = r.port → Answers (.requestAccountRole r) s r 0x09 u Reply.ok) ∧
    (s.roles.holder ≠ r.port →
      ((r.port = .service ∧ s.roles.calibration = true) ∨
        (¬ (s.roles.holder = .service ∧ s.roles.calibration = true) ∧
          s.watch.lapse ≤ (s.port s.roles.holder).silence) →
        ∃ t, u.RoleMoves t r.port ∧ Answers (.requestAccountRole r) s r 0x09 t Reply.ok) ∧
      (¬ ((r.port = .service ∧ s.roles.calibration = true) ∨
        (¬ (s.roles.holder = .service ∧ s.roles.calibration = true) ∧
          s.watch.lapse ≤ (s.port s.roles.holder).silence)) →
        (s.roles.requester.isSome = true → Answers (.requestAccountRole r) s r 0x09 u (Reply.of .busy)) ∧
        (s.roles.requester = none →
          Answers (.requestAccountRole r) s r 0x09
            ((u.setRoles { u.roles with requester := some r.port, answer := some 600 }).raiseOn s.roles.holder
              .roleRequested)
            (Reply.of .accepted))))

/-- What ends a pending role request: YIELD and DENY from the holder, the answer timer, the holder's silence, and the
calibration switch; without a request YIELD and DENY are WRONG_STATE. A ROLE_LAPSE row is itself the moment the silence
reaches the lapse (log entry 19). A timer's row is its expiry whatever time was left: the model's choice (log entry
32). -/
def Obligations.RoleRequestEnds : Prop :=
  ∀ (s u : State) (r : Req) (q : PortId),
    (s.takes r .account → u = s.frameReceived r.port →
      (s.roles.requester = some q →
        (∃ t, u.RoleMoves t q ∧ Answers (.yieldAccountRole r) s r 0x3E t Reply.ok) ∧
        Answers (.denyAccountRole r) s r 0x3F
          ((u.setRoles { u.roles with requester := none, answer := none }).raiseOn q .roleDenied) Reply.ok) ∧
      (s.roles.requester = none →
        Answers (.yieldAccountRole r) s r 0x3E u (Reply.of .wrongState) ∧
        Answers (.denyAccountRole r) s r 0x3F u (Reply.of .wrongState))) ∧
    (s.roles.requester = some q → s.roles.answer.isSome = true →
      exec .roleAnswerTimerExpiry s =
        .next ((s.setRoles { s.roles with requester := none, answer := none }).raiseOn q .roleDenied)) ∧
    (s.roles.requester = some q → ¬ (s.roles.holder = .service ∧ s.roles.calibration = true) →
      ∃ t : State, exec .roleLapse s = .next t ∧ s.RoleMoves t q) ∧
    (s.inReset = false → s.roles.calibration = false → s.roles.requester = some .service →
      ∃ t : State, exec (.calibrationSwitchChange true) s = .next t ∧
        (s.setRoles { s.roles with calibration := true }).RoleMoves t .service) ∧
    (s.inReset = false → s.roles.calibration = true → s.roles.holder = .service →
      ∃ t : State, exec (.calibrationSwitchChange false) s = .next t ∧
        (s.setRoles { s.roles with calibration := false }).RoleMoves t .office) ∧
    (∀ on, (on = true → s.roles.requester ≠ some .service) → (on = false → s.roles.holder ≠ .service) →
      exec (.calibrationSwitchChange on) s = .next (s.setRoles { s.roles with calibration := on }))

/-! ### Identification -/

/-- IDENTIFY_MANUAL that passes its checks, at a point that authorises, opens the delivery: AUTHORISED with its
context, the reservations made, the channel bound and the outcome kept. -/
def Obligations.ManualIdentificationOpens : Prop :=
  ∀ (r : Req) (s u : State) (n : Nat) (p : PointId) (machine : Nat) (raw : RawOpt Nat) (hours : Option Nat)
    (m : MachineRec) (a : Account) (c : CompId) (limit : Nat) (source : LimitSource) (price : Nat),
    s.takes r .operate → u = s.frameReceived r.port → pointOf n = some p → 1 ≤ machine → machine ≤ 999999 →
    readOpt 0 (fun h => decide (h ≤ 9999999)) raw = some hours →
    (u.point p).parked = false → (u.point p).state = .closed → (u.coupler p).offHook = true →
    (u.coupler p).coupling.away = true → findMachine u.roster machine = some m → m.manualPermitted = true →
    m.state = .active →
    u.Authorises p
      { machine := m, ident := .manual, hours := hours, level := none, fill := (u.point p).firstFill } a c limit source
      price →
      ∃ t : State,
        exec (.identifyManual r n machine raw) s = .next (t.answer r.port (Reply.ok.response r.tag 0x10)) ∧
          u.Opened t p
            { machine := m, ident := .manual, hours := hours, level := none, fill := (u.point p).firstFill } a c limit
            source price

/-- The checks of IDENTIFY_MANUAL in the order of R41, with those of R53 behind them: power, machine, product,
account, stock and journal slot, and then the limit against the minimum delivery. The first that fails is answered and
kept as the point's last identification outcome, BELOW_MINIMUM with its limit source, and nothing else changes;
JOURNAL_FULL also raises its notice (R53). THE MODEL'S CHOICES: an absent value of the hours with bytes that are not zero
is BAD_PARAM (log entry 8); a machine's account without a record is refused as a closed one (log entry 26); a BAD_PARAM
with a valid point number is kept as that point's outcome too, and one with an invalid point number, which names no point,
is kept nowhere (log entry 30). -/
def Obligations.ManualIdentificationRefused : Prop :=
  (∀ (r : Req) (s : State) (n machine : Nat) (raw : RawOpt Nat), s.takes r .operate → pointOf n = none →
    Answers (.identifyManual r n machine raw) s r 0x10 (s.frameReceived r.port) (Reply.of .badParam)) ∧
  ∀ (r : Req) (s u : State) (n : Nat) (p : PointId) (machine : Nat) (raw : RawOpt Nat) (hours : Option Nat),
    s.takes r .operate → u = s.frameReceived r.port → pointOf n = some p →
      let keepIn (v : State) (x : Reply) (k : Option Nat) : Prop :=
        Answers (.identifyManual r n machine raw) s r 0x10
          (v.setCoupler p
            { v.coupler p with
              outcome := some { status := x.status, reason := x.reason, source := x.detail, tag := none, machine := k } })
          x
      let keep (x : Reply) (k : Option Nat) : Prop := keepIn u x k
      (¬ (1 ≤ machine ∧ machine ≤ 999999) → keep (Reply.of .badParam) none) ∧
      (readOpt 0 (fun h => decide (h ≤ 9999999)) raw = none → keep (Reply.of .badParam) none) ∧
      (1 ≤ machine → machine ≤ 999999 → readOpt 0 (fun h => decide (h ≤ 9999999)) raw = some hours →
        ((u.point p).parked = true → keep (Reply.refused .pointParked) none) ∧
        ((u.point p).parked = false →
          ((u.point p).state ≠ .closed → keep (Reply.of .wrongState) none) ∧
          ((u.point p).state = .closed →
            ((u.coupler p).offHook = false → keep (Reply.refused .nozzleOnHook) none) ∧
            ((u.coupler p).offHook = true →
              ((u.coupler p).coupling.away = false → keep (Reply.refused .tagPresent) none) ∧
              ((u.coupler p).coupling.away = true →
                (findMachine u.roster machine = none → keep (Reply.of .notFound) none) ∧
                ∀ m, findMachine u.roster machine = some m →
                  (m.manualPermitted = false → keep (Reply.refused .manualNotPermitted) (some machine)) ∧
                  (m.manualPermitted = true → m.state = .suspended →
                    keep (Reply.refused .machineSuspended) (some machine)) ∧
                  (m.manualPermitted = true → m.state = .active →
                    (u.power.state ≠ .run → keep (Reply.refused .standby) (some machine)) ∧
                    (u.power.state = .run →
                      (u.machineBusy p m.number = true → keep (Reply.refused .machineBusy) (some machine)) ∧
                      (u.machineBusy p m.number = false →
                        ((u.product m.product).any (fun x => x.points.get p) = false →
                          keep (Reply.refused .productNotAtPoint) (some machine)) ∧
                        ((u.product m.product).any (fun x => x.points.get p) = true →
                          (findAccount u.accounts m.account = none →
                            keep (Reply.refused .accountClosed) (some machine)) ∧
                          ∀ a, findAccount u.accounts m.account = some a →
                            (a.closed = true → keep (Reply.refused .accountClosed) (some machine)) ∧
                            (a.closed = false → a.stopped = true →
                              keep (Reply.refused .accountStopped) (some machine)) ∧
                            (a.closed = false → a.stopped = false →
                              ((∀ c x, u.comp c = some x → ¬ (x.state = .inService ∧ x.product = m.product)) →
                                keep (Reply.refused .noStock) (some machine)) ∧
                              ∀ c, u.chooseComp m.product = some c →
                                (u.journal.canReserve = false →
                                  keepIn (u.raise .journalFull) (Reply.refused .journalFull) (some machine)) ∧
                                ∀ limit source, u.journal.canReserve = true → limit < u.limits.minimum →
                                  (limit, source) =
                                    limitOf
                                      (limitTerms (u.point p).preset
                                        { machine := m, ident := .manual, hours := hours, level := none
                                          fill := (u.point p).firstFill }
                                        a (u.priceOf m.product a.tier) (u.availableOn c) u.limits.manualCap) →
                                    keep
                                      { status := .refused, reason := some .belowMinimum, detail := some source
                                        data := [] }
                                      (some machine)))))))))))

/-- The third consecutive valid read of one tag, at a CLOSED, unparked point not in REPEAT, identifies: a known, active
machine at a point that authorises opens its delivery with the read's hours and tank level; where the authorisation is
refused (R53), its reason and limit source are kept as the outcome with AUTH_REFUSED raised; an unknown tag and the tag of
a SUSPENDED machine are refused with ID_REFUSED. A point in REPEAT refuses every tag. THE MODEL'S CHOICE: an account
without a record is refused as a closed one (log entry 26), and the outcome of an accepted tag keeps its identity (log
entry 33). -/
def Obligations.TagIdentifies : Prop :=
  ∀ (s u : State) (p : PointId) (x : TagReply), s.inReset = false → (s.coupler p).offHook = true →
    (s.coupler p).coupling = .settling2 x.tag → (s.point p).context = none → (s.point p).state = .closed →
    (s.point p).parked = false →
    u = s.setCoupler p
      { s.coupler p with
        coupling := .coupled x.tag 0, lastValid := some (TagReply.read x), validCount := (s.coupler p).validCount + 1 } →
      (∀ (m : MachineRec) (r : AuthRequest), (s.point p).mode ≠ .repeatFill → findTag s.roster x.tag = some m →
        m.state = .active →
        r =
          { machine := m, ident := .tag x.tag, hours := (TagReply.read x).hours, level := (TagReply.read x).level
            fill := 0 } →
        (∀ (a : Account) (c : CompId) (limit : Nat) (source : LimitSource) (price : Nat),
          s.Authorises p r a c limit source price →
            ∃ t : State, exec (.tagRead p (some x)) s = .next t ∧ s.Opened t p r a c limit source price) ∧
        (∀ (reason : Reason) (source : Option LimitSource), s.Refuses p r reason source →
          ∀ v : State,
            v =
                (u.setCoupler p
                  { u.coupler p with
                    outcome :=
                      some
                        { status := .refused, reason := some reason, source := source, tag := some x.tag
                          machine := some m.number } }).raise .authRefused →
              exec (.tagRead p (some x)) s = .next (if reason = .journalFull then v.raise .journalFull else v))) ∧
      (∀ m : MachineRec, (s.point p).mode ≠ .repeatFill → findTag s.roster x.tag = some m → m.state = .suspended →
        exec (.tagRead p (some x)) s =
          .next
            ((u.setCoupler p
              { u.coupler p with
                outcome :=
                  some
                    { status := .refused, reason := some .machineSuspended, source := none, tag := some x.tag
                      machine := some m.number } }).raise .idRefused)) ∧
      ((s.point p).mode ≠ .repeatFill → findTag s.roster x.tag = none →
        exec (.tagRead p (some x)) s =
          .next
            ((u.setCoupler p
              { u.coupler p with
                outcome :=
                  some
                    { status := .refused, reason := some .unknownTag, source := none, tag := some x.tag
                      machine := none } }).raise .idRefused)) ∧
      ((s.point p).mode = .repeatFill →
        exec (.tagRead p (some x)) s =
          .next
            ((u.setCoupler p
              { u.coupler p with
                outcome :=
                  some
                    { status := .refused, reason := some .manualOnly, source := none, tag := some x.tag
                      machine := none } }).raise .idRefused))

/-- How a read moves the coupling at a point with no open delivery (R31), short of the third valid read that reaches it:
each row of the table, with the read counted and a valid read kept; nothing else changes. A nozzle lifted from its hook
starts the reading. -/
def Obligations.ReadsMoveTheCoupling : Prop :=
  ∀ (s : State) (p : PointId) (x : TagReply) (w : TagId) (n : Nat),
    exec (.nozzleOffHook p) s = .next (s.setCoupler p { s.coupler p with offHook := true }) ∧
    (s.inReset = false → (s.coupler p).offHook = true → (s.point p).context = none →
      let valid (k : Coupling) : Prop :=
        exec (.tagRead p (some x)) s =
          .next
            (s.setCoupler p
              { s.coupler p with
                coupling := k, lastValid := some (TagReply.read x), validCount := (s.coupler p).validCount + 1 })
      let failed (k : Coupling) : Prop :=
        exec (.tagRead p none) s =
          .next
            (s.setCoupler p { s.coupler p with coupling := k, failedCount := (s.coupler p).failedCount + 1 })
      ((s.coupler p).coupling = .uncoupled → valid (.settling1 x.tag) ∧ failed .uncoupled) ∧
      ((s.coupler p).coupling = .settling1 w →
        (w = x.tag → valid (.settling2 x.tag)) ∧ (w ≠ x.tag → valid (.settling1 x.tag)) ∧ failed .uncoupled) ∧
      ((s.coupler p).coupling = .settling2 w → (w ≠ x.tag → valid (.settling1 x.tag)) ∧ failed .uncoupled) ∧
      ((s.coupler p).coupling = .coupled w n →
        (w = x.tag → valid (.coupled x.tag 0)) ∧ (w ≠ x.tag → valid (.settling1 x.tag)) ∧
          (n < 2 → failed (.coupled w (n + 1))) ∧ (2 ≤ n → failed (.lost w))) ∧
      ((s.coupler p).coupling = .lost w → valid (.settling1 x.tag) ∧ failed (.lost w)))

/-- Coupling supervision of a tag-identified delivery: the third failed read loses the coupling, which starts the
grace timer and suspends a point that wants flow; the same identity reached again stops the timer and lifts the
suspension; a valid read of another identity closes the delivery with COUPLING_CHANGED, charged and recorded, or void. -/
def Obligations.CouplingIsSupervised : Prop :=
  ∀ (s : State) (p : PointId) (d : Delivery) (w : TagId), s.inReset = false → (s.coupler p).offHook = true →
    (s.point p).context = some d → d.ident = .tag w →
      ((s.coupler p).coupling = .coupled w 2 → (s.point p).state.wantsFlow = true →
        ∃ t : State, exec (.tagRead p none) s = .next t ∧ s.Suspended t p .couplingLost ∧
          (t.coupler p).grace = some s.times.grace ∧ (t.coupler p).coupling = .lost w) ∧
      (∀ x : TagReply, x.tag = w → (s.coupler p).coupling = .settling2 w → (s.coupler p).grace.isSome = true →
        (s.point p).state = .suspended .couplingLost →
          exec (.tagRead p (some x)) s =
            .next
              ((s.setCoupler p
                { s.coupler p with
                  coupling := .coupled w 0, lastValid := some (TagReply.read x), validCount := (s.coupler p).validCount + 1
                  grace := none }).setPoint p
                { s.point p with
                  state := .suspended .triggerReleased, authTimer := none, pumpSuspend := none
                  pressWait := some s.times.holdToRun })) ∧
      (∀ x : TagReply, x.tag ≠ w →
        ∃ t : State, exec (.tagRead p (some x)) s = .next t ∧ s.Closes t p d .couplingChanged)

/-! ### Delivery points -/

/-- SET_PRESET stores a preset at a point without a delivery, NONE included; at an open delivery it lowers the limit
with its reservations where the preset buys less, and is WRONG_STATE otherwise. THE MODEL'S CHOICE (log entry 8): a
preset of kind NONE with a value other than 0 is BAD_PARAM. -/
def Obligations.PresetIsSet : Prop :=
  ∀ (r : Req) (s u : State) (n kind value : Nat) (p : PointId), s.takes r .operate → u = s.frameReceived r.port →
    pointOf n = some p →
      (∀ x, presetOf kind value = some x → (u.point p).context = none →
        Answers (.setPreset r n kind value) s r 0x11 (u.setPoint p { u.point p with preset := x }) Reply.ok) ∧
      (presetOf kind value = none →
        Answers (.setPreset r n kind value) s r 0x11 u (Reply.of .badParam)) ∧
      (∀ d q, presetOf kind value = some (some q) → (u.point p).context = some d → d.limit ≤ q.volumeAt d.price →
        Answers (.setPreset r n kind value) s r 0x11 u (Reply.of .wrongState)) ∧
      (∀ d, presetOf kind value = some none → (u.point p).context = some d →
        Answers (.setPreset r n kind value) s r 0x11 u (Reply.of .wrongState)) ∧
      (∀ d q v, presetOf kind value = some (some q) → (u.point p).context = some d → v = q.volumeAt d.price →
        v < d.limit →
          ∃ t : State, exec (.setPreset r n kind value) s = .next (t.answer r.port (Reply.ok.response r.tag 0x11)) ∧
            (t.point p).context =
              some
                { d with
                  limit := v, source := .preset, preset := some q, reservation := reservationFor v d.price
                  current :=
                    { d.current with
                      remaining := d.current.remaining - min (d.limit - v) d.current.remaining } } ∧
            (∀ k, findMachine t.roster k =
              (findMachine u.roster k).map fun m => if k = d.machine then { m with reserved := v } else m) ∧
            (∀ k, findAccount t.accounts k =
              (findAccount u.accounts k).map fun a =>
                if k = d.account then
                  { a with reserved := a.reserved - (d.reservation - reservationFor v d.price) }
                else a) ∧
            (∀ c, (t.comp c).map (fun x => (x.book, x.reserved)) =
              (u.comp c).map fun x =>
                (x.book,
                  if c = d.current.comp then x.reserved - min (d.limit - v) d.current.remaining else x.reserved)) ∧
            ((u.point p).state.unfinished = true → v ≤ cLof d.net_uL + (u.point p).closeAhead →
              (t.point p).state = .finishing ∧ (t.point p).pendingEnd = some .preset ∧
                (t.point p).slowValve = false ∧ (t.point p).fastValve = false) ∧
            (t.point p.other).context = (u.point p.other).context ∧ t.journal.records = u.journal.records)

/-- What ends a delivery by FINISHING, at a point that is open and not finishing yet: STOP_POINT, the nozzle hung up (both
set series ends), and ignition off in RUN, each with its pending end cause. -/
def Obligations.PointFinishes : Prop :=
  ∀ (s : State) (p : PointId),
    (∀ r n u, s.takes r .operate → u = s.frameReceived r.port → pointOf n = some p →
      (u.point p).state.unfinished = true →
        ∃ t : State, exec (.stopPoint r n) s = .next (t.answer r.port (Reply.ok.response r.tag 0x12)) ∧
          u.Finished t p .operatorStop ∧ (t.point p).seriesEnds = true) ∧
    (∀ r n u, s.takes r .operate → u = s.frameReceived r.port → pointOf n = some p → (u.point p).state = .finishing →
      Answers (.stopPoint r n) s r 0x12 (u.setPoint p { u.point p with seriesEnds := true }) Reply.ok) ∧
    (∀ r n u, s.takes r .operate → u = s.frameReceived r.port → pointOf n = some p → (u.point p).state = .closed →
      Answers (.stopPoint r n) s r 0x12 u (Reply.of .wrongState)) ∧
    ((s.coupler p).offHook = true → (s.point p).state.unfinished = true →
      ∃ t : State, exec (.nozzleOnHook p) s = .next t ∧ s.Finished t p .nozzleHung ∧ (t.point p).seriesEnds = true ∧
        (t.coupler p).coupling = .uncoupled ∧ (t.coupler p).offHook = false) ∧
    ((s.coupler p).offHook = true → (s.point p).state = .closed →
      exec (.nozzleOnHook p) s =
        .next (s.setCoupler p { s.coupler p with offHook := false, coupling := .uncoupled })) ∧
    (s.power.state = .run → (s.point p).state.unfinished = true →
      ∃ t : State, exec .ignitionOff s = .next t ∧ s.Finished t p .ignitionOff ∧ t.power.state = .standby ∧
        t.power.ignition = false ∧ t.power.wake = none)

/-- STOP_REPEAT, SET_POINT_MODE, PARK_POINT and UNPARK_POINT write their item of one point and nothing else, each
where its rule takes it. -/
def Obligations.PointItemsAreSet : Prop :=
  ∀ (r : Req) (s u : State) (n : Nat) (p : PointId), s.takes r .operate → u = s.frameReceived r.port →
    pointOf n = some p →
      ((u.point p).state ≠ .closed → (u.point p).mode = .repeatFill →
        Answers (.stopRepeat r n) s r 0x13 (u.setPoint p { u.point p with seriesEnds := true }) Reply.ok) ∧
      ((u.point p).state = .closed ∨ (u.point p).mode ≠ .repeatFill →
        Answers (.stopRepeat r n) s r 0x13 u (Reply.of .wrongState)) ∧
      (∀ mode k count, modeOf k = some mode → 1 ≤ count → count ≤ 99 → (u.point p).state = .closed →
        Answers (.setPointMode r n k count) s r 0x14
          (u.setPoint p { u.point p with mode := mode, repeatCount := count }) Reply.ok) ∧
      ((u.point p).state = .closed →
        Answers (.parkPoint r n) s r 0x15 (u.setPoint p { u.point p with parked := true }) Reply.ok) ∧
      ((u.point p).state ≠ .closed → Answers (.parkPoint r n) s r 0x15 u (Reply.of .wrongState)) ∧
      Answers (.unparkPoint r n) s r 0x16 (u.setPoint p { u.point p with parked := false }) Reply.ok

/-- The timers that close a delivery at once: the authorisation timer (always void), the press wait, the pump-fault
suspend limit and the coupling grace with their causes, and the meter settle timer with the pending end cause. A close
that is not void releases the reservations, charges the machine, the account (stopped at its credit limit, with
CREDIT_STOP), the book of each segment (with VARIANCE where it falls short) and the shift tally, and writes its record; a
void one only releases. A fill of a REPEAT series that ends with PRESET, short of its repeat count, with series ends clear
and the nozzle off hook, is closed in the same way and then authorised afresh in the state its close leaves, with the
point's stored preset (R92): where that succeeds the point is AUTHORISED with the next fill, its own reservations and
context; where it is refused the point stays CLOSED and AUTH_REFUSED is raised, JOURNAL_FULL too where no slot is left. A
machine without a record is refused: the model's choice (log entry 26). A timer's row is its expiry whatever time was
left: the model's choice (log entry 32). -/
def Obligations.TimersCloseDeliveries : Prop :=
  ∀ (s : State) (p : PointId) (d : Delivery), (s.point p).context = some d →
    ((s.point p).authTimer.isSome = true →
      ∃ t : State, exec (.authTimerExpiry p) s = .next t ∧ s.Closes t p d .authTimeout) ∧
    ((s.point p).pressWait.isSome = true →
      ∃ t : State, exec (.pressWaitExpiry p) s = .next t ∧ s.Closes t p d .triggerTimeout) ∧
    ((s.point p).pumpSuspend.isSome = true →
      ∃ t : State, exec (.pumpFaultSuspendExpiry p) s = .next t ∧ s.Closes t p d .pumpFault) ∧
    ((s.coupler p).grace.isSome = true →
      ∃ t : State, exec (.couplingGraceExpiry p) s = .next t ∧ s.Closes t p d .couplingLost) ∧
    (∀ cause, (s.point p).meterSettle.isSome = true → (s.point p).pendingEnd = some cause →
      (cause ≠ .preset ∨ d.fill = 0 ∨ d.repeatCount ≤ d.fill ∨ (s.point p).seriesEnds = true ∨
        (s.point p).mode ≠ .repeatFill ∨ (s.coupler p).offHook = false) →
        ∃ t : State, exec (.meterSettleExpiry p) s = .next t ∧ s.Closes t p d cause) ∧
    ((s.point p).meterSettle.isSome = true → (s.point p).pendingEnd = some .preset → d.fill ≠ 0 →
      d.fill < d.repeatCount → (s.point p).seriesEnds = false → (s.point p).mode = .repeatFill →
      (s.coupler p).offHook = true →
        ∀ u v : State, u = s.close p .preset false →
          v = u.setPoint p { u.point p with preset := (s.point p).preset } →
            s.Closes u p d .preset ∧
            (∀ m, findMachine u.roster d.machine = some m → ∀ r : AuthRequest,
              r = { machine := m, ident := .manual, hours := none, level := none, fill := d.fill + 1 } →
                (∀ a c limit source price, v.Authorises p r a c limit source price →
                  ∃ t : State, exec (.meterSettleExpiry p) s = .next t ∧ v.Opened t p r a c limit source price ∧
                    (t.point p).fill = d.fill + 1 ∧ (t.point p).preset = (s.point p).preset) ∧
                (∀ reason source, v.Refuses p r reason source →
                  ∃ t : State, exec (.meterSettleExpiry p) s = .next t ∧ s.Closes t p d .preset ∧
                    (t.port .operator).has .authRefused = true ∧
                    (reason = .journalFull →
                      (t.port .operator).has .journalFull = true ∧ (t.port .office).has .journalFull = true))) ∧
            (findMachine u.roster d.machine = none →
              ∃ t : State, exec (.meterSettleExpiry p) s = .next t ∧ s.Closes t p d .preset ∧
                (t.port .operator).has .authRefused = true))

/-- A taken press: within close-ahead of the limit it goes straight to FINISHING; else it asks for the compartment of the
current segment. HELD on it, the point flows at once, FAST or SLOW by the slowdown volume; another compartment held by a
claim or travelled to leaves the request waiting; an IDLE selector is picked for it, flows at once where it stands there
and travels elsewhere. A press that is not taken only moves the trigger. -/
def Obligations.PressAsksForFlow : Prop :=
  ∀ (s : State) (p : PointId), s.inReset = false → (s.point p).trigger = false →
    (∀ d, (s.point p).context = some d → (s.point p).state.waitsForPress = true → s.unblocked p = true →
      (d.limit ≤ cLof d.net_uL + (s.point p).closeAhead →
        ∃ t : State, exec (.triggerPress p) s = .next t ∧
          s.Finished t p (if d.source = .preset then .preset else .limit)) ∧
      (cLof d.net_uL + (s.point p).closeAhead < d.limit →
        (s.arbiter.selector = .held d.current.comp → s.barred d.current.comp = false →
          ∃ t : State, exec (.triggerPress p) s = .next t ∧ s.Flows t p d) ∧
        (∀ e, e ≠ d.current.comp →
          (s.arbiter.selector = .moving e ∨
            (s.arbiter.selector = .held e ∧ ¬ (s.arbiter.claims.a = .none ∧ s.arbiter.claims.b = .none))) →
            ∃ t : State, exec (.triggerPress p) s = .next t ∧ (t.point p).state = .waitSuction ∧
              t.arbiter.waiting.get p = some d.current.comp ∧ t.arbiter.selector = s.arbiter.selector ∧
              (t.point p).context = some d ∧ (t.point p).pressWait = none ∧
              (t.point p).authTimer = (s.point p).authTimer) ∧
        (s.barred d.current.comp = false → s.loader.state = .none → s.loader.current = none →
          s.arbiter.waiting.get p.other = none →
            (s.arbiter.selector = .idle (some d.current.comp) →
              ∃ t : State, exec (.triggerPress p) s = .next t ∧ s.Flows t p d ∧
                t.arbiter.selector = .held d.current.comp) ∧
            (∀ pos, pos ≠ some d.current.comp → s.arbiter.selector = .idle pos →
              ∃ t : State, exec (.triggerPress p) s = .next t ∧ (t.point p).state = .waitSuction ∧
                t.arbiter.selector = .moving d.current.comp ∧ t.arbiter.motor = true ∧
                t.arbiter.travel = some s.arbiter.travelTime ∧ t.arbiter.admitted.get p = true ∧
                t.arbiter.lastGranted = some p ∧ (t.point p).context = some d)))) ∧
    ((s.point p).state.waitsForPress = false ∨ s.unblocked p = false →
      exec (.triggerPress p) s = .next (s.setPoint p { s.point p with trigger := true }))

/-- A release in HOLD_TO_RUN suspends a point that is FLOWING or waits for suction; in another mode or state it only
moves the trigger. The console timer's expiry marks the console silent and tells the office; in mode STOP it sets the
console flow block and suspends each point that is FLOWING or waits, and in mode REPORT it changes no point. An
OPERATOR frame taken before a waiting expiry restarts the timer, and that expiry then changes no point and raises
nothing; it spends the count of the overtaken ones. A row that none overtook is its timer's expiry whatever time was
left: the model's choice (log entry 32). -/
def Obligations.FlowIsSuspended : Prop :=
  ∀ (s : State) (p : PointId),
    (s.inReset = false → (s.point p).trigger = true →
      ((s.point p).mode = .holdToRun → (s.point p).state.wantsFlow = true →
        ∃ t : State, exec (.triggerRelease p) s = .next t ∧ s.Suspended t p .triggerReleased ∧ (t.point p).trigger = false) ∧
      ((s.point p).mode ≠ .holdToRun ∨ (s.point p).state.wantsFlow = false →
        exec (.triggerRelease p) s = .next (s.setPoint p { s.point p with trigger := false }))) ∧
    (s.watch.overtaken = 0 → s.watch.timer.isSome = true →
      (s.watch.mode = .stop →
        ∃ t : State, exec .consoleTimerExpiry s = .next t ∧ t.watch.silent = true ∧ t.watch.block = true ∧
          (t.port .office).has .consoleSilent = true ∧
          ((s.point p).state.wantsFlow = true → s.Suspended t p .consoleSilent) ∧
          ((s.point p).state.wantsFlow = false → t.point p = s.point p)) ∧
      (s.watch.mode = .report →
        Gives .consoleTimerExpiry s
          ((s.setWatch { s.watch with timer := none, silent := true }).raise .consoleSilent))) ∧
    (s.watch.overtaken ≠ 0 →
      exec .consoleTimerExpiry s =
        .next (s.setWatch { s.watch with overtaken := s.watch.overtaken - 1 })) ∧
    ∀ (why : FrameDefect) (rest : List Instr),
      s.pending = .badFrame .operator why :: .consoleTimerExpiry :: rest → s.watchActive = true →
        ∃ t u : State, step s = .next t ∧ step t = .next u ∧ u.watch.timer = s.watch.timeout ∧
          u.watch.silent = false ∧ u.watch.block = false ∧ u.points = t.points ∧ u.ports = t.ports ∧
          (∀ o, (u.port o).notices = (s.port o).notices) ∧
          ∀ q, (s.point q).state ≠ .suspended .consoleSilent → u.point q = s.point q

/-! ### Meters -/

/-- METER_PULSE counts a transition of the channel in its direction, held at 65,535; a transition without a direction
is not counted; nothing else changes, and in reset nothing does. METER_WINDOW_END runs the stages over the channel's
counts: usable count and debt (R5), rate (R6), gross and net increments with their remainders (R8, R11), the totalisers
(R13), and the temperature (R9): a reading of the probe in −400..700 is used and held; without one the held reading is
used, and without that 150. Its flags: BACKFLOW where the debt leaves 0, OVERSPEED where a count saturated or the rate is
above the rated maximum, TEMP_HELD and TEMP_DEFAULT by the temperature used. The owner of a bound channel takes the
result into its accumulators and its flags; an unbound channel adds the grown gross to its idle flow. THE MODEL'S CHOICE
(log entry 16): a count has saturated where it stands at 65,535 at the window's end. -/
def Obligations.PulsesAndWindowsAreMetered : Prop :=
  (∀ (c : ChannelId) (dir : PulseDir) (s : State),
      (s.inReset = false →
        exec (.meterPulse c .forward) s =
            .next (s.setChannel c { s.channel c with forward := min 65535 ((s.channel c).forward + 1) }) ∧
          exec (.meterPulse c .reverse) s =
            .next (s.setChannel c { s.channel c with reverse := min 65535 ((s.channel c).reverse + 1) }) ∧
          exec (.meterPulse c .none) s = .next s) ∧
      (s.inReset = true → exec (.meterPulse c dir) s = .next s)) ∧
  ∀ (c : ChannelId) (probe : Option Int) (s : State) (x : Channel) (w : WindowResult) (n debt rate factor : Nat),
    s.inReset = false → x = s.channel c → w = (x.window probe).2 →
    n = (if x.forward ≤ x.reverse then 0 else x.forward - x.reverse - x.debt) →
    debt =
      (if x.forward ≤ x.reverse then min 4294967295 (x.debt + (x.reverse - x.forward))
      else x.debt - (x.forward - x.reverse)) →
    rate = n * 2400 / x.k → factor = meterFactor x.table rate →
      ∃ t : State, exec (.meterWindowEnd c probe) s = .next t ∧
        w.gross = (n * factor + x.grossRem) / x.k ∧
        w.net = (w.gross * correctionFactor (x.alpha.getD 0) w.t10 + x.netRem) / 1000000 ∧ w.rate = rate ∧
        (w.flags.backflow = true ↔ x.debt = 0 ∧ debt ≠ 0) ∧
        (w.flags.overspeed = true ↔ x.forward = 65535 ∨ x.reverse = 65535 ∨ x.ratedMax < rate) ∧
        (∀ v, probe = some v → -400 ≤ v → v ≤ 700 →
          w.t10 = v ∧ (t.channel c).held = some v ∧ w.flags.tempHeld = false ∧ w.flags.tempDefault = false) ∧
        ((∀ v, probe = some v → v < -400 ∨ 700 < v) →
          (∀ h, x.held = some h →
            w.t10 = h ∧ (t.channel c).held = some h ∧ w.flags.tempHeld = true ∧ w.flags.tempDefault = false) ∧
          (x.held = none →
            w.t10 = 150 ∧ (t.channel c).held = none ∧ w.flags.tempHeld = false ∧ w.flags.tempDefault = true)) ∧
        ((t.channel c).forward = 0 ∧ (t.channel c).reverse = 0 ∧ (t.channel c).debt = debt ∧
          (t.channel c).lastRate = rate ∧ (t.channel c).grossRem = (n * factor + x.grossRem) % x.k ∧
          (t.channel c).netRem =
            (w.gross * correctionFactor (x.alpha.getD 0) w.t10 + x.netRem) % 1000000 ∧
          x.CountsTo (t.channel c) w ∧ (t.channel c).bound = x.bound ∧ (t.channel c).alpha = x.alpha ∧
          (t.channel c).k = x.k ∧ (t.channel c).table = x.table ∧ (t.channel c).ratedMax = x.ratedMax) ∧
        (∀ d, d ≠ c → d ≠ .load → t.channel d = s.channel d) ∧
        (x.bound = false →
          (t.channel c).idle = min 999999999 (x.idle + (x.grossCarry + w.gross) / 10000) ∧
            (50 < min 999999999 (x.idle + (x.grossCarry + w.gross) / 10000) → x.idleNotified = false →
              (t.port .office).has .idleFlow = true ∧ (t.port .service).has .idleFlow = true ∧
                (t.channel c).idleNotified = true)) ∧
        (∀ p d, c = channelFor p → x.bound = true → (s.point p).context = some d →
          (t.point p).context =
            some
              { d with
                gross_uL := d.gross_uL + w.gross, net_uL := d.net_uL + w.net
                tempSum := d.tempSum + w.gross * w.t10
                current := { d.current with net_uL := d.current.net_uL + w.net }
                flags :=
                  { backflow := d.flags.backflow || w.flags.backflow
                    overspeed := d.flags.overspeed || w.flags.overspeed
                    tempHeld := d.flags.tempHeld || w.flags.tempHeld
                    tempDefault := d.flags.tempDefault || w.flags.tempDefault } }) ∧
        (∀ e y, c = .load → x.bound = true → s.loader.current = some e → e.context = some y →
          ∃ f z, t.loader.current = some f ∧ f.comp = e.comp ∧ f.target = e.target ∧ f.context = some z ∧
            z.gross_uL = y.gross_uL + w.gross ∧ z.net_uL = y.net_uL + w.net ∧
            z.tempSum = y.tempSum + w.gross * w.t10 ∧
            z.flags =
              { backflow := y.flags.backflow || w.flags.backflow
                overspeed := y.flags.overspeed || w.flags.overspeed
                tempHeld := y.flags.tempHeld || w.flags.tempHeld
                tempDefault := y.flags.tempDefault || w.flags.tempDefault })

/-- At a window end of a FLOWING point, with the volume the window has brought: at close-ahead of the limit the point
goes to FINISHING with PRESET or LIMIT; a fast point at the slowdown volume goes to SLOW, its fast valve closed; else
it flows on. At a window end of channel LOAD under a LOADING entry (R140), with the volume the window has brought: at the
load close-ahead of the used target the entry goes to SETTLING with TARGET, its inlet valve closed; else a rate above 0
begins the flow and stops the no-flow timer; else a flow that has begun starts that timer where it is stopped; else
nothing changes. -/
def Obligations.FlowMeetsItsLimit : Prop :=
  (∀ (s : State) (p : PointId) (probe : Option Int) (d e : Delivery) (stage : Stage), s.inReset = false →
    (s.point p).state = .flowing stage → (s.point p).context = some d → (s.channel (channelFor p)).bound = true →
    e = d.take ((s.channel (channelFor p)).window probe).2 →
      ∃ t : State, exec (.meterWindowEnd (channelFor p) probe) s = .next t ∧ (t.point p).context = some e ∧
        (e.limit ≤ cLof e.net_uL + (s.point p).closeAhead →
          (s.endWindow (channelFor p) probe).Finished t p (if e.source = .preset then .preset else .limit)) ∧
        (cLof e.net_uL + (s.point p).closeAhead < e.limit →
          (stage = .fast → e.limit ≤ cLof e.net_uL + (s.point p).slowdown →
            t.point p = { s.point p with context := some e, state := .flowing .slow, fastValve := false }) ∧
          (stage = .slow ∨ cLof e.net_uL + (s.point p).slowdown < e.limit →
            t.point p = { s.point p with context := some e }))) ∧
  ∀ (s : State) (probe : Option Int) (e : Entry) (y z : LoadContext) (rate : Nat), s.inReset = false →
    s.loader.current = some e → e.state = .loading → e.context = some y → s.channels.third.bound = true →
    z = y.take (s.channels.third.window probe).2 → rate = (s.channels.third.window probe).2.rate →
      ∃ t : State, exec (.meterWindowEnd .load probe) s = .next t ∧
        (z.used ≤ cLof z.net_uL + s.loader.closeAhead →
          t.loader = s.loader.settling e z .target s.times.meterSettle) ∧
        (cLof z.net_uL + s.loader.closeAhead < z.used →
          (0 < rate →
            t.loader =
              { s.loader with
                current := some { e with context := some { z with flowBegun := true } }, noFlow := none }) ∧
          (rate = 0 → y.flowBegun = true → s.loader.noFlow = none →
            t.loader =
              { s.loader with
                current := some { e with context := some z }, noFlow := some s.loader.noFlowTime }) ∧
          (rate = 0 → y.flowBegun = false ∨ s.loader.noFlow.isSome = true →
            t.loader = { s.loader with current := some { e with context := some z } })) ∧
        { t with loader := s.loader, channels := s.channels } = s

/-- Each transition with a direction adds one to its count below 65,535, and a window loses nothing: the gross and net
increments with their remainders, the gross and the net totaliser with their carries, and the usable count with the
backflow debt are exact, short of the debt's and the totalisers' bounds. -/
def Obligations.WindowsLoseNothing : Prop :=
  (∀ (c : ChannelId) (s : State), s.inReset = false →
    ((s.channel c).forward < 65535 →
      exec (.meterPulse c .forward) s =
        .next (s.setChannel c { s.channel c with forward := (s.channel c).forward + 1 })) ∧
      ((s.channel c).reverse < 65535 →
        exec (.meterPulse c .reverse) s =
          .next (s.setChannel c { s.channel c with reverse := (s.channel c).reverse + 1 }))) ∧
  ∀ (x : Channel) (probe : Option Int), 0 < x.k →
    let y := (x.window probe).1
    let w := (x.window probe).2
    let n := (settleDebt x.forward x.reverse x.debt).1
    w.gross * x.k + y.grossRem = n * meterFactor x.table (flowRate n x.k) + x.grossRem ∧ y.grossRem < x.k ∧
      w.net * 1000000 + y.netRem = w.gross * correctionFactor (x.alpha.getD 0) w.t10 + x.netRem ∧
      y.netRem < 1000000 ∧
      (y.grossTotal * 10000 + y.grossCarry) % 100000000000000 =
        (x.grossTotal * 10000 + x.grossCarry + w.gross) % 100000000000000 ∧
      (y.netTotal * 10000 + y.netCarry) % 100000000000000 =
        (x.netTotal * 10000 + x.netCarry + w.net) % 100000000000000 ∧
      y.grossCarry < 10000 ∧ y.netCarry < 10000 ∧
      (x.debt + x.reverse ≤ 4294967295 →
        (n : Int) - (y.debt : Int) = (x.forward : Int) - (x.reverse : Int) - (x.debt : Int))

/-- The volume correction factor is 1,000,000 less round(α × (T10 − 150) / 10), the division rounded to nearest with a tie
away from zero; it is 1,000,000 with no α, within 890,000..1,110,000 in the ranges of α and T10, below 1,000,000 only for
fuel warmer than 15.0 °C and above it only for colder. The meter factor of a linearisation table (R7) is 1,000,000 of an
empty one, the first point's at and below its rate, the last point's at and above its rate, and between two neighbours
theirs interpolated, rounded to nearest with a tie towards the greater; it lies within the table's factors. -/
def Obligations.CorrectionIsRounded : Prop :=
  (∀ (alpha : Nat) (t10 : Int), alpha ≤ 2000 → -400 ≤ t10 → t10 ≤ 700 →
    (890000 ≤ correctionFactor alpha t10 ∧ correctionFactor alpha t10 ≤ 1110000) ∧
      correctionFactor 0 t10 = 1000000 ∧
      (∀ c : Int, c = 1000000 - (correctionFactor alpha t10 : Int) →
        |20 * c - 2 * ((alpha : Int) * (t10 - 150))| ≤ 10 ∧
          (20 * c - 2 * ((alpha : Int) * (t10 - 150)) = 10 → 0 < c) ∧
          (20 * c - 2 * ((alpha : Int) * (t10 - 150)) = -10 → c < 0)) ∧
      (150 ≤ t10 → correctionFactor alpha t10 ≤ 1000000) ∧ (t10 ≤ 150 → 1000000 ≤ correctionFactor alpha t10)) ∧
  ∀ (table : List (Nat × Nat)) (rate : Nat), table.Pairwise (fun x y => x.1 < y.1) →
    (table = [] → meterFactor table rate = 1000000) ∧
      (∀ p, table.head? = some p → rate ≤ p.1 → meterFactor table rate = p.2) ∧
      (∀ p, table.getLast? = some p → p.1 ≤ rate → meterFactor table rate = p.2) ∧
      (∀ i p q, table[i]? = some p → table[i + 1]? = some q → p.1 ≤ rate → rate ≤ q.1 →
        ∀ span err : Int, span = (q.1 : Int) - (p.1 : Int) →
          err =
            (meterFactor table rate : Int) * span -
              ((p.2 : Int) * span + ((q.2 : Int) - (p.2 : Int)) * ((rate : Int) - (p.1 : Int))) →
            -span < 2 * err ∧ 2 * err ≤ span) ∧
      ∀ lo hi, table ≠ [] → (∀ x ∈ table, lo ≤ x.2 ∧ x.2 ≤ hi) →
        lo ≤ meterFactor table rate ∧ meterFactor table rate ≤ hi

/-! ### Suction and pump -/

/-- SELECTOR_ARRIVAL ends the travel: with a waiting point admitted the selector is HELD there and the point flows; with
no point admitted and none waiting it is IDLE there. SUCTION_HOLD_EXPIRY gives up a held claim: the last claim on a HELD
compartment releases the selector, which stays IDLE where nothing waits. Where one or both points wait for compartments
that are not barred, that release, and an arrival with no point admitted, make the pick of R97: of two, the point of its
table (FIXED, LOWEST, ROTATE) is the winner and last granted. Its compartment is granted with every request for it: where
the selector stands there they flow at once, and else it travels there with them admitted. A request for another
compartment stays waiting. A timer's row is its expiry whatever time was left: the model's choice (log entry 32). -/
def Obligations.SelectorArrivesAndReleases : Prop :=
  (∀ (s : State) (p : PointId) (c : CompId),
    (s.arbiter.selector = .moving c →
      (∀ d, s.arbiter.admitted.get p = true → (s.point p).state = .waitSuction → (s.point p).context = some d →
        cLof d.net_uL + (s.point p).closeAhead < d.limit → (s.point p).pressWait = none →
          ∃ t : State, exec .selectorArrival s = .next t ∧ s.Flows t p d ∧ t.arbiter.selector = .held c ∧
            t.arbiter.motor = false ∧ t.arbiter.travel = none ∧ t.arbiter.admitted = { a := false, b := false }) ∧
      (s.arbiter.admitted = { a := false, b := false } → s.arbiter.waiting = { a := none, b := none } →
        ∃ t : State, exec .selectorArrival s = .next t ∧ t.arbiter.selector = .idle (some c) ∧ t.arbiter.motor = false ∧
          t.arbiter.travel = none ∧ (∀ q, t.point q = s.point q))) ∧
    ((s.arbiter.hold.get p).isSome = true → s.arbiter.waiting = { a := none, b := none } →
      s.arbiter.selector = .held c →
        (s.arbiter.claims.get p.other = .none →
          ∃ t : State, exec (.suctionHoldExpiry p) s = .next t ∧ t.arbiter.selector = .idle (some c) ∧
            t.arbiter.claims.get p = .none ∧ t.arbiter.hold.get p = none ∧ (∀ q, t.point q = s.point q)) ∧
        (s.arbiter.claims.get p.other ≠ .none →
          ∃ t : State, exec (.suctionHoldExpiry p) s = .next t ∧ t.arbiter.selector = .held c ∧
            t.arbiter.claims.get p = .none ∧ t.arbiter.hold.get p = none ∧
            t.arbiter.claims.get p.other = s.arbiter.claims.get p.other))) ∧
  ∀ (s : State) (i : Instr) (p : PointId) (c : CompId),
    ((i = .selectorArrival ∧ s.arbiter.selector = .moving c) ∨
      (i = .suctionHoldExpiry p ∧ s.arbiter.selector = .held c ∧ (s.arbiter.hold.get p).isSome = true ∧
        s.arbiter.claims.get p.other = .none)) →
    s.arbiter.admitted = { a := false, b := false } → s.loader.state = .none → s.loader.current = none →
      ∀ (w : PointId) (e : CompId), s.arbiter.waiting.get w = some e → s.barred e = false →
        (∀ l, s.arbiter.waiting.get w.other = some l → s.barred l = false → s.arbiter.WinsTie w) →
          (e ≠ c →
            ∃ t : State, exec i s = .next t ∧ t.arbiter.selector = .moving e ∧ t.arbiter.motor = true ∧
              t.arbiter.travel = some s.arbiter.travelTime ∧ t.arbiter.lastGranted = some w ∧
              (∀ q,
                (s.arbiter.waiting.get q = some e →
                  t.arbiter.admitted.get q = true ∧ t.arbiter.waiting.get q = none) ∧
                (s.arbiter.waiting.get q ≠ some e →
                  t.arbiter.admitted.get q = false ∧ t.arbiter.waiting.get q = s.arbiter.waiting.get q)) ∧
              ∀ q, t.point q = s.point q) ∧
          (e = c →
            (∀ q, s.arbiter.waiting.get q = some e →
              (s.point q).state = .waitSuction ∧ (s.point q).pressWait = none ∧
                ∃ d, (s.point q).context = some d ∧ cLof d.net_uL + (s.point q).closeAhead < d.limit) →
              ∃ t : State, exec i s = .next t ∧ t.arbiter.selector = .held c ∧ t.arbiter.motor = false ∧
                t.arbiter.travel = none ∧ t.arbiter.lastGranted = some w ∧
                (∀ q d, s.arbiter.waiting.get q = some e → (s.point q).context = some d → s.Flows t q d) ∧
                ∀ q, s.arbiter.waiting.get q ≠ some e →
                  t.arbiter.waiting.get q = s.arbiter.waiting.get q ∧ t.point q = s.point q)

/-- The pump's own events: the ramp's end takes STARTING to RUNNING with the clean-run timer of 30 s; the clean-run
timer clears the retry counter; a change of what is sensed is stored, and each tested kind's deglitch timer starts where
its condition now stands and stops where it does not. Of a pump latched with AUTO_CLEAR the clear timer starts when the
supply comes back within its bounds and stops when it leaves them (R109). The no-flow timer (R106) starts where RUNNING
is entered, or a window of a flowing point ends, with a summed rate below the minimum rate, and stops, with its reported
mark cleared, where that rate is reached. A kind taken out of OFF while its condition stood is tested in the same way: the
model's choice (log entry 36). A timer's row is its expiry whatever time was left: the model's choice (log entry 32). -/
def Obligations.PumpEventsAct : Prop :=
  ∀ s : State,
    (s.pump.state = .starting → s.pump.ramp.isSome = true →
      ∃ t : State, exec .pumpRampExpiry s = .next t ∧ { t with pump := s.pump } = s ∧ t.pump.state = .running ∧
        t.pump.ramp = none ∧ t.pump.cleanRun = some 300 ∧ t.pump.drive = s.pump.drive ∧
        t.pump.retryCount = s.pump.retryCount ∧ s.NoFlowFollows t) ∧
    (s.pump.cleanRun.isSome = true →
      exec .cleanRunExpiry s = .next (s.setPump { s.pump with cleanRun := none, retryCount := 0 })) ∧
    (∀ p probe, s.inReset = false → s.pump.state = .running → s.flowingOnHeld p = true →
      ∃ t : State, exec (.meterWindowEnd (channelFor p) probe) s = .next t ∧
        (t.flowingOnHeld p = true → t.pump.state = .running ∧ s.NoFlowFollows t)) ∧
    (∀ speed current supply, s.inReset = false →
      ∃ t : State, exec (.pumpSenseChange speed current supply) s = .next t ∧ { t with pump := s.pump } = s ∧
        t.pump.speed = speed ∧ t.pump.current = current ∧ t.pump.supply = supply ∧ t.pump.state = s.pump.state ∧
        t.pump.drive = s.pump.drive ∧ t.pump.latched = s.pump.latched ∧
        (∀ k, s.pump.state = .latched → s.pump.latched = some (k, true) →
          (supply = .within → s.pump.supply ≠ .within → t.pump.clear = some (s.pump.faults.get k).deglitch) ∧
            (supply = .within → s.pump.supply = .within → t.pump.clear = s.pump.clear) ∧
            (supply ≠ .within → t.pump.clear = none)) ∧
        (s.pump.state ≠ .latched ∨ (∀ k, s.pump.latched ≠ some (k, true)) → t.pump.clear = s.pump.clear) ∧
        ∀ k, (k = .stall ∨ k = .dryRun ∨ k = .supplyLow ∨ k = .supplyHigh) → (s.pump.faults.get k).action ≠ .off →
          (s.pump.state.tests k = true →
            Pump.condition { s.pump with speed := speed, current := current, supply := supply } k = true →
            s.pump.deglitch.get k = none → s.pump.reported.get k = false →
            ¬ (s.pump.present k = true ∧ s.pump.state = .latched) →
              t.pump.deglitch.get k = some (s.pump.faults.get k).deglitch) ∧
          (¬ (s.pump.state.tests k = true ∧
              Pump.condition { s.pump with speed := speed, current := current, supply := supply } k = true) →
            t.pump.deglitch.get k = none ∧ t.pump.reported.get k = false))

/-- A detected fault acts by its kind's setting, the fault row being the detection: LATCH and AUTO_CLEAR stop the pump
and latch it, RETRY below the retry limit stops it and starts the retry timer, and each suspends every point that is
FLOWING or waits for suction and raises PUMP_FAULT on every port; RETRY at the retry limit acts as LATCH (R108). REPORT
leaves the pump and the points, becomes the last fault with its reported mark, and raises PUMP_FAULT, which is not raised
again while the mark stands (R110). Of the kinds detected together with the one that stops the pump, whose timers have run
out, a STALL or DRY_RUN is dropped, and a NO_FLOW or supply kind is not: its row, taken second, finds the pump in RETRY_WAIT
or LATCHED, and so does an OVERCURRENT (R105). A LATCH latches from RETRY_WAIT. THE MODEL'S CHOICE (log entry 11): a kind
that finds the pump LATCHED becomes the last fault and is notified, but the latched cause stays the one that latched, and a
RETRY does not leave LATCHED. A timer's row is its expiry whatever time was left: the model's choice (log entry 32). -/
def Obligations.PumpFaultsAct : Prop :=
  ∀ (s : State) (i : Instr) (k : FaultKind),
    ((i = .faultDeglitchExpiry k ∧ (s.pump.deglitch.get k).isSome = true ∧ k ≠ .dryRun) ∨
      (i = .noFlowTimerExpiry ∧ k = .noFlow ∧ s.pump.noFlow.isSome = true) ∨
      (i = .pumpOvercurrent ∧ k = .overcurrent ∧ s.pump.state ≠ .stopped)) →
      let second (x : Pump) : Prop :=
        x.noFlow = (if s.pump.noFlow = some 0 ∧ i ≠ .noFlowTimerExpiry then some 0 else none) ∧
          x.deglitch.stall = none ∧ x.deglitch.dryRun = none ∧
          ∀ j, j = .supplyLow ∨ j = .supplyHigh → j ≠ k → s.pump.deglitch.get j = some 0 → x.deglitch.get j = some 0
      (∀ auto : Bool,
        (s.pump.faults.get k).action = (if auto then FaultAction.autoClear else .latch) ∨
          (auto = false ∧ (s.pump.faults.get k).action = .retry ∧
            ∃ n, s.pump.retryLimit = some n ∧ n ≤ s.pump.retryCount) →
          (s.pump.state ≠ .latched →
            ∃ t : State, exec i s = .next t ∧ t.pump.state = .latched ∧ t.pump.drive = false ∧
              t.pump.latched = some (k, auto) ∧ t.pump.lastFault = some (k, .latch) ∧ t.pump.ramp = none ∧
              second t.pump ∧ t.pump.cleanRun = none ∧ t.pump.retry = none ∧
              t.pump.retryCount = s.pump.retryCount ∧ (k = .supplyLow ∨ k = .supplyHigh → t.pump.present k = true) ∧
              (∀ p, (s.point p).state.wantsFlow = true → s.Suspended t p .pumpFault) ∧
              (∀ p, (s.point p).state.wantsFlow = false → t.point p = s.point p) ∧
              ∀ o, (t.port o).has .pumpFault = true) ∧
          (s.pump.state = .latched →
            ∃ t : State, exec i s = .next t ∧ t.pump.state = .latched ∧ t.pump.drive = false ∧
              t.pump.latched = s.pump.latched ∧ t.pump.clear = s.pump.clear ∧ t.pump.lastFault = some (k, .latch) ∧
              second t.pump ∧ (k = .supplyLow ∨ k = .supplyHigh → t.pump.present k = true) ∧
              t.pump.retryCount = s.pump.retryCount ∧ ∀ o, (t.port o).has .pumpFault = true)) ∧
      ((s.pump.faults.get k).action = .retry →
        s.pump.retryLimit = none ∨ (∃ n, s.pump.retryLimit = some n ∧ s.pump.retryCount < n) →
          (s.pump.state ≠ .latched →
            ∃ t : State, exec i s = .next t ∧ t.pump.state = .retryWait ∧ t.pump.drive = false ∧
              t.pump.retryCount = min 10 (s.pump.retryCount + 1) ∧ t.pump.retry = some s.pump.retryTime ∧
              t.pump.lastFault = some (k, .retry) ∧ second t.pump ∧
              (∀ p, (s.point p).state.wantsFlow = true → s.Suspended t p .pumpFault) ∧
              ∀ o, (t.port o).has .pumpFault = true) ∧
          (s.pump.state = .latched →
            ∃ t : State, exec i s = .next t ∧
              t.pump =
                { s.pump with
                  lastFault := some (k, .retry), deglitch := s.pump.deglitch.set k none
                  noFlow := if i = .noFlowTimerExpiry then none else s.pump.noFlow } ∧
              ∀ o, (t.port o).has .pumpFault = true)) ∧
      ((s.pump.faults.get k).action = .report → ∀ u : State,
        u =
            s.setPump
              { s.pump with
                lastFault := some (k, .report), reported := s.pump.reported.set k (s.pump.state.tests k)
                deglitch := s.pump.deglitch.set k none
                noFlow := if i = .noFlowTimerExpiry then none else s.pump.noFlow } →
          (s.pump.reported.get k = false → Gives i s (u.raise .pumpFault)) ∧
          (s.pump.reported.get k = true → Gives i s u))

/-- What lets the pump run again: the retry timer in RETRY_WAIT, the clear timer in LATCHED, and CLEAR_PUMP_FAULT in
LATCHED with the supply within its bounds, which also clears the retry counter; each lifts the points suspended by the
fault. A supply still out of bounds refuses CLEAR_PUMP_FAULT, and a pump not LATCHED gives WRONG_STATE. A timer's row is
its expiry whatever time was left: the model's choice (log entry 32). -/
def Obligations.PumpIsReleased : Prop :=
  ∀ (s u : State) (r : Req),
    (s.pump.state = .retryWait → s.pump.retry.isSome = true →
      ∃ t : State, exec .retryTimerExpiry s = .next t ∧ s.Released t ∧ t.pump.retryCount = s.pump.retryCount) ∧
    (s.pump.state = .latched → s.pump.clear.isSome = true →
      ∃ t : State, exec .clearTimerExpiry s = .next t ∧ s.Released t ∧ t.pump.retryCount = s.pump.retryCount) ∧
    (s.takes r .operate → u = s.frameReceived r.port →
      (u.pump.state = .latched → u.pump.supply = .within →
        ∃ t : State, exec (.clearPumpFault r) s = .next (t.answer r.port (Reply.ok.response r.tag 0x17)) ∧ u.Released t ∧
          t.pump.retryCount = 0) ∧
      (u.pump.state = .latched → u.pump.supply ≠ .within →
        Answers (.clearPumpFault r) s r 0x17 u (Reply.refused .faultPresent)) ∧
      (u.pump.state ≠ .latched → Answers (.clearPumpFault r) s r 0x17 u (Reply.of .wrongState)))

/-- A DRY_RUN detected on the held compartment, with each of its actions: LATCH, or RETRY at the retry limit, latches the
pump, RETRY below it waits for the retry timer, REPORT leaves the pump and is the last fault (R107, R108, R110). The
compartment is marked SUCTION_LOST; away from empty the delivery keeps its segment. Near empty it is EMPTY, and the one
delivery drawing on it, unless its point is in FINISHING, is switched or ended (R112, R113). Ended with STOCK_EMPTY where
it has two segments, where there is no target, or where what is left is below the minimum delivery. Else it moves to a
second segment on the target with the most available stock, its remaining limit with it; where that stock is below the
remainder the limit is lowered to it first, with source STOCK and the reservations of machine and account, also where it
is then ended, and a point that has come within its close-ahead goes to FINISHING with LIMIT. A point that was FLOWING or
waiting is SUSPENDED with PUMP_FAULT, or with SUCTION_LOST under REPORT. The minimum is the one that stood at the
delivery's authorisation, which a later setting does not reach (R61; log entry 35). A RETRY does not leave LATCHED (log
entry 11). A timer's row is its expiry whatever time was left: the model's choice (log entry 32). -/
def Obligations.DryRunSwitchesOrEnds : Prop :=
  ∀ (s : State) (p : PointId) (c : CompId) (x : Compartment) (d : Delivery) (action : FaultAction),
    s.pump.deglitch.dryRun.isSome = true → s.pump.faults.dryRun.action = action →
    action = .latch ∨ action = .retry ∨ action = .report →
    s.arbiter.selector = .held c → s.comp c = some x → (s.point p).context = some d → d.current.comp = c →
    (s.point p).state.unfinished = true → (s.point p.other).context = none →
      let suspended (k : Cause) : PointState :=
        if (s.point p).state.wantsFlow then .suspended k else (s.point p).state
      let cause : Cause := if action = .report then .suctionLost else .pumpFault
      ∃ t : State, exec (.faultDeglitchExpiry .dryRun) s = .next t ∧
        (action = .latch ∨ (action = .retry ∧ s.pump.mayRetry = false) →
          t.pump.state = .latched ∧ t.pump.lastFault = some (.dryRun, .latch) ∧
            (s.pump.state ≠ .latched → t.pump.latched = some (.dryRun, false))) ∧
        (action = .retry → s.pump.mayRetry = true → s.pump.state ≠ .latched →
          t.pump.state = .retryWait ∧ t.pump.retry = some s.pump.retryTime ∧
            t.pump.lastFault = some (.dryRun, .retry)) ∧
        (action = .report → t.pump.lastFault = some (.dryRun, .report)) ∧
        (t.comp c).any (fun y => y.suctionLost) = true ∧
        (x.heel + x.margin < s.drawnDown c →
          (t.point p).context = some d ∧ (action ≠ .report → (t.point p).state = suspended .pumpFault) ∧
            (action = .report → (s.point p).state ≠ .waitSuction → t.point p = s.point p)) ∧
        (s.drawnDown c ≤ x.heel + x.margin →
          let ended (e : Delivery) : Prop :=
            (t.point p).state = .finishing ∧ (t.point p).pendingEnd = some .stockEmpty ∧ (t.point p).context = some e
          (t.comp c).map (fun y => y.state) = some .empty ∧ t.arbiter.claims.get p = .none ∧
          (d.earlier.isSome = true ∨ s.mostStock (s.isTarget c d.product) = none → ended d) ∧
          (d.earlier = none → ∀ e, s.mostStock (s.isTarget c d.product) = some e →
            ∀ v left room, v = cLof d.current.net_uL → left = d.limit - v → room = s.availableOn e →
              (left ≤ room →
                (left < d.minimum → ended d) ∧
                (d.minimum ≤ left →
                  (t.point p).context =
                      some
                        { d with
                          earlier := some { d.current with remaining := 0 }
                          current := { comp := e, net_uL := 0, remaining := left } } ∧
                    (t.point p).state = suspended cause ∧
                    (∀ f, (t.comp f).map (fun y => y.reserved) =
                      (s.comp f).map fun y =>
                        if f = c then y.reserved - d.current.remaining
                        else if f = e then y.reserved + left
                        else y.reserved))) ∧
              (room < left →
                ∀ cut (low : Delivery), cut = min (d.limit - (v + room)) d.current.remaining →
                  low =
                      { d with
                        limit := v + room, source := .stock, reservation := reservationFor (v + room) d.price
                        current := { d.current with remaining := d.current.remaining - cut } } →
                    (∀ n, findMachine t.roster n =
                      (findMachine s.roster n).map fun m => if n = d.machine then { m with reserved := v + room } else m) ∧
                    (∀ n, findAccount t.accounts n =
                      (findAccount s.accounts n).map fun a =>
                        if n = d.account then
                          { a with reserved := a.reserved - (d.reservation - reservationFor (v + room) d.price) }
                        else a) ∧
                    (room < d.minimum →
                      ended low ∧
                        ∀ f, (t.comp f).map (fun y => y.reserved) =
                          (s.comp f).map fun y => if f = c then y.reserved - cut else y.reserved) ∧
                    (d.minimum ≤ room →
                      (t.point p).context =
                          some
                            { low with
                              earlier := some { d.current with remaining := 0 }
                              current := { comp := e, net_uL := 0, remaining := room } } ∧
                        (v + room ≤ cLof d.net_uL + (s.point p).closeAhead →
                          (t.point p).state = .finishing ∧ (t.point p).pendingEnd = some .limit) ∧
                        (cLof d.net_uL + (s.point p).closeAhead < v + room →
                          (t.point p).state = suspended cause) ∧
                        ∀ f, (t.comp f).map (fun y => y.reserved) =
                          (s.comp f).map fun y =>
                            if f = c then y.reserved - d.current.remaining
                            else if f = e then y.reserved + room
                            else y.reserved))))

/-! ### Limits -/

/-- The limit is the least of the terms that apply, and its source the first of those that give it, in the order of
the table of R55: PRESET, TANK, SHIFT_ALLOWANCE, DAY_ALLOWANCE, CREDIT, STOCK, MANUAL_CAP. -/
def Obligations.LimitIsTheLeastTerm : Prop :=
  ∀ (preset : Option Preset) (r : AuthRequest) (a : Account) (price available cap : Nat)
    (term : LimitSource → Option Nat),
    term .preset =
      preset.map (fun x => match x with | .volume v => v | .amount cents => cents * 1000 / price) →
    term .tank =
      some (match r.level with | some q => r.machine.capacity * (100 - q) / 100 | none => r.machine.capacity) →
    term .shiftAllowance =
      (if r.machine.shiftAllowance = 0 then none
      else some ((r.machine.shiftAllowance : Int) - (r.machine.shiftUsage : Int)).toNat) →
    term .dayAllowance =
      (if r.machine.dayAllowance = 0 then none
      else some ((r.machine.dayAllowance : Int) - (r.machine.dayUsage : Int)).toNat) →
    term .credit =
      (if a.credit = 0 then none
      else some (((a.credit : Int) - (a.spent : Int) - (a.reserved : Int)).toNat * 1000 / price)) →
    term .stock = some available → term .manualCap = (if r.ident = .manual then some cap else none) →
      ∀ limit source, limitOf (limitTerms preset r a price available cap) = (limit, source) →
        term source = some limit ∧
          ∀ other v, term other = some v → limit ≤ v ∧ (v = limit → source.code ≤ other.code)

/-! ### Loading -/

/-- OPEN_LOAD_PLAN, CLOSE_LOAD_PLAN and APPEND_LOAD_ENTRY by the plan's state: a plan opens from NONE outside
WAKE_SETTLE; closed without a current entry, or with a DUE or WAITING one, which ends without a receipt, it is NONE at
once; with a LOADING one, sent to SETTLING, or a SETTLING one it is CLOSING, and its staged entries go; an entry
appended behind a LOADING or SETTLING one is staged at its place; appended to an empty plan it becomes current, DUE on
an out-of-service compartment, with its journal slot reserved, its compartment DRAINING and LOAD_STAGE_EMPTY raised;
on a free compartment with ullage it starts LOADING. THE MODEL'S CHOICE (log entry 9): the answer of APPEND_LOAD_ENTRY
is 0 for current or 1 for staged, then the place. -/
def Obligations.LoadPlanCommandsAct : Prop :=
  ∀ (r : Req) (s u : State), s.takes r .operateOrAccount → u = s.frameReceived r.port →
    (∀ raw docket, readOpt (List.replicate 12 0) (printableCode 12) raw = some docket → u.loader.state = .none →
      u.power.state ≠ .wakeSettle →
        Answers (.openLoadPlan r raw) s r 0x20
          (u.setLoader
            { u.loader with
              state := .opened, docket := docket, current := none, staged := [], paused := false
              stageEmpty := false })
          Reply.ok) ∧
    (∀ raw docket, readOpt (List.replicate 12 0) (printableCode 12) raw = some docket →
      (u.loader.state ≠ .none ∨ u.power.state = .wakeSettle) →
        Answers (.openLoadPlan r raw) s r 0x20 u (Reply.of .wrongState)) ∧
    (u.loader.state = .opened → u.loader.current = none →
      ∃ t, Answers (.closeLoadPlan r) s r 0x23 t Reply.ok ∧
        t.loader =
          { u.loader with
            state := .none, docket := none, staged := [], paused := false, stageEmpty := false } ∧
        (u.loader.stageEmpty = true → ∀ o, (t.port o).has .loadStageEmpty = false) ∧
        { t with loader := u.loader, ports := u.ports } = u) ∧
    (∀ e x, u.loader.state = .opened → u.loader.current = some e → e.state = .loading → e.context = some x →
      ∃ t : State, exec (.closeLoadPlan r) s = .next (t.answer r.port (Reply.ok.response r.tag 0x23)) ∧
        t.loader.state = .closing ∧ t.loader.staged = [] ∧ t.loader.inlets.get e.comp = false ∧
        t.loader.current =
          some { e with state := .settling, context := some { x with pendingEnd := some .operatorStop } } ∧
        t.loader.settle = some u.times.meterSettle) ∧
    (∀ e, u.loader.state = .opened → u.loader.current = some e → e.state = .settling →
      Answers (.closeLoadPlan r) s r 0x23
        (u.setLoader { u.loader with state := .closing, staged := [], paused := false }) Reply.ok) ∧
    (∀ e, u.loader.state = .opened → u.loader.current = some e → (e.state = .due ∨ e.state = .waiting) →
      ∃ t : State, exec (.closeLoadPlan r) s = .next (t.answer r.port (Reply.ok.response r.tag 0x23)) ∧
        t.loader.state = .none ∧ t.loader.current = none ∧ t.loader.staged = [] ∧ t.loader.docket = none ∧
        t.loader.paused = false ∧ t.loader.stageEmpty = false ∧
        t.loader.lastResult = some { seq := none, comp := e.comp, cause := .operatorStop } ∧
        t.journal = { u.journal with reserved := u.journal.reserved - 1 } ∧
        (∀ c, t.comp c = (u.comp c).map fun x => if c = e.comp then { x with draining := false } else x) ∧
        t.channels = u.channels ∧ (t.port .operator).has .loadDone = true ∧ (t.port .office).has .loadDone = true ∧
        (u.loader.stageEmpty = true → ∀ o, (t.port o).has .loadStageEmpty = false)) ∧
    (u.loader.state ≠ .opened → Answers (.closeLoadPlan r) s r 0x23 u (Reply.of .wrongState)) ∧
    (∀ n c v target e, num4Of n = some c → targetOf v = some target → u.loader.state = .opened →
      (u.comp c).isSome = true → u.loader.staged.length < 4 → u.loader.current = some e →
      (e.state = .loading ∨ e.state = .settling) →
        ∃ t : State,
          exec (.appendLoadEntry r n v) s =
              .next
                (t.answer r.port
                  ((Reply.okWith [fld 1 1, fld 4 (u.loader.staged.length + 1)]).response r.tag 0x21)) ∧
            t.loader.staged = u.loader.staged ++ [{ comp := c, target := target }] ∧
            t.loader.current = some e ∧ t.loader.stageEmpty = false ∧ t.journal = u.journal) ∧
    (∀ n c v target x, num4Of n = some c → targetOf v = some target → u.loader.state = .opened →
      u.comp c = some x → u.loader.staged = [] → u.loader.current = none → u.journal.canReserve = true →
        ∃ t : State,
          exec (.appendLoadEntry r n v) s =
              .next (t.answer r.port ((Reply.okWith [fld 1 0, fld 4 0]).response r.tag 0x21)) ∧
            (x.state = .outOfService →
              t.loader.current = some { comp := c, target := target, state := .due, context := none } ∧
                t.loader.staged = [] ∧ t.loader.stageEmpty = true ∧ t.journal.reserved = u.journal.reserved + 1 ∧
                t.comp c = some { x with draining := true } ∧ (t.port .operator).has .loadStageEmpty = true) ∧
            (x.state ≠ .outOfService → u.arbiter.selector.holds c = false → u.segmentOn c = false →
              (100 : Int) ≤ x.ullage → u.loader.closeAhead < (target.used x.ullage.toNat).1 →
              u.loader.highLevel.get c = false →
                (t.comp c).any (fun y => y.state == .loading) = true ∧ t.loader.inlets.get c = true ∧
                  t.channels.third.bound = true ∧
                  ∃ e y, t.loader.current = some e ∧ e.comp = c ∧ e.state = .loading ∧ e.context = some y ∧
                    y.product = x.product ∧ y.used = (target.used x.ullage.toNat).1 ∧ y.net_uL = 0)) ∧
    (∀ n c v target, num4Of n = some c → targetOf v = some target → u.loader.state = .opened →
      (u.comp c).isSome = true → 4 ≤ u.loader.staged.length →
        Answers (.appendLoadEntry r n v) s r 0x21 u (Reply.of .full))

/-- What ends the LOADING of the current entry: STOP_LOAD, the no-flow timer and its compartment's high-level switch
close the inlet valve, stop the no-flow timer and go to SETTLING with their cause; the compartment and the journal stay
as they were. STOP_LOAD keeps a SETTLING entry as it is, and without an entry is WRONG_STATE. A DUE or WAITING entry it
ends at once without a receipt (R146): the slot returned, DRAINING clear, the result NO_RECORD with OPERATOR_STOP,
LOAD_DONE raised, no record written; then the head staged entry, where there is one, is promoted. A timer's row is its
expiry whatever time was left: the model's choice (log entry 32). -/
def Obligations.LoadingIsStopped : Prop :=
  ∀ (r : Req) (s : State),
    (∀ u e x, s.takes r .operateOrAccount → u = s.frameReceived r.port → u.loader.current = some e →
      e.state = .loading → e.context = some x →
        ∃ t : State, exec (.stopLoad r) s = .next (t.answer r.port (Reply.ok.response r.tag 0x22)) ∧
          t.loader = u.loader.settling e x .operatorStop u.times.meterSettle ∧ t.stock = u.stock ∧
          t.journal = u.journal) ∧
    (∀ u e, s.takes r .operateOrAccount → u = s.frameReceived r.port → u.loader.current = some e →
      e.state = .settling → Answers (.stopLoad r) s r 0x22 u Reply.ok) ∧
    (∀ u, s.takes r .operateOrAccount → u = s.frameReceived r.port → u.loader.current = none →
      Answers (.stopLoad r) s r 0x22 u (Reply.of .wrongState)) ∧
    (∀ u e, s.takes r .operateOrAccount → u = s.frameReceived r.port → u.loader.current = some e →
      (e.state = .due ∨ e.state = .waiting) →
        ∃ t : State, exec (.stopLoad r) s = .next (t.answer r.port (Reply.ok.response r.tag 0x22)) ∧
          t.journal.records = u.journal.records ∧ (t.port .operator).has .loadDone = true ∧
          (t.port .office).has .loadDone = true ∧
          (u.loader.staged = [] →
            t.loader.current = none ∧ t.loader.staged = [] ∧ (u.loader.state = .opened → t.loader.state = .opened) ∧
              t.loader.lastResult = some { seq := none, comp := e.comp, cause := .operatorStop } ∧
              t.journal = { u.journal with reserved := u.journal.reserved - 1 } ∧
              (∀ c, t.comp c = (u.comp c).map fun x => if c = e.comp then { x with draining := false } else x) ∧
              t.channels = u.channels) ∧
          ∀ h rest w, u.loader.state = .opened → u.loader.staged = h :: rest → u.comp h.comp = some w →
            u.journal.canReserve = true → u.Promotes t h rest w) ∧
    (∀ e x, s.loader.noFlow.isSome = true → s.loader.current = some e → e.state = .loading → e.context = some x →
      exec .loadNoFlowExpiry s =
        .next (s.setLoader (s.loader.settling e x .supplyStopped s.times.meterSettle))) ∧
    (∀ e x, s.inReset = false → s.loader.highLevel.get e.comp = false → s.loader.current = some e →
      e.state = .loading → e.context = some x →
        exec (.highLevelSwitch e.comp true) s =
          .next
            (s.setLoader
              { s.loader.settling e x .highLevel s.times.meterSettle with
                highLevel := s.loader.highLevel.set e.comp true })) ∧
    (∀ c, exec (.highLevelSwitch c false) s =
      .next (s.setLoader { s.loader with highLevel := s.loader.highLevel.set c false }))

/-- LOAD_SETTLE_EXPIRY closes the SETTLING entry with its receipt: channel LOAD unbound, the RECEIPT record written into
the entry's slot as the newest, the net volume added to the book, the compartment IN_SERVICE with DRAINING and
SUCTION_LOST clear, LOAD_DONE raised and a CLOSING plan NONE. With a staged entry behind it in an OPEN plan, the head of
the staged entries is then promoted, onto the same compartment too; without a slot for it the plan pauses and keeps it.
A timer's row is its expiry whatever time was left: the model's choice (log entry 32). -/
def Obligations.ReceiptClosesTheEntry : Prop :=
  ∀ (s : State) (e : Entry) (x : LoadContext) (y : Compartment) (cause : EndCause), s.loader.settle.isSome = true →
    s.loader.current = some e → e.context = some x → x.pendingEnd = some cause → s.comp e.comp = some y →
      ∃ (t : State) (rec : Record), exec .loadSettleExpiry s = .next t ∧ t.journal.records = s.journal.records ++ [rec] ∧
        rec.seq = s.journal.next ∧
        rec.body =
          .receipt
            (receiptOf e x y.book (min Config.bookMax (y.book + cLof x.net_uL)) cause false) ∧
        (t.comp e.comp).map (fun z => (z.book, z.suctionLost, z.reserved)) =
          some (min Config.bookMax (y.book + cLof x.net_uL), false, y.reserved) ∧
        (t.port .operator).has .loadDone = true ∧ (t.port .office).has .loadDone = true ∧
        (s.loader.staged = [] →
          t.journal.reserved = s.journal.reserved - 1 ∧ t.loader.current = none ∧
            t.loader.lastResult = some { seq := some rec.seq, comp := e.comp, cause := cause } ∧
            t.loader.inlets.get e.comp = false ∧ (s.loader.state = .closing → t.loader.state = .none) ∧
            t.channels.third.bound = false ∧
            (t.comp e.comp).map (fun z => (z.state, z.draining)) = some (.inService, false)) ∧
        ∀ h rest w, s.loader.state = .opened → s.loader.staged = h :: rest → s.comp h.comp = some w →
          0 < s.journal.reserved →
            (s.journal.canReserve = true →
              ∃ z, s.Promotes t h rest z ∧ z.product = w.product ∧ z.capacity = w.capacity ∧
                z.safeFill = w.safeFill ∧
                (h.comp = e.comp → z.state = .inService ∧ z.book = min Config.bookMax (w.book + cLof x.net_uL)) ∧
                (h.comp ≠ e.comp → z = w)) ∧
            (s.journal.canReserve = false →
              t.loader.current = none ∧ t.loader.paused = true ∧ t.loader.staged = h :: rest ∧
                t.loader.lastResult = some { seq := some rec.seq, comp := e.comp, cause := cause } ∧
                (s.loader.paused = false → (t.port .operator).has .journalFull = true))

/-! ### Compartments -/

/-- SET_COMPARTMENT_SERVICE by the table of R117, the other blocks following; ADJUST_STOCK where nothing draws on the
compartment and the journal has room: the record written, the book set, SUCTION_LOST and VARIANCE clear, EMPTY back in
service and any other state kept, but that an entry of the plan that names the compartment may then start to load it;
SET_STOCK_LIMITS: both limits stored. -/
def Obligations.StockCommandsAct : Prop :=
  ∀ (r : Req) (s u : State) (n : Nat) (c : CompId) (x : Compartment), u = s.frameReceived r.port → num4Of n = some c →
    u.comp c = some x →
      (s.takes r .operateOrAccount →
        (x.state = .inService ∨ x.state = .outOfService →
          AnswersAfter (.setCompartmentService r n 1) s r 0x24 (u.setComp c (some { x with state := .inService }))
            Reply.ok) ∧
        (x.state = .empty ∨ x.state = .loading →
          Answers (.setCompartmentService r n 1) s r 0x24 u (Reply.of .wrongState)) ∧
        (x.state ≠ .loading →
          AnswersAfter (.setCompartmentService r n 0) s r 0x24 (u.setComp c (some { x with state := .outOfService }))
            Reply.ok) ∧
        (x.state = .loading →
          Answers (.setCompartmentService r n 0) s r 0x24 u (Reply.of .wrongState))) ∧
      (s.takes r .account →
        (∀ book, book ≤ 99999999 → u.segmentOn c = false → x.state ≠ .loading → u.journal.hasRoom = true →
          ∃ (t : State) (rec : Record), exec (.adjustStock r n book) s = .next (t.answer r.port (Reply.ok.response r.tag 0x37)) ∧
            t.journal.records = u.journal.records ++ [rec] ∧ rec.seq = u.journal.next ∧
            rec.body = .stockAdjust c x.product x.book book ((u.gauge c).map fun g => g.net) ∧
            (t.comp c).map (fun y => (y.book, y.reserved, y.suctionLost, y.variance)) =
              some (book, x.reserved, false, false) ∧
            (∀ y, t.comp c = some y →
              (y.state = (if x.state = .empty then .inService else x.state) ∨
                (u.planNames c = true ∧ y.state = .loading)))) ∧
        (∀ book, book ≤ 99999999 → (u.segmentOn c = true ∨ x.state = .loading) →
          Answers (.adjustStock r n book) s r 0x37 u (Reply.of .busy)) ∧
        (∀ book, book ≤ 99999999 → u.segmentOn c = false → x.state ≠ .loading → u.journal.hasRoom = false →
          Answers (.adjustStock r n book) s r 0x37 u (Reply.of .full)) ∧
        (∀ reorder tolerance, reorder ≤ 4000000 → tolerance ≤ 1000000 →
          ∃ t, Answers (.setStockLimits r n reorder tolerance) s r 0x38 t Reply.ok ∧
            t.comp c =
              some
                { x with
                  reorder := reorder, tolerance := tolerance
                  reorderSent := decide (x.available < reorder) } ∧
            (∀ d, d ≠ c → t.comp d = u.comp d) ∧ { t with stock := u.stock, ports := u.ports } = u))

/-- A reconciliation of one compartment, by RECONCILE, or by its settle timer, which then is stopped: without a valid
gauge it is NO_GAUGE, with GAUGE_INVALID once, not again while its mark stands; within the tolerance it clears VARIANCE
and raises nothing; beyond it, it sets VARIANCE, raises STOCK_VARIANCE and writes a VARIANCE record where the journal has
room; the book never moves. A valid probe reading is stored and clears the gauge fault mark. A timer's row is its expiry
whatever time was left: the model's choice (log entry 32). -/
def Obligations.StockIsReconciled : Prop :=
  ∀ (s : State) (c : CompId) (x : Compartment),
    (∀ r n u, s.takes r .operateOrAccount → u = s.frameReceived r.port → num4Of n = some c → u.comp c = some x →
      ∃ (t : State) (data : List Field), Answers (.reconcile r n) s r 0x25 t (Reply.okWith data) ∧ u.Reconciled t c x .command) ∧
    (s.comp c = some x → x.settle.isSome = true →
      ∃ t : State, exec (.stockSettleExpiry c) s = .next t ∧
        (s.setComp c (some { x with settle := none })).Reconciled t c { x with settle := none } .settle) ∧
    (∀ reading : ProbeReading, ProbeReading.valid reading = true → s.comp c = some x →
      exec (.levelProbeReading c (some reading)) s =
        .next
          (State.setComp { s with probes := s.probes.set c (some reading) } c (some { x with gaugeNoted := false }))) ∧
    (exec (.levelProbeReading c none) s = .next { s with probes := s.probes.set c none })

/-- CONFIGURE_COMPARTMENT makes a new record out of service with an empty book and its settle timer started, or
rewrites the physical settings of one that is not in use; REMOVE_COMPARTMENT discards an unused, empty one that is not
the last; SET_STRAPPING replaces the table whole. -/
def Obligations.CompartmentsAreConfigured : Prop :=
  ∀ (r : Req) (s u : State) (n : Nat) (c : CompId), s.takes r .calibrate → u = s.frameReceived r.port →
    num4Of n = some c →
      (∀ k q capacity safeFill heel margin, num4Of k = some q → 10000 ≤ capacity → capacity ≤ 4000000 →
        80 ≤ safeFill → safeFill ≤ 98 → heel ≤ 100000 → margin ≤ 50000 →
        (u.comp c = none →
          Answers (.configureCompartment r n k capacity safeFill heel margin) s r 0x48
            (u.setComp c
              (some
                { product := q, capacity := capacity, safeFill := safeFill, heel := heel, margin := margin
                  reorder := 0, tolerance := 2000, strapping := [(0, 0), (4000, 10000)], book := 0, reserved := 0
                  state := .outOfService, suctionLost := false, variance := false, reorderSent := false
                  draining := false, settle := some u.stockSettle, gaugeNoted := false, lastRec := none }))
            Reply.ok) ∧
        (∀ x, u.comp c = some x → x.state = .outOfService → u.segmentOn c = false → u.planNames c = false →
          (x.product = q ∨ x.book = 0) →
            ∃ t, Answers (.configureCompartment r n k capacity safeFill heel margin) s r 0x48 t Reply.ok ∧
              t.comp c =
                some
                  { x with
                    product := q, capacity := capacity, safeFill := safeFill, heel := heel, margin := margin
                    reorderSent :=
                      x.reorderSent || (x.reorder != 0 && decide (x.book - x.reserved - heel < x.reorder)) } ∧
              (∀ d, d ≠ c → t.comp d = u.comp d) ∧ { t with stock := u.stock, ports := u.ports } = u) ∧
        (∀ x, u.comp c = some x → (x.state ≠ .outOfService ∨ u.segmentOn c = true ∨ u.planNames c = true) →
          Answers (.configureCompartment r n k capacity safeFill heel margin) s r 0x48 u (Reply.of .busy))) ∧
      (∀ x d, u.comp c = some x → d ≠ c → (u.comp d).isSome = true → x.state = .outOfService →
        u.segmentOn c = false → u.planNames c = false → x.book = 0 →
          Answers (.removeCompartment r n) s r 0x49 (u.setComp c none) Reply.ok) ∧
      (∀ x, u.comp c = some x → (∀ d, d ≠ c → u.comp d = none) →
        Answers (.removeCompartment r n) s r 0x49 u (Reply.refused .lastCompartment)) ∧
      (∀ x points, u.comp c = some x → 2 ≤ points.length → points.length ≤ 16 →
        (∀ y ∈ points, y.1 ≤ 4000 ∧ y.2 ≤ 40000) →
        points.Pairwise (fun a b => a.1 < b.1 ∧ a.2 < b.2) →
          Answers (.setStrapping r n points) s r 0x4A (u.setComp c (some { x with strapping := points })) Reply.ok)

/-! ### Roster, accounts, products, prices -/

/-- PUT_MACHINE writes one record, whole: the fields carried, with the usages, the reserved sum and (where none is
carried) the last hours of the record it replaces, or 0 and absent; every other machine stays. DROP_MACHINE is decided
in the order of R29 and removes one record; the couplers stay as they are. -/
def Obligations.RosterIsWritten : Prop :=
  ∀ (r : Req) (s u : State), s.takes r .account → u = s.frameReceived r.port →
    (∀ raw m, readMachine raw = some m → (u.product m.product).isSome = true →
      (findAccount u.accounts m.account).isSome = true → u.tagInUse m.tagId m.number = false →
      ((findMachine u.roster m.number).isSome = true ∨ u.roster.length < 512) →
        ∃ roster, Answers (.putMachine r raw) s r 0x30 (u.setRoster roster) Reply.ok ∧
          findMachine roster m.number =
            some
              { number := m.number, tagId := m.tagId, product := m.product, capacity := m.capacity
                account := m.account, shiftAllowance := m.shiftAllowance, dayAllowance := m.dayAllowance
                shiftUsage := ((findMachine u.roster m.number).map fun x => x.shiftUsage).getD 0
                dayUsage := ((findMachine u.roster m.number).map fun x => x.dayUsage).getD 0
                reserved := ((findMachine u.roster m.number).map fun x => x.reserved).getD 0
                lastHours :=
                  if m.lastHours.isSome then m.lastHours
                  else (findMachine u.roster m.number).bind fun x => x.lastHours
                manualPermitted := m.manualPermitted, state := m.state } ∧
          ∀ k, k ≠ m.number → findMachine roster k = findMachine u.roster k) ∧
    (∀ raw m, readMachine raw = some m → (u.product m.product).isSome = true →
      (findAccount u.accounts m.account).isSome = true → u.tagInUse m.tagId m.number = true →
        Answers (.putMachine r raw) s r 0x30 u (Reply.refused .tagInUse)) ∧
    (∀ n, ¬ (1 ≤ n ∧ n ≤ 999999) → Answers (.dropMachine r n) s r 0x31 u (Reply.of .badParam)) ∧
    (∀ n, 1 ≤ n → n ≤ 999999 → findMachine u.roster n = none →
      Answers (.dropMachine r n) s r 0x31 u (Reply.of .notFound)) ∧
    (∀ n, 1 ≤ n → n ≤ 999999 → (findMachine u.roster n).isSome = true → u.machineOpen n = true →
      Answers (.dropMachine r n) s r 0x31 u (Reply.of .busy)) ∧
    (∀ n, 1 ≤ n → n ≤ 999999 → (findMachine u.roster n).isSome = true → u.machineOpen n = false →
      ∃ roster, Answers (.dropMachine r n) s r 0x31 (u.setRoster roster) Reply.ok ∧
        findMachine roster n = none ∧ ∀ k, k ≠ n → findMachine roster k = findMachine u.roster k)

/-- PUT_ACCOUNT writes one account: a new one with its credit limit, nothing spent or reserved and not stopped; an
existing one in its code, tier and closed flag alone. CREDIT_ADJUST sets the credit limit, resets spent where asked
and evaluates stopped again, with CREDIT_STOP where it becomes set; a reset writes its ACCOUNT_RESET record, or is
FULL. -/
def Obligations.AccountsAreWritten : Prop :=
  ∀ (r : Req) (s u : State) (n : Nat), s.takes r .account → u = s.frameReceived r.port → 1 ≤ n → n ≤ 64 →
    (∀ code credit k tier closed, printableCode 8 code = true → credit ≤ 99999999999 → num4Of k = some tier →
      ∃ accounts, Answers (.putAccount r n code credit k (bit closed)) s r 0x32 (u.setAccounts accounts) Reply.ok ∧
        findAccount accounts n =
          some
            (match findAccount u.accounts n with
            | some a => { a with code := code, tier := tier, closed := closed }
            | none =>
              { number := n, code := code, credit := credit, spent := 0, reserved := 0, tier := tier
                closed := closed, stopped := false }) ∧
        ∀ k, k ≠ n → findAccount accounts k = findAccount u.accounts k) ∧
    (∀ credit reset, credit ≤ 99999999999 → findAccount u.accounts n = none →
      Answers (.creditAdjust r n credit (bit reset)) s r 0x33 u (Reply.of .notFound)) ∧
    (∀ credit a, credit ≤ 99999999999 → findAccount u.accounts n = some a → u.journal.hasRoom = false →
      Answers (.creditAdjust r n credit 1) s r 0x33 u (Reply.of .full)) ∧
    (∀ credit reset a b, credit ≤ 99999999999 → findAccount u.accounts n = some a →
      (reset = true → u.journal.hasRoom = true) →
      b =
        { a with
          credit := credit, spent := if reset then 0 else a.spent
          stopped :=
            credit != 0 &&
              (decide (credit ≤ if reset then 0 else a.spent) ||
                decide (credit < (if reset then 0 else a.spent) + a.reserved)) } →
        ∃ t, Answers (.creditAdjust r n credit (bit reset)) s r 0x33 t Reply.ok ∧ findAccount t.accounts n = some b ∧
          (∀ k, k ≠ n → findAccount t.accounts k = findAccount u.accounts k) ∧
          (reset = false → t.journal = u.journal) ∧
          (reset = true →
            ∃ rec, t.journal.records = u.journal.records ++ [rec] ∧ rec.seq = u.journal.next ∧
              rec.body = .accountReset n a.code a.spent a.credit credit a.reserved) ∧
          (b.stopped = true → a.stopped = false →
            (t.port .operator).has .creditStop = true ∧ (t.port .office).has .creditStop = true) ∧
          { t with accounts := u.accounts, journal := u.journal, ports := u.ports } = u)

/-- PUT_PRODUCT, STAGE_PRICES, SET_LIMIT_SETTINGS and SET_SUCTION_POLICY write their item alone: a product record; the
staged table, which with NOW takes over at once with its record and notice and leaves none staged; the two limit
settings; the policy, the other blocks following. -/
def Obligations.OfficeSettingsAreWritten : Prop :=
  ∀ (r : Req) (s u : State), s.takes r .account → u = s.frameReceived r.port →
    (∀ n q code alpha k points, num4Of n = some q → printableCode 4 code = true → alpha ≤ 2000 →
      permittedOf k = some points →
        Answers (.putProduct r n code alpha k) s r 0x34
          { u with products := u.products.set q (some { code := code, alpha := alpha, points := points }) } Reply.ok) ∧
    (∀ prices : PriceTable, (∀ q t, 1 ≤ (prices.get q).get t ∧ (prices.get q).get t ≤ 9999999) →
      Answers (.stagePrices r 1 prices) s r 0x35
          { u with prices := { u.prices with staged := some (prices, .atShift) } } Reply.ok ∧
        ∃ t, Answers (.stagePrices r 0 prices) s r 0x35 t Reply.ok ∧
          t.prices = { current := prices, staged := none } ∧
          (t.port .operator).has .priceTakeover = true ∧ (t.port .office).has .priceTakeover = true ∧
          (u.journal.hasRoom = true →
            ∃ rec, t.journal.records = u.journal.records ++ [rec] ∧ rec.body = .priceTakeover .now prices) ∧
          (u.journal.hasRoom = false → t.journal = u.journal) ∧
          { t with prices := u.prices, journal := u.journal, ports := u.ports } = u) ∧
    (∀ minimum cap, 10 ≤ minimum → minimum ≤ 1000 → cap ≤ 200000 →
      Answers (.setLimitSettings r minimum cap) s r 0x36
        { u with limits := { minimum := minimum, manualCap := cap } } Reply.ok) ∧
    (∀ k n policy, policyOf k n = some policy →
      AnswersAfter (.setSuctionPolicy r k n) s r 0x3D (u.setArbiter { u.arbiter with policy := policy }) Reply.ok) ∧
    (∀ k n, policyOf k n = none → Answers (.setSuctionPolicy r k n) s r 0x3D u (Reply.of .badParam))

/-! ### Journal -/

/-- RELEASE_THROUGH by the place of the number: stored, every record from the oldest through it is removed in order,
and the high mark falls below its threshold; behind, nothing is freed and the answer is OK; ahead, BAD_PARAM. -/
def Obligations.JournalIsReleased : Prop :=
  ∀ (r : Req) (s u : State) (q : SeqNo) (k : Nat), s.takes r .account → u = s.frameReceived r.port →
    k = (q - u.journal.oldest).toNat →
      (k < u.journal.occupied →
        ∃ (t : State) (data : List Field), exec (.releaseThrough r q) s = .next (t.answer r.port ((Reply.okWith data).response r.tag 0x39)) ∧
          t.journal.records = u.journal.records.drop (k + 1) ∧ t.journal.next = u.journal.next ∧
          t.journal.occupied = u.journal.occupied - (k + 1) ∧ t.journal.oldest = q + 1 ∧
          t.journal.tally = u.journal.tally ∧ data.head? = some (fld 4 (k + 1)) ∧ t.roster = u.roster ∧
          t.accounts = u.accounts ∧ (∀ p, (t.point p).context = (u.point p).context) ∧
          (u.loader.state = .none → u.loader.current = none →
            t.journal.highMark =
                (u.journal.highMark && decide (1536 ≤ u.journal.occupied - (k + 1) + u.journal.reserved)))) ∧
      (u.journal.occupied ≤ k → 2147483648 ≤ k →
        ∃ data, Answers (.releaseThrough r q) s r 0x39 u (Reply.okWith data) ∧ data.head? = some (fld 4 0)) ∧
      (u.journal.occupied ≤ k → k < 2147483648 →
        Answers (.releaseThrough r q) s r 0x39 u (Reply.of .badParam))

/-! ### Clock -/

/-- SET_TIME, TRIM_CLOCK, SET_SHIFTS and CLOCK_MINUTE write the clock by their rules, and a valid clock holds the
shift identity of its time and table after each; an invalid clock keeps the identity it holds. THE MODEL'S CHOICE (log
entry 22): CLOCK_MINUTE sets the clock to :00.0 of the next minute from any second of the minute. -/
def Obligations.ClockIsKept : Prop :=
  ∀ (r : Req) (s u : State), u = s.frameReceived r.port →
    (s.takes r .account →
      (∀ year month day hour minute second now, 2000 ≤ year → year ≤ 2099 → 1 ≤ month → month ≤ 12 → 1 ≤ day →
        day ≤ monthLength year month → hour ≤ 23 → minute ≤ 59 → second ≤ 59 →
        now =
          { date := { year := year, month := month, day := day }, hour := hour, minute := minute, second := second
            tenth := 0 : DateTime } →
          ∃ (t : State) (data : List Field), Answers (.setTime r year month day hour minute second) s r 0x3A t (Reply.okWith data) ∧
            t.clock = { u.clock with now := now, valid := true, shift := shiftAt u.clock.shifts now } ∧
            data.head? = some (yes (shiftAt u.clock.shifts now != u.clock.shift))) ∧
      (∀ year month day hour minute second, day = 0 ∨ monthLength year month < day →
        Answers (.setTime r year month day hour minute second) s r 0x3A u (Reply.of .badParam)) ∧
      (u.clock.valid = false → Answers (.trimClock r) s r 0x3B u (Reply.of .wrongState)) ∧
      (u.clock.valid = true → u.clock.now.second ≤ 29 →
        ∃ (t : State) (data : List Field), Answers (.trimClock r) s r 0x3B t (Reply.okWith data) ∧
          t.clock =
            { u.clock with
              now := { u.clock.now with second := 0, tenth := 0 }
              shift := shiftAt u.clock.shifts { u.clock.now with second := 0, tenth := 0 } }) ∧
      (u.clock.valid = true → 29 < u.clock.now.second → u.clock.now.nextMinute.2 = false →
        ∃ (t : State) (data : List Field), Answers (.trimClock r) s r 0x3B t (Reply.okWith data) ∧
          t.clock =
            { u.clock with
              now := u.clock.now.nextMinute.1, shift := shiftAt u.clock.shifts u.clock.now.nextMinute.1 }) ∧
      (∀ starts : List (Nat × Nat), 1 ≤ starts.length → starts.length ≤ 3 → (∀ x ∈ starts, x.1 ≤ 23 ∧ x.2 ≤ 59) →
        starts.Pairwise (fun x y => x.1 * 60 + x.2 < y.1 * 60 + y.2) →
          ∃ (t : State) (data : List Field), Answers (.setShifts r starts) s r 0x3C t (Reply.okWith data) ∧
            t.clock =
              { u.clock with
                shifts := starts
                shift := if u.clock.valid then shiftAt starts u.clock.now else u.clock.shift })) ∧
    (s.inReset = false → s.clock.now.nextMinute.2 = false →
      ∃ t : State, exec .clockMinute s = .next t ∧
        t.clock =
          { s.clock with
            now := s.clock.now.nextMinute.1
            shift :=
              if s.clock.valid then shiftAt s.clock.shifts s.clock.now.nextMinute.1 else s.clock.shift }) ∧
    (s.clock.now.nextMinute.2 = true →
      ∃ t : State, exec .clockMinute s = .next t ∧
        t.clock = { s.clock with now := s.clock.now.nextMinute.1, valid := false } ∧
        ∀ o, (t.port o).has .clockInvalid = true)

/-- The rollover that CLOCK_MINUTE makes into a new shift identity: the shift tally closed with its SHIFT_CLOSE record
and begun anew, or carried where the journal has no room; every machine's shift usage cleared, and its day usage where
the site day changes; a table staged AT_SHIFT takes over; SHIFT_ROLLED is raised; the accounts and the open deliveries
stay. THE MODEL'S CHOICE (log entry 22): the row makes the next minute from any second. -/
def Obligations.ShiftsRollOver : Prop :=
  ∀ (s : State) (n : ShiftId), s.inReset = false → s.clock.valid = true → s.clock.now.nextMinute.2 = false →
    n = shiftAt s.clock.shifts s.clock.now.nextMinute.1 → n ≠ s.clock.shift →
      ∃ t : State, exec .clockMinute s = .next t ∧ t.clock.shift = n ∧
        (∀ k, findMachine t.roster k =
          (findMachine s.roster k).map fun m =>
            { m with
              shiftUsage := 0
              dayUsage := if n.date ≠ s.clock.shift.date ∨ n.index = 1 then 0 else m.dayUsage }) ∧
        (s.journal.hasRoom = true →
          t.journal.tally = { first := n, covered := 1, nets := Quad.all 0, counts := Quad.all 0 } ∧
            ∃ rec, t.journal.records[s.journal.records.length]? = some rec ∧
              rec.body =
                .shiftClose s.journal.tally.first s.clock.shift s.journal.tally.covered s.journal.tally.nets
                  s.journal.tally.counts) ∧
        (s.journal.hasRoom = false →
          t.journal.tally = { s.journal.tally with covered := min 65535 (s.journal.tally.covered + 1) }) ∧
        (∀ prices, s.prices.staged = some (prices, .atShift) → t.prices = { current := prices, staged := none }) ∧
        (s.prices.staged = none → t.prices = s.prices) ∧
        (t.port .operator).has .shiftRolled = true ∧ (t.port .office).has .shiftRolled = true ∧
        t.accounts = s.accounts ∧ t.points = s.points

/-! ### Settings -/

/-- SET_K_FACTOR: a K outside 100..20,000 is BAD_PARAM, a bound channel BUSY, both leaving the old value; otherwise K is
stored, the gross remainder is cleared, and the answer is OK. SET_LINEARISATION: a list of more than 5 points, a rate or a
factor out of range, or rates not strictly ascending is BAD_PARAM; a bound channel is BUSY; both keep the old table whole.
Otherwise the table is replaced whole with OK, and an empty one gives 1,000,000 ppm at every rate. -/
def Obligations.MeterCalibrationIsWritten : Prop :=
  (∀ (r : Req) (s u : State) (n k : Nat) (c : ChannelId), s.takes r .calibrate → u = s.frameReceived r.port →
      channelOf n = some c →
        (¬ (100 ≤ k ∧ k ≤ 20000) → Answers (.setKFactor r n k) s r 0x40 u (Reply.of .badParam)) ∧
        (100 ≤ k → k ≤ 20000 → (u.channel c).bound = true →
          Answers (.setKFactor r n k) s r 0x40 u (Reply.of .busy)) ∧
        (100 ≤ k → k ≤ 20000 → (u.channel c).bound = false →
          Answers (.setKFactor r n k) s r 0x40 (u.setChannel c { u.channel c with k := k, grossRem := 0 }) Reply.ok)) ∧
  ∀ (r : Req) (s u : State) (n : Nat) (points : List (Nat × Nat)) (c : ChannelId), s.takes r .calibrate →
    u = s.frameReceived r.port → channelOf n = some c →
      let good :=
        points.length ≤ 5 ∧ (∀ x ∈ points, 1 ≤ x.1 ∧ x.1 ≤ 20000 ∧ 950000 ≤ x.2 ∧ x.2 ≤ 1050000) ∧
          points.Pairwise fun x y => x.1 < y.1
      (¬ good → Answers (.setLinearisation r n points) s r 0x42 u (Reply.of .badParam)) ∧
      (good → (u.channel c).bound = true → Answers (.setLinearisation r n points) s r 0x42 u (Reply.of .busy)) ∧
      (good → (u.channel c).bound = false →
        Answers (.setLinearisation r n points) s r 0x42 (u.setChannel c { u.channel c with table := points })
          Reply.ok) ∧
      ∀ rate, meterFactor [] rate = 1000000

/-- The other settings of the CALIBRATE role: each command with its values in range stores them and nothing else, with OK;
SET_POINT_VOLUMES needs its point CLOSED and SET_LOAD_SETTINGS no entry LOADING or SETTLING. SET_PUMP_FAULT with OFF stops
the kind's timers, the no-flow timer with NO_FLOW, and clears its reported mark. SET_PORT_SUPERVISION, with a timeout or
OFF, keeps the silent mark; OFF stops the console timer; a pending request whose holder's silence is already at the new
lapse takes the role at once, unless the holder is SERVICE, whose switch is closed here. Durations are tenths of a second. THE
MODEL'S CHOICES: SET_PUMP_FAULT with another action starts no timer, also where the condition stands (log entry 36), its
no-flow time is taken in any tenth of its range (log entry 18), and the console flow block stays under
SET_PORT_SUPERVISION (log entry 23). -/
def Obligations.ServiceSettingsAreWritten : Prop :=
  ∀ (r : Req) (s u : State), s.takes r .calibrate → u = s.frameReceived r.port →
    (∀ n c maximum, channelOf n = some c → 1 ≤ maximum → maximum ≤ 20000 →
      Answers (.setRatedFlow r n maximum) s r 0x41 (u.setChannel c { u.channel c with ratedMax := maximum })
        Reply.ok) ∧
    (∀ n p slowdown ahead, pointOf n = some p → slowdown ≤ 5000 → ahead ≤ 200 → (u.point p).state = .closed →
      Answers (.setPointVolumes r n slowdown ahead) s r 0x43
        (u.setPoint p { u.point p with slowdown := slowdown, closeAhead := ahead }) Reply.ok) ∧
    (∀ auth hold settle pump, 10 ≤ auth → auth ≤ 600 → 5 ≤ hold → hold ≤ 600 → 5 ≤ settle → settle ≤ 100 →
      10 ≤ pump → pump ≤ 600 →
        Answers (.setPointTimes r (auth * 10) (hold * 10) settle (pump * 10)) s r 0x44
          { u with
            times :=
              { u.times with
                auth := auth * 10, holdToRun := hold * 10, meterSettle := settle, pumpSuspend := pump * 10 } }
          Reply.ok) ∧
    (∀ hold travel, hold ≤ 120 → 5 ≤ travel → travel ≤ 100 →
      Answers (.setSuctionTimes r (hold * 10) travel) s r 0x45
        (u.setArbiter { u.arbiter with holdTime := hold * 10, travelTime := travel }) Reply.ok) ∧
    (∀ ramp retry limit, 2 ≤ ramp → ramp ≤ 50 → 1 ≤ retry → retry ≤ 60 → limit ≤ 10 →
      Answers (.setPumpRun r ramp (retry * 10) limit) s r 0x47
        (u.setPump
          { u.pump with
            rampTime := ramp, retryTime := retry * 10, retryLimit := if limit = 0 then none else some limit })
        Reply.ok) ∧
    (∀ k n kind action deglitch first second setting, faultKindOf k = some kind → faultActionOf n = some action →
      faultSettingOf kind action deglitch first second = some setting →
        ∃ x, Answers (.setPumpFault r k n deglitch first second) s r 0x46 (u.setPump x) Reply.ok ∧
          x.faults = u.pump.faults.set kind setting ∧ setting.action = action ∧ x.state = u.pump.state ∧
          x.drive = u.pump.drive ∧ (action ≠ .off → x = { u.pump with faults := x.faults }) ∧
          (action = .off →
            x = { u.pump with
              faults := x.faults, deglitch := x.deglitch, reported := x.reported
              noFlow := if kind = .noFlow then none else u.pump.noFlow } ∧
            (∀ j, x.deglitch.get j = if j = kind then none else u.pump.deglitch.get j) ∧
            ∀ j, x.reported.get j = if j = kind then false else u.pump.reported.get j)) ∧
    (∀ time, 1 ≤ time → time ≤ 60 →
      Answers (.setCouplingGrace r (time * 10)) s r 0x4D { u with times := { u.times with grace := time * 10 } }
        Reply.ok) ∧
    (∀ time, ¬ (time % 10 = 0 ∧ 10 ≤ time ∧ time ≤ 600) →
      Answers (.setCouplingGrace r time) s r 0x4D u (Reply.of .badParam)) ∧
    (∀ time, 10 ≤ time → time ≤ 600 →
      Answers (.setStockSettle r (time * 10)) s r 0x4B { u with stockSettle := time * 10 } Reply.ok) ∧
    (∀ ahead time, ahead ≤ 500 → 10 ≤ time → time ≤ 600 → u.loader.filling = false →
      Answers (.setLoadSettings r ahead (time * 10)) s r 0x4C
        (u.setLoader { u.loader with closeAhead := ahead, noFlowTime := time * 10 }) Reply.ok) ∧
    (∀ timeout n mode lapse, consoleModeOf n = some mode → (timeout = 0 ∨ (5 ≤ timeout ∧ timeout ≤ 100)) →
      30 ≤ lapse → lapse ≤ 3600 →
        ∃ (w : Watch) (v : State), Answers (.setPortSupervision r timeout n (lapse * 10)) s r 0x4E v Reply.ok ∧
          w.timeout = (if timeout = 0 then none else some timeout) ∧ w.mode = mode ∧ w.lapse = lapse * 10 ∧
          w.silent = u.watch.silent ∧ w.block = u.watch.block ∧ (timeout = 0 → w.timer = none) ∧
          (timeout ≠ 0 → u.watchActive = true → w.timer = u.watch.timer) ∧
          (timeout ≠ 0 → u.watchActive = false →
            w.timer = if (u.setWatch w).watchActive then some timeout else none) ∧
          (u.roles.requester = none ∨ u.roles.holder = .service ∨ (u.port u.roles.holder).silence < lapse * 10 →
            v = u.setWatch w) ∧
          ∀ q, u.roles.requester = some q → u.roles.holder ≠ .service →
            lapse * 10 ≤ (u.port u.roles.holder).silence → (u.setWatch w).RoleMoves v q) ∧
    (∀ time, 5 ≤ time → time ≤ 100 →
      Answers (.setWakeSettle r time) s r 0x4F (u.setPower { u.power with wakeTime := time }) Reply.ok)

/-! ### Power and resets -/

/-- Ignition: on, in STANDBY, it starts WAKE_SETTLE with the full wake settle time, whose expiry is RUN; off, in
WAKE_SETTLE, it is STANDBY with the timer stopped; a change the state does not act on only moves the line. A timer's row
is its expiry whatever time was left: the model's choice (log entry 32). -/
def Obligations.IgnitionMovesThePower : Prop :=
  ∀ s : State,
    (s.power.state = .standby →
      Gives .ignitionOn s
        (s.setPower { s.power with state := .wakeSettle, wake := some s.power.wakeTime, ignition := true })) ∧
    (s.power.state = .wakeSettle ∨ s.power.state = .run →
      exec .ignitionOn s = .next (s.setPower { s.power with ignition := true })) ∧
    (s.power.state = .wakeSettle → s.power.wake.isSome = true →
      Gives .wakeSettleExpiry s (s.setPower { s.power with state := .run, wake := none })) ∧
    (s.power.state = .wakeSettle → (∀ p, (s.point p).state.unfinished = false) →
      Gives .ignitionOff s (s.setPower { s.power with state := .standby, wake := none, ignition := false })) ∧
    (s.power.state = .standby →
      exec .ignitionOff s = .next (s.setPower { s.power with ignition := false }))

/-- Every reset, on its way in, makes the outputs safe, stops every timer, clears what is volatile and keeps what is
retained; SUPPLY_FAIL first ends the three windows into their owners and sets the flush mark. The reset pin counts where
it is asserted while the supply is good (R191). THE MODEL'S CHOICE (log entry 6): a supply fail in a reset that the pin
began makes the pin count no more, and the supply is good again at POWER_ON and at RESET_EXIT. -/
def Obligations.ResetKeepsTheRetained : Prop :=
  ∀ s : State,
    (∃ t : State, exec .resetPin s = .next t ∧ s.Resets t ∧ t.power.pinSeen = !s.power.supplyOut ∧
      t.power.flushMark = s.power.flushMark ∧ t.power.supplyOut = s.power.supplyOut) ∧
    (∃ t : State, exec .powerOn s = .next t ∧ s.Resets t ∧ t.power.pinSeen = false ∧
      t.power.flushMark = s.power.flushMark ∧ t.power.supplyOut = false) ∧
    ∀ x : Triple (Option Int),
      ∃ t : State, exec (.supplyFail x) s = .next t ∧
        (((s.endWindow .a x.first).endWindow .b x.second).endWindow .load x.third).Resets t ∧
        t.power.flushMark = true ∧ t.power.pinSeen = false ∧ t.power.supplyOut = true

/-- Leaving reset: the kind by the pin, then the flush mark, then POWER_ON; the interrupted deliveries closed and
counted, every point CLOSED without a context, the plan NONE without an entry; every configured compartment's settle
timer started; a supply condition that stands starting its deglitch timer (R105); a lost backup sets the clock to
2000-01-01 00:00:00, invalid; the power state by the ignition line. Each delivery, point A's and then point B's, is
closed as R88 closes one, and then the load entry, with end cause RESTART, flag RECOVERED, charges, records and notices;
no reservation is left, no journal slot is reserved and no compartment is LOADING or DRAINING. The records of a rollover
follow. Where another reset falls into the recovery, what was closed by then stays closed, the rest stays open as it
was, and the part is in reset (R192). THE MODEL'S CHOICE (log entries 3, 5, 6, 17): outside a reset there is no such
event; a recovery that is not cut ends within the step, and one that is cut is cut between two of its retained updates;
the pin decides before the flush mark; the load entries counted (log entry 17) are those closed by a receipt, so an
entry the recovery finds with no load context is removed and not counted. -/
def Obligations.LeavingResetRecovers : Prop :=
  ∀ (s : State) (held : Bool),
    (∀ cut, s.inReset = false → exec (.resetExit { backupHeld := held, cut := cut }) s = .next s) ∧
    (s.inReset = true →
      ∃ t : State, exec (.resetExit { backupHeld := held, cut := none }) s = .next t ∧ t.inReset = false ∧
        t.power.lastReset =
          (if s.power.pinSeen then .resetPin else if s.power.flushMark then .supplyFail else .powerOn) ∧
        t.power.flushMark = false ∧ t.power.pinSeen = false ∧ t.power.supplyOut = false ∧
        (∀ p, (t.point p).context = none) ∧
        (∀ p, (s.point p).context.isSome = true → (t.point p).state = .closed) ∧
        (∀ p, (s.point p).context = none → t.point p = s.point p) ∧
        t.power.closedDeliveries =
          bit (s.point .a).context.isSome + bit (s.point .b).context.isSome ∧
        t.power.closedEntries = bit (s.loader.current.any fun e => e.context.isSome) ∧
        t.loader.current = none ∧ t.loader.state = .none ∧ t.loader.staged = [] ∧
        (∀ c, (t.comp c).all (fun x => x.settle == some s.stockSettle) = true) ∧
        t.pump.state = s.pump.state ∧ t.pump.drive = s.pump.drive ∧
        (∀ k, (k = .supplyLow ∨ k = .supplyHigh) → (s.pump.faults.get k).action ≠ .off →
          s.pump.condition k = true → s.pump.deglitch.get k = none → s.pump.reported.get k = false →
          s.pump.present k = false → t.pump.deglitch.get k = some (s.pump.faults.get k).deglitch) ∧
        (held = false → t.clock.now = DateTime.epoch ∧ t.clock.valid = false ∧ t.clock.shift = s.clock.shift) ∧
        (held = true → t.clock.now = s.clock.now ∧ t.clock.valid = s.clock.valid) ∧
        (t.clock.valid = false → ∀ o, (t.port o).has .clockInvalid = true) ∧
        (s.power.ignition = true → t.power.state = .wakeSettle ∧ t.power.wake = some s.power.wakeTime) ∧
        (s.power.ignition = false → t.power.state = .standby) ∧
        (∃ l w : State,
          l =
              { s with
                clock := if held then s.clock else { s.clock with now := DateTime.epoch, valid := false }
                ports := l.ports, pump := l.pump, power := l.power } ∧
            (∀ o n, (s.port o).has n = true → (l.port o).has n = true) ∧ l.RecoversTo w .plan ∧ w.StartsBlocks t) ∧
        (s.BooksAgree →
          (∀ m ∈ t.roster, m.reserved = 0) ∧ (∀ a ∈ t.accounts, a.reserved = 0) ∧
            ∀ c x, t.comp c = some x → x.reserved = 0) ∧
        (s.SlotsAgree → t.journal.reserved = 0) ∧
        (s.LoadsAgree → ∀ c x, t.comp c = some x → x.state ≠ .loading ∧ x.draining = false)) ∧
    (s.inReset = true → ∀ k,
      ∃ t : State, exec (.resetExit { backupHeld := held, cut := some k }) s = .next t ∧ t.inReset = true ∧
        t.power.lastReset =
          (if s.power.pinSeen then .resetPin else if s.power.flushMark then .supplyFail else .powerOn) ∧
        t.power.flushMark = false ∧ t.power.pinSeen = false ∧ t.power.supplyOut = false ∧
        (∀ p, (t.point p).state = .closed) ∧
        (∀ p,
          (t.point p).context =
            if k = .start ∨ (k = .pointA ∧ p = .b) then (s.point p).context else none) ∧
        (t.loader.current = if k = .entry ∨ k = .plan then none else s.loader.current) ∧
        (t.loader.state = if k = .plan then .none else s.loader.state) ∧
        (t.loader.staged = if k = .plan then [] else s.loader.staged) ∧
        (∃ l, t.journal.records = s.journal.records ++ l) ∧
        (∀ o, (t.port o).notices = Notice.restarted.flag) ∧
        ∃ l w : State,
          l =
              { s with
                clock := if held then s.clock else { s.clock with now := DateTime.epoch, valid := false }
                ports := l.ports, pump := l.pump, power := l.power } ∧
            l.RecoversTo w k ∧ w.Resets t)
end

