-- ==== Sys2Proof/Laws/State.lean ====
section
/-! SUPPORT. One lemma for each field and each named update of State, and the reads of the fixed-size containers, so that no
proof unfolds an update. -/

namespace Sys2Proof

/-! ### Containers -/

@[simp] theorem Pair.get_set_same {α : Type} (x : Pair α) (i : PointId) (v : α) : (x.set i v).get i = v := by
  cases i <;> rfl

@[simp] theorem Pair.get_set_ne {α : Type} (x : Pair α) (i j : PointId) (v : α) (h : j ≠ i) :
    (x.set i v).get j = x.get j := by
  cases i <;> cases j <;> first | rfl | exact absurd rfl h

theorem Pair.get_set {α : Type} (x : Pair α) (i j : PointId) (v : α) :
    (x.set i v).get j = if j = i then v else x.get j := by
  cases i <;> cases j <;> rfl

@[simp] theorem Pair.set_set {α : Type} (x : Pair α) (i : PointId) (v w : α) :
    (x.set i v).set i w = x.set i w := by
  cases i <;> rfl

@[simp] theorem Pair.set_get {α : Type} (x : Pair α) (i : PointId) : x.set i (x.get i) = x := by
  cases i <;> rfl

@[simp] theorem Triple.channel_setChannel_same {α : Type} (x : Triple α) (i : ChannelId) (v : α) : (x.setChannel i v).channel i = v := by
  cases i <;> rfl

@[simp] theorem Triple.channel_setChannel_ne {α : Type} (x : Triple α) (i j : ChannelId) (v : α) (h : j ≠ i) :
    (x.setChannel i v).channel j = x.channel j := by
  cases i <;> cases j <;> first | rfl | exact absurd rfl h

theorem Triple.channel_setChannel {α : Type} (x : Triple α) (i j : ChannelId) (v : α) :
    (x.setChannel i v).channel j = if j = i then v else x.channel j := by
  cases i <;> cases j <;> rfl

@[simp] theorem Triple.setChannel_setChannel {α : Type} (x : Triple α) (i : ChannelId) (v w : α) :
    (x.setChannel i v).setChannel i w = x.setChannel i w := by
  cases i <;> rfl

@[simp] theorem Triple.setChannel_channel {α : Type} (x : Triple α) (i : ChannelId) : x.setChannel i (x.channel i) = x := by
  cases i <;> rfl

@[simp] theorem Triple.port_setPort_same {α : Type} (x : Triple α) (i : PortId) (v : α) : (x.setPort i v).port i = v := by
  cases i <;> rfl

@[simp] theorem Triple.port_setPort_ne {α : Type} (x : Triple α) (i j : PortId) (v : α) (h : j ≠ i) :
    (x.setPort i v).port j = x.port j := by
  cases i <;> cases j <;> first | rfl | exact absurd rfl h

theorem Triple.port_setPort {α : Type} (x : Triple α) (i j : PortId) (v : α) :
    (x.setPort i v).port j = if j = i then v else x.port j := by
  cases i <;> cases j <;> rfl

@[simp] theorem Triple.setPort_setPort {α : Type} (x : Triple α) (i : PortId) (v w : α) :
    (x.setPort i v).setPort i w = x.setPort i w := by
  cases i <;> rfl

@[simp] theorem Triple.setPort_port {α : Type} (x : Triple α) (i : PortId) : x.setPort i (x.port i) = x := by
  cases i <;> rfl

@[simp] theorem Quad.get_set_same {α : Type} (x : Quad α) (i : Num4) (v : α) : (x.set i v).get i = v := by
  cases i <;> rfl

@[simp] theorem Quad.get_set_ne {α : Type} (x : Quad α) (i j : Num4) (v : α) (h : j ≠ i) :
    (x.set i v).get j = x.get j := by
  cases i <;> cases j <;> first | rfl | exact absurd rfl h

theorem Quad.get_set {α : Type} (x : Quad α) (i j : Num4) (v : α) :
    (x.set i v).get j = if j = i then v else x.get j := by
  cases i <;> cases j <;> rfl

@[simp] theorem Quad.set_set {α : Type} (x : Quad α) (i : Num4) (v w : α) :
    (x.set i v).set i w = x.set i w := by
  cases i <;> rfl

@[simp] theorem Quad.set_get {α : Type} (x : Quad α) (i : Num4) : x.set i (x.get i) = x := by
  cases i <;> rfl

@[simp] theorem Quad.get_map {α β : Type} (f : α → β) (x : Quad α) (n : Num4) : (x.map f).get n = f (x.get n) := by
  cases n <;> rfl

theorem PointId.eq_or_other (p q : PointId) : q = p ∨ q = p.other := by
  cases p <;> cases q <;> simp [PointId.other]

@[simp] theorem PointId.other_ne (p : PointId) : p.other ≠ p := by
  cases p <;> simp [PointId.other]

@[simp] theorem PointId.ne_other (p : PointId) : p ≠ p.other := by
  cases p <;> simp [PointId.other]

@[simp] theorem PointId.other_other (p : PointId) : p.other.other = p := by
  cases p <;> rfl

end Sys2Proof

namespace Sys2Proof.Machine

open Sys2Proof

variable (s : State)

/-! ### State.setPoint -/

@[simp] theorem State.setPoint_channels (p : PointId) (x : Point) : (s.setPoint p x).channels = s.channels := rfl
@[simp] theorem State.setPoint_couplers (p : PointId) (x : Point) : (s.setPoint p x).couplers = s.couplers := rfl
@[simp] theorem State.setPoint_roster (p : PointId) (x : Point) : (s.setPoint p x).roster = s.roster := rfl
@[simp] theorem State.setPoint_accounts (p : PointId) (x : Point) : (s.setPoint p x).accounts = s.accounts := rfl
@[simp] theorem State.setPoint_products (p : PointId) (x : Point) : (s.setPoint p x).products = s.products := rfl
@[simp] theorem State.setPoint_prices (p : PointId) (x : Point) : (s.setPoint p x).prices = s.prices := rfl
@[simp] theorem State.setPoint_limits (p : PointId) (x : Point) : (s.setPoint p x).limits = s.limits := rfl
@[simp] theorem State.setPoint_points (p : PointId) (x : Point) : (s.setPoint p x).points = s.points.set p x := rfl
@[simp] theorem State.setPoint_times (p : PointId) (x : Point) : (s.setPoint p x).times = s.times := rfl
@[simp] theorem State.setPoint_arbiter (p : PointId) (x : Point) : (s.setPoint p x).arbiter = s.arbiter := rfl
@[simp] theorem State.setPoint_pump (p : PointId) (x : Point) : (s.setPoint p x).pump = s.pump := rfl
@[simp] theorem State.setPoint_stock (p : PointId) (x : Point) : (s.setPoint p x).stock = s.stock := rfl
@[simp] theorem State.setPoint_probes (p : PointId) (x : Point) : (s.setPoint p x).probes = s.probes := rfl
@[simp] theorem State.setPoint_stockSettle (p : PointId) (x : Point) : (s.setPoint p x).stockSettle = s.stockSettle := rfl
@[simp] theorem State.setPoint_loader (p : PointId) (x : Point) : (s.setPoint p x).loader = s.loader := rfl
@[simp] theorem State.setPoint_journal (p : PointId) (x : Point) : (s.setPoint p x).journal = s.journal := rfl
@[simp] theorem State.setPoint_clock (p : PointId) (x : Point) : (s.setPoint p x).clock = s.clock := rfl
@[simp] theorem State.setPoint_ports (p : PointId) (x : Point) : (s.setPoint p x).ports = s.ports := rfl
@[simp] theorem State.setPoint_roles (p : PointId) (x : Point) : (s.setPoint p x).roles = s.roles := rfl
@[simp] theorem State.setPoint_watch (p : PointId) (x : Point) : (s.setPoint p x).watch = s.watch := rfl
@[simp] theorem State.setPoint_power (p : PointId) (x : Point) : (s.setPoint p x).power = s.power := rfl
@[simp] theorem State.setPoint_choices (p : PointId) (x : Point) : (s.setPoint p x).choices = s.choices := rfl
@[simp] theorem State.setPoint_pending (p : PointId) (x : Point) : (s.setPoint p x).pending = s.pending := rfl

/-! ### State.setCoupler -/

@[simp] theorem State.setCoupler_channels (p : PointId) (x : Coupler) : (s.setCoupler p x).channels = s.channels := rfl
@[simp] theorem State.setCoupler_couplers (p : PointId) (x : Coupler) : (s.setCoupler p x).couplers = s.couplers.set p x := rfl
@[simp] theorem State.setCoupler_roster (p : PointId) (x : Coupler) : (s.setCoupler p x).roster = s.roster := rfl
@[simp] theorem State.setCoupler_accounts (p : PointId) (x : Coupler) : (s.setCoupler p x).accounts = s.accounts := rfl
@[simp] theorem State.setCoupler_products (p : PointId) (x : Coupler) : (s.setCoupler p x).products = s.products := rfl
@[simp] theorem State.setCoupler_prices (p : PointId) (x : Coupler) : (s.setCoupler p x).prices = s.prices := rfl
@[simp] theorem State.setCoupler_limits (p : PointId) (x : Coupler) : (s.setCoupler p x).limits = s.limits := rfl
@[simp] theorem State.setCoupler_points (p : PointId) (x : Coupler) : (s.setCoupler p x).points = s.points := rfl
@[simp] theorem State.setCoupler_times (p : PointId) (x : Coupler) : (s.setCoupler p x).times = s.times := rfl
@[simp] theorem State.setCoupler_arbiter (p : PointId) (x : Coupler) : (s.setCoupler p x).arbiter = s.arbiter := rfl
@[simp] theorem State.setCoupler_pump (p : PointId) (x : Coupler) : (s.setCoupler p x).pump = s.pump := rfl
@[simp] theorem State.setCoupler_stock (p : PointId) (x : Coupler) : (s.setCoupler p x).stock = s.stock := rfl
@[simp] theorem State.setCoupler_probes (p : PointId) (x : Coupler) : (s.setCoupler p x).probes = s.probes := rfl
@[simp] theorem State.setCoupler_stockSettle (p : PointId) (x : Coupler) : (s.setCoupler p x).stockSettle = s.stockSettle := rfl
@[simp] theorem State.setCoupler_loader (p : PointId) (x : Coupler) : (s.setCoupler p x).loader = s.loader := rfl
@[simp] theorem State.setCoupler_journal (p : PointId) (x : Coupler) : (s.setCoupler p x).journal = s.journal := rfl
@[simp] theorem State.setCoupler_clock (p : PointId) (x : Coupler) : (s.setCoupler p x).clock = s.clock := rfl
@[simp] theorem State.setCoupler_ports (p : PointId) (x : Coupler) : (s.setCoupler p x).ports = s.ports := rfl
@[simp] theorem State.setCoupler_roles (p : PointId) (x : Coupler) : (s.setCoupler p x).roles = s.roles := rfl
@[simp] theorem State.setCoupler_watch (p : PointId) (x : Coupler) : (s.setCoupler p x).watch = s.watch := rfl
@[simp] theorem State.setCoupler_power (p : PointId) (x : Coupler) : (s.setCoupler p x).power = s.power := rfl
@[simp] theorem State.setCoupler_choices (p : PointId) (x : Coupler) : (s.setCoupler p x).choices = s.choices := rfl
@[simp] theorem State.setCoupler_pending (p : PointId) (x : Coupler) : (s.setCoupler p x).pending = s.pending := rfl

/-! ### State.setChannel -/

@[simp] theorem State.setChannel_channels (c : ChannelId) (x : Channel) : (s.setChannel c x).channels = s.channels.setChannel c x := rfl
@[simp] theorem State.setChannel_couplers (c : ChannelId) (x : Channel) : (s.setChannel c x).couplers = s.couplers := rfl
@[simp] theorem State.setChannel_roster (c : ChannelId) (x : Channel) : (s.setChannel c x).roster = s.roster := rfl
@[simp] theorem State.setChannel_accounts (c : ChannelId) (x : Channel) : (s.setChannel c x).accounts = s.accounts := rfl
@[simp] theorem State.setChannel_products (c : ChannelId) (x : Channel) : (s.setChannel c x).products = s.products := rfl
@[simp] theorem State.setChannel_prices (c : ChannelId) (x : Channel) : (s.setChannel c x).prices = s.prices := rfl
@[simp] theorem State.setChannel_limits (c : ChannelId) (x : Channel) : (s.setChannel c x).limits = s.limits := rfl
@[simp] theorem State.setChannel_points (c : ChannelId) (x : Channel) : (s.setChannel c x).points = s.points := rfl
@[simp] theorem State.setChannel_times (c : ChannelId) (x : Channel) : (s.setChannel c x).times = s.times := rfl
@[simp] theorem State.setChannel_arbiter (c : ChannelId) (x : Channel) : (s.setChannel c x).arbiter = s.arbiter := rfl
@[simp] theorem State.setChannel_pump (c : ChannelId) (x : Channel) : (s.setChannel c x).pump = s.pump := rfl
@[simp] theorem State.setChannel_stock (c : ChannelId) (x : Channel) : (s.setChannel c x).stock = s.stock := rfl
@[simp] theorem State.setChannel_probes (c : ChannelId) (x : Channel) : (s.setChannel c x).probes = s.probes := rfl
@[simp] theorem State.setChannel_stockSettle (c : ChannelId) (x : Channel) : (s.setChannel c x).stockSettle = s.stockSettle := rfl
@[simp] theorem State.setChannel_loader (c : ChannelId) (x : Channel) : (s.setChannel c x).loader = s.loader := rfl
@[simp] theorem State.setChannel_journal (c : ChannelId) (x : Channel) : (s.setChannel c x).journal = s.journal := rfl
@[simp] theorem State.setChannel_clock (c : ChannelId) (x : Channel) : (s.setChannel c x).clock = s.clock := rfl
@[simp] theorem State.setChannel_ports (c : ChannelId) (x : Channel) : (s.setChannel c x).ports = s.ports := rfl
@[simp] theorem State.setChannel_roles (c : ChannelId) (x : Channel) : (s.setChannel c x).roles = s.roles := rfl
@[simp] theorem State.setChannel_watch (c : ChannelId) (x : Channel) : (s.setChannel c x).watch = s.watch := rfl
@[simp] theorem State.setChannel_power (c : ChannelId) (x : Channel) : (s.setChannel c x).power = s.power := rfl
@[simp] theorem State.setChannel_choices (c : ChannelId) (x : Channel) : (s.setChannel c x).choices = s.choices := rfl
@[simp] theorem State.setChannel_pending (c : ChannelId) (x : Channel) : (s.setChannel c x).pending = s.pending := rfl

/-! ### State.setPort -/

@[simp] theorem State.setPort_channels (o : PortId) (x : Port) : (s.setPort o x).channels = s.channels := rfl
@[simp] theorem State.setPort_couplers (o : PortId) (x : Port) : (s.setPort o x).couplers = s.couplers := rfl
@[simp] theorem State.setPort_roster (o : PortId) (x : Port) : (s.setPort o x).roster = s.roster := rfl
@[simp] theorem State.setPort_accounts (o : PortId) (x : Port) : (s.setPort o x).accounts = s.accounts := rfl
@[simp] theorem State.setPort_products (o : PortId) (x : Port) : (s.setPort o x).products = s.products := rfl
@[simp] theorem State.setPort_prices (o : PortId) (x : Port) : (s.setPort o x).prices = s.prices := rfl
@[simp] theorem State.setPort_limits (o : PortId) (x : Port) : (s.setPort o x).limits = s.limits := rfl
@[simp] theorem State.setPort_points (o : PortId) (x : Port) : (s.setPort o x).points = s.points := rfl
@[simp] theorem State.setPort_times (o : PortId) (x : Port) : (s.setPort o x).times = s.times := rfl
@[simp] theorem State.setPort_arbiter (o : PortId) (x : Port) : (s.setPort o x).arbiter = s.arbiter := rfl
@[simp] theorem State.setPort_pump (o : PortId) (x : Port) : (s.setPort o x).pump = s.pump := rfl
@[simp] theorem State.setPort_stock (o : PortId) (x : Port) : (s.setPort o x).stock = s.stock := rfl
@[simp] theorem State.setPort_probes (o : PortId) (x : Port) : (s.setPort o x).probes = s.probes := rfl
@[simp] theorem State.setPort_stockSettle (o : PortId) (x : Port) : (s.setPort o x).stockSettle = s.stockSettle := rfl
@[simp] theorem State.setPort_loader (o : PortId) (x : Port) : (s.setPort o x).loader = s.loader := rfl
@[simp] theorem State.setPort_journal (o : PortId) (x : Port) : (s.setPort o x).journal = s.journal := rfl
@[simp] theorem State.setPort_clock (o : PortId) (x : Port) : (s.setPort o x).clock = s.clock := rfl
@[simp] theorem State.setPort_ports (o : PortId) (x : Port) : (s.setPort o x).ports = s.ports.setPort o x := rfl
@[simp] theorem State.setPort_roles (o : PortId) (x : Port) : (s.setPort o x).roles = s.roles := rfl
@[simp] theorem State.setPort_watch (o : PortId) (x : Port) : (s.setPort o x).watch = s.watch := rfl
@[simp] theorem State.setPort_power (o : PortId) (x : Port) : (s.setPort o x).power = s.power := rfl
@[simp] theorem State.setPort_choices (o : PortId) (x : Port) : (s.setPort o x).choices = s.choices := rfl
@[simp] theorem State.setPort_pending (o : PortId) (x : Port) : (s.setPort o x).pending = s.pending := rfl

/-! ### State.setComp -/

@[simp] theorem State.setComp_channels (c : CompId) (x : Option Compartment) : (s.setComp c x).channels = s.channels := rfl
@[simp] theorem State.setComp_couplers (c : CompId) (x : Option Compartment) : (s.setComp c x).couplers = s.couplers := rfl
@[simp] theorem State.setComp_roster (c : CompId) (x : Option Compartment) : (s.setComp c x).roster = s.roster := rfl
@[simp] theorem State.setComp_accounts (c : CompId) (x : Option Compartment) : (s.setComp c x).accounts = s.accounts := rfl
@[simp] theorem State.setComp_products (c : CompId) (x : Option Compartment) : (s.setComp c x).products = s.products := rfl
@[simp] theorem State.setComp_prices (c : CompId) (x : Option Compartment) : (s.setComp c x).prices = s.prices := rfl
@[simp] theorem State.setComp_limits (c : CompId) (x : Option Compartment) : (s.setComp c x).limits = s.limits := rfl
@[simp] theorem State.setComp_points (c : CompId) (x : Option Compartment) : (s.setComp c x).points = s.points := rfl
@[simp] theorem State.setComp_times (c : CompId) (x : Option Compartment) : (s.setComp c x).times = s.times := rfl
@[simp] theorem State.setComp_arbiter (c : CompId) (x : Option Compartment) : (s.setComp c x).arbiter = s.arbiter := rfl
@[simp] theorem State.setComp_pump (c : CompId) (x : Option Compartment) : (s.setComp c x).pump = s.pump := rfl
@[simp] theorem State.setComp_stock (c : CompId) (x : Option Compartment) : (s.setComp c x).stock = s.stock.set c x := rfl
@[simp] theorem State.setComp_probes (c : CompId) (x : Option Compartment) : (s.setComp c x).probes = s.probes := rfl
@[simp] theorem State.setComp_stockSettle (c : CompId) (x : Option Compartment) : (s.setComp c x).stockSettle = s.stockSettle := rfl
@[simp] theorem State.setComp_loader (c : CompId) (x : Option Compartment) : (s.setComp c x).loader = s.loader := rfl
@[simp] theorem State.setComp_journal (c : CompId) (x : Option Compartment) : (s.setComp c x).journal = s.journal := rfl
@[simp] theorem State.setComp_clock (c : CompId) (x : Option Compartment) : (s.setComp c x).clock = s.clock := rfl
@[simp] theorem State.setComp_ports (c : CompId) (x : Option Compartment) : (s.setComp c x).ports = s.ports := rfl
@[simp] theorem State.setComp_roles (c : CompId) (x : Option Compartment) : (s.setComp c x).roles = s.roles := rfl
@[simp] theorem State.setComp_watch (c : CompId) (x : Option Compartment) : (s.setComp c x).watch = s.watch := rfl
@[simp] theorem State.setComp_power (c : CompId) (x : Option Compartment) : (s.setComp c x).power = s.power := rfl
@[simp] theorem State.setComp_choices (c : CompId) (x : Option Compartment) : (s.setComp c x).choices = s.choices := rfl
@[simp] theorem State.setComp_pending (c : CompId) (x : Option Compartment) : (s.setComp c x).pending = s.pending := rfl

/-! ### State.setArbiter -/

@[simp] theorem State.setArbiter_channels (x : Arbiter) : (s.setArbiter x).channels = s.channels := rfl
@[simp] theorem State.setArbiter_couplers (x : Arbiter) : (s.setArbiter x).couplers = s.couplers := rfl
@[simp] theorem State.setArbiter_roster (x : Arbiter) : (s.setArbiter x).roster = s.roster := rfl
@[simp] theorem State.setArbiter_accounts (x : Arbiter) : (s.setArbiter x).accounts = s.accounts := rfl
@[simp] theorem State.setArbiter_products (x : Arbiter) : (s.setArbiter x).products = s.products := rfl
@[simp] theorem State.setArbiter_prices (x : Arbiter) : (s.setArbiter x).prices = s.prices := rfl
@[simp] theorem State.setArbiter_limits (x : Arbiter) : (s.setArbiter x).limits = s.limits := rfl
@[simp] theorem State.setArbiter_points (x : Arbiter) : (s.setArbiter x).points = s.points := rfl
@[simp] theorem State.setArbiter_times (x : Arbiter) : (s.setArbiter x).times = s.times := rfl
@[simp] theorem State.setArbiter_arbiter (x : Arbiter) : (s.setArbiter x).arbiter = x := rfl
@[simp] theorem State.setArbiter_pump (x : Arbiter) : (s.setArbiter x).pump = s.pump := rfl
@[simp] theorem State.setArbiter_stock (x : Arbiter) : (s.setArbiter x).stock = s.stock := rfl
@[simp] theorem State.setArbiter_probes (x : Arbiter) : (s.setArbiter x).probes = s.probes := rfl
@[simp] theorem State.setArbiter_stockSettle (x : Arbiter) : (s.setArbiter x).stockSettle = s.stockSettle := rfl
@[simp] theorem State.setArbiter_loader (x : Arbiter) : (s.setArbiter x).loader = s.loader := rfl
@[simp] theorem State.setArbiter_journal (x : Arbiter) : (s.setArbiter x).journal = s.journal := rfl
@[simp] theorem State.setArbiter_clock (x : Arbiter) : (s.setArbiter x).clock = s.clock := rfl
@[simp] theorem State.setArbiter_ports (x : Arbiter) : (s.setArbiter x).ports = s.ports := rfl
@[simp] theorem State.setArbiter_roles (x : Arbiter) : (s.setArbiter x).roles = s.roles := rfl
@[simp] theorem State.setArbiter_watch (x : Arbiter) : (s.setArbiter x).watch = s.watch := rfl
@[simp] theorem State.setArbiter_power (x : Arbiter) : (s.setArbiter x).power = s.power := rfl
@[simp] theorem State.setArbiter_choices (x : Arbiter) : (s.setArbiter x).choices = s.choices := rfl
@[simp] theorem State.setArbiter_pending (x : Arbiter) : (s.setArbiter x).pending = s.pending := rfl

/-! ### State.setPump -/

@[simp] theorem State.setPump_channels (x : Pump) : (s.setPump x).channels = s.channels := rfl
@[simp] theorem State.setPump_couplers (x : Pump) : (s.setPump x).couplers = s.couplers := rfl
@[simp] theorem State.setPump_roster (x : Pump) : (s.setPump x).roster = s.roster := rfl
@[simp] theorem State.setPump_accounts (x : Pump) : (s.setPump x).accounts = s.accounts := rfl
@[simp] theorem State.setPump_products (x : Pump) : (s.setPump x).products = s.products := rfl
@[simp] theorem State.setPump_prices (x : Pump) : (s.setPump x).prices = s.prices := rfl
@[simp] theorem State.setPump_limits (x : Pump) : (s.setPump x).limits = s.limits := rfl
@[simp] theorem State.setPump_points (x : Pump) : (s.setPump x).points = s.points := rfl
@[simp] theorem State.setPump_times (x : Pump) : (s.setPump x).times = s.times := rfl
@[simp] theorem State.setPump_arbiter (x : Pump) : (s.setPump x).arbiter = s.arbiter := rfl
@[simp] theorem State.setPump_pump (x : Pump) : (s.setPump x).pump = x := rfl
@[simp] theorem State.setPump_stock (x : Pump) : (s.setPump x).stock = s.stock := rfl
@[simp] theorem State.setPump_probes (x : Pump) : (s.setPump x).probes = s.probes := rfl
@[simp] theorem State.setPump_stockSettle (x : Pump) : (s.setPump x).stockSettle = s.stockSettle := rfl
@[simp] theorem State.setPump_loader (x : Pump) : (s.setPump x).loader = s.loader := rfl
@[simp] theorem State.setPump_journal (x : Pump) : (s.setPump x).journal = s.journal := rfl
@[simp] theorem State.setPump_clock (x : Pump) : (s.setPump x).clock = s.clock := rfl
@[simp] theorem State.setPump_ports (x : Pump) : (s.setPump x).ports = s.ports := rfl
@[simp] theorem State.setPump_roles (x : Pump) : (s.setPump x).roles = s.roles := rfl
@[simp] theorem State.setPump_watch (x : Pump) : (s.setPump x).watch = s.watch := rfl
@[simp] theorem State.setPump_power (x : Pump) : (s.setPump x).power = s.power := rfl
@[simp] theorem State.setPump_choices (x : Pump) : (s.setPump x).choices = s.choices := rfl
@[simp] theorem State.setPump_pending (x : Pump) : (s.setPump x).pending = s.pending := rfl

/-! ### State.setLoader -/

@[simp] theorem State.setLoader_channels (x : Loader) : (s.setLoader x).channels = s.channels := rfl
@[simp] theorem State.setLoader_couplers (x : Loader) : (s.setLoader x).couplers = s.couplers := rfl
@[simp] theorem State.setLoader_roster (x : Loader) : (s.setLoader x).roster = s.roster := rfl
@[simp] theorem State.setLoader_accounts (x : Loader) : (s.setLoader x).accounts = s.accounts := rfl
@[simp] theorem State.setLoader_products (x : Loader) : (s.setLoader x).products = s.products := rfl
@[simp] theorem State.setLoader_prices (x : Loader) : (s.setLoader x).prices = s.prices := rfl
@[simp] theorem State.setLoader_limits (x : Loader) : (s.setLoader x).limits = s.limits := rfl
@[simp] theorem State.setLoader_points (x : Loader) : (s.setLoader x).points = s.points := rfl
@[simp] theorem State.setLoader_times (x : Loader) : (s.setLoader x).times = s.times := rfl
@[simp] theorem State.setLoader_arbiter (x : Loader) : (s.setLoader x).arbiter = s.arbiter := rfl
@[simp] theorem State.setLoader_pump (x : Loader) : (s.setLoader x).pump = s.pump := rfl
@[simp] theorem State.setLoader_stock (x : Loader) : (s.setLoader x).stock = s.stock := rfl
@[simp] theorem State.setLoader_probes (x : Loader) : (s.setLoader x).probes = s.probes := rfl
@[simp] theorem State.setLoader_stockSettle (x : Loader) : (s.setLoader x).stockSettle = s.stockSettle := rfl
@[simp] theorem State.setLoader_loader (x : Loader) : (s.setLoader x).loader = x := rfl
@[simp] theorem State.setLoader_journal (x : Loader) : (s.setLoader x).journal = s.journal := rfl
@[simp] theorem State.setLoader_clock (x : Loader) : (s.setLoader x).clock = s.clock := rfl
@[simp] theorem State.setLoader_ports (x : Loader) : (s.setLoader x).ports = s.ports := rfl
@[simp] theorem State.setLoader_roles (x : Loader) : (s.setLoader x).roles = s.roles := rfl
@[simp] theorem State.setLoader_watch (x : Loader) : (s.setLoader x).watch = s.watch := rfl
@[simp] theorem State.setLoader_power (x : Loader) : (s.setLoader x).power = s.power := rfl
@[simp] theorem State.setLoader_choices (x : Loader) : (s.setLoader x).choices = s.choices := rfl
@[simp] theorem State.setLoader_pending (x : Loader) : (s.setLoader x).pending = s.pending := rfl

/-! ### State.setJournal -/

@[simp] theorem State.setJournal_channels (x : Journal) : (s.setJournal x).channels = s.channels := rfl
@[simp] theorem State.setJournal_couplers (x : Journal) : (s.setJournal x).couplers = s.couplers := rfl
@[simp] theorem State.setJournal_roster (x : Journal) : (s.setJournal x).roster = s.roster := rfl
@[simp] theorem State.setJournal_accounts (x : Journal) : (s.setJournal x).accounts = s.accounts := rfl
@[simp] theorem State.setJournal_products (x : Journal) : (s.setJournal x).products = s.products := rfl
@[simp] theorem State.setJournal_prices (x : Journal) : (s.setJournal x).prices = s.prices := rfl
@[simp] theorem State.setJournal_limits (x : Journal) : (s.setJournal x).limits = s.limits := rfl
@[simp] theorem State.setJournal_points (x : Journal) : (s.setJournal x).points = s.points := rfl
@[simp] theorem State.setJournal_times (x : Journal) : (s.setJournal x).times = s.times := rfl
@[simp] theorem State.setJournal_arbiter (x : Journal) : (s.setJournal x).arbiter = s.arbiter := rfl
@[simp] theorem State.setJournal_pump (x : Journal) : (s.setJournal x).pump = s.pump := rfl
@[simp] theorem State.setJournal_stock (x : Journal) : (s.setJournal x).stock = s.stock := rfl
@[simp] theorem State.setJournal_probes (x : Journal) : (s.setJournal x).probes = s.probes := rfl
@[simp] theorem State.setJournal_stockSettle (x : Journal) : (s.setJournal x).stockSettle = s.stockSettle := rfl
@[simp] theorem State.setJournal_loader (x : Journal) : (s.setJournal x).loader = s.loader := rfl
@[simp] theorem State.setJournal_journal (x : Journal) : (s.setJournal x).journal = x := rfl
@[simp] theorem State.setJournal_clock (x : Journal) : (s.setJournal x).clock = s.clock := rfl
@[simp] theorem State.setJournal_ports (x : Journal) : (s.setJournal x).ports = s.ports := rfl
@[simp] theorem State.setJournal_roles (x : Journal) : (s.setJournal x).roles = s.roles := rfl
@[simp] theorem State.setJournal_watch (x : Journal) : (s.setJournal x).watch = s.watch := rfl
@[simp] theorem State.setJournal_power (x : Journal) : (s.setJournal x).power = s.power := rfl
@[simp] theorem State.setJournal_choices (x : Journal) : (s.setJournal x).choices = s.choices := rfl
@[simp] theorem State.setJournal_pending (x : Journal) : (s.setJournal x).pending = s.pending := rfl

/-! ### State.setWatch -/

@[simp] theorem State.setWatch_channels (x : Watch) : (s.setWatch x).channels = s.channels := rfl
@[simp] theorem State.setWatch_couplers (x : Watch) : (s.setWatch x).couplers = s.couplers := rfl
@[simp] theorem State.setWatch_roster (x : Watch) : (s.setWatch x).roster = s.roster := rfl
@[simp] theorem State.setWatch_accounts (x : Watch) : (s.setWatch x).accounts = s.accounts := rfl
@[simp] theorem State.setWatch_products (x : Watch) : (s.setWatch x).products = s.products := rfl
@[simp] theorem State.setWatch_prices (x : Watch) : (s.setWatch x).prices = s.prices := rfl
@[simp] theorem State.setWatch_limits (x : Watch) : (s.setWatch x).limits = s.limits := rfl
@[simp] theorem State.setWatch_points (x : Watch) : (s.setWatch x).points = s.points := rfl
@[simp] theorem State.setWatch_times (x : Watch) : (s.setWatch x).times = s.times := rfl
@[simp] theorem State.setWatch_arbiter (x : Watch) : (s.setWatch x).arbiter = s.arbiter := rfl
@[simp] theorem State.setWatch_pump (x : Watch) : (s.setWatch x).pump = s.pump := rfl
@[simp] theorem State.setWatch_stock (x : Watch) : (s.setWatch x).stock = s.stock := rfl
@[simp] theorem State.setWatch_probes (x : Watch) : (s.setWatch x).probes = s.probes := rfl
@[simp] theorem State.setWatch_stockSettle (x : Watch) : (s.setWatch x).stockSettle = s.stockSettle := rfl
@[simp] theorem State.setWatch_loader (x : Watch) : (s.setWatch x).loader = s.loader := rfl
@[simp] theorem State.setWatch_journal (x : Watch) : (s.setWatch x).journal = s.journal := rfl
@[simp] theorem State.setWatch_clock (x : Watch) : (s.setWatch x).clock = s.clock := rfl
@[simp] theorem State.setWatch_ports (x : Watch) : (s.setWatch x).ports = s.ports := rfl
@[simp] theorem State.setWatch_roles (x : Watch) : (s.setWatch x).roles = s.roles := rfl
@[simp] theorem State.setWatch_watch (x : Watch) : (s.setWatch x).watch = x := rfl
@[simp] theorem State.setWatch_power (x : Watch) : (s.setWatch x).power = s.power := rfl
@[simp] theorem State.setWatch_choices (x : Watch) : (s.setWatch x).choices = s.choices := rfl
@[simp] theorem State.setWatch_pending (x : Watch) : (s.setWatch x).pending = s.pending := rfl

/-! ### State.setRoles -/

@[simp] theorem State.setRoles_channels (x : Roles) : (s.setRoles x).channels = s.channels := rfl
@[simp] theorem State.setRoles_couplers (x : Roles) : (s.setRoles x).couplers = s.couplers := rfl
@[simp] theorem State.setRoles_roster (x : Roles) : (s.setRoles x).roster = s.roster := rfl
@[simp] theorem State.setRoles_accounts (x : Roles) : (s.setRoles x).accounts = s.accounts := rfl
@[simp] theorem State.setRoles_products (x : Roles) : (s.setRoles x).products = s.products := rfl
@[simp] theorem State.setRoles_prices (x : Roles) : (s.setRoles x).prices = s.prices := rfl
@[simp] theorem State.setRoles_limits (x : Roles) : (s.setRoles x).limits = s.limits := rfl
@[simp] theorem State.setRoles_points (x : Roles) : (s.setRoles x).points = s.points := rfl
@[simp] theorem State.setRoles_times (x : Roles) : (s.setRoles x).times = s.times := rfl
@[simp] theorem State.setRoles_arbiter (x : Roles) : (s.setRoles x).arbiter = s.arbiter := rfl
@[simp] theorem State.setRoles_pump (x : Roles) : (s.setRoles x).pump = s.pump := rfl
@[simp] theorem State.setRoles_stock (x : Roles) : (s.setRoles x).stock = s.stock := rfl
@[simp] theorem State.setRoles_probes (x : Roles) : (s.setRoles x).probes = s.probes := rfl
@[simp] theorem State.setRoles_stockSettle (x : Roles) : (s.setRoles x).stockSettle = s.stockSettle := rfl
@[simp] theorem State.setRoles_loader (x : Roles) : (s.setRoles x).loader = s.loader := rfl
@[simp] theorem State.setRoles_journal (x : Roles) : (s.setRoles x).journal = s.journal := rfl
@[simp] theorem State.setRoles_clock (x : Roles) : (s.setRoles x).clock = s.clock := rfl
@[simp] theorem State.setRoles_ports (x : Roles) : (s.setRoles x).ports = s.ports := rfl
@[simp] theorem State.setRoles_roles (x : Roles) : (s.setRoles x).roles = x := rfl
@[simp] theorem State.setRoles_watch (x : Roles) : (s.setRoles x).watch = s.watch := rfl
@[simp] theorem State.setRoles_power (x : Roles) : (s.setRoles x).power = s.power := rfl
@[simp] theorem State.setRoles_choices (x : Roles) : (s.setRoles x).choices = s.choices := rfl
@[simp] theorem State.setRoles_pending (x : Roles) : (s.setRoles x).pending = s.pending := rfl

/-! ### State.setClock -/

@[simp] theorem State.setClock_channels (x : Clock) : (s.setClock x).channels = s.channels := rfl
@[simp] theorem State.setClock_couplers (x : Clock) : (s.setClock x).couplers = s.couplers := rfl
@[simp] theorem State.setClock_roster (x : Clock) : (s.setClock x).roster = s.roster := rfl
@[simp] theorem State.setClock_accounts (x : Clock) : (s.setClock x).accounts = s.accounts := rfl
@[simp] theorem State.setClock_products (x : Clock) : (s.setClock x).products = s.products := rfl
@[simp] theorem State.setClock_prices (x : Clock) : (s.setClock x).prices = s.prices := rfl
@[simp] theorem State.setClock_limits (x : Clock) : (s.setClock x).limits = s.limits := rfl
@[simp] theorem State.setClock_points (x : Clock) : (s.setClock x).points = s.points := rfl
@[simp] theorem State.setClock_times (x : Clock) : (s.setClock x).times = s.times := rfl
@[simp] theorem State.setClock_arbiter (x : Clock) : (s.setClock x).arbiter = s.arbiter := rfl
@[simp] theorem State.setClock_pump (x : Clock) : (s.setClock x).pump = s.pump := rfl
@[simp] theorem State.setClock_stock (x : Clock) : (s.setClock x).stock = s.stock := rfl
@[simp] theorem State.setClock_probes (x : Clock) : (s.setClock x).probes = s.probes := rfl
@[simp] theorem State.setClock_stockSettle (x : Clock) : (s.setClock x).stockSettle = s.stockSettle := rfl
@[simp] theorem State.setClock_loader (x : Clock) : (s.setClock x).loader = s.loader := rfl
@[simp] theorem State.setClock_journal (x : Clock) : (s.setClock x).journal = s.journal := rfl
@[simp] theorem State.setClock_clock (x : Clock) : (s.setClock x).clock = x := rfl
@[simp] theorem State.setClock_ports (x : Clock) : (s.setClock x).ports = s.ports := rfl
@[simp] theorem State.setClock_roles (x : Clock) : (s.setClock x).roles = s.roles := rfl
@[simp] theorem State.setClock_watch (x : Clock) : (s.setClock x).watch = s.watch := rfl
@[simp] theorem State.setClock_power (x : Clock) : (s.setClock x).power = s.power := rfl
@[simp] theorem State.setClock_choices (x : Clock) : (s.setClock x).choices = s.choices := rfl
@[simp] theorem State.setClock_pending (x : Clock) : (s.setClock x).pending = s.pending := rfl

/-! ### State.setPower -/

@[simp] theorem State.setPower_channels (x : Power) : (s.setPower x).channels = s.channels := rfl
@[simp] theorem State.setPower_couplers (x : Power) : (s.setPower x).couplers = s.couplers := rfl
@[simp] theorem State.setPower_roster (x : Power) : (s.setPower x).roster = s.roster := rfl
@[simp] theorem State.setPower_accounts (x : Power) : (s.setPower x).accounts = s.accounts := rfl
@[simp] theorem State.setPower_products (x : Power) : (s.setPower x).products = s.products := rfl
@[simp] theorem State.setPower_prices (x : Power) : (s.setPower x).prices = s.prices := rfl
@[simp] theorem State.setPower_limits (x : Power) : (s.setPower x).limits = s.limits := rfl
@[simp] theorem State.setPower_points (x : Power) : (s.setPower x).points = s.points := rfl
@[simp] theorem State.setPower_times (x : Power) : (s.setPower x).times = s.times := rfl
@[simp] theorem State.setPower_arbiter (x : Power) : (s.setPower x).arbiter = s.arbiter := rfl
@[simp] theorem State.setPower_pump (x : Power) : (s.setPower x).pump = s.pump := rfl
@[simp] theorem State.setPower_stock (x : Power) : (s.setPower x).stock = s.stock := rfl
@[simp] theorem State.setPower_probes (x : Power) : (s.setPower x).probes = s.probes := rfl
@[simp] theorem State.setPower_stockSettle (x : Power) : (s.setPower x).stockSettle = s.stockSettle := rfl
@[simp] theorem State.setPower_loader (x : Power) : (s.setPower x).loader = s.loader := rfl
@[simp] theorem State.setPower_journal (x : Power) : (s.setPower x).journal = s.journal := rfl
@[simp] theorem State.setPower_clock (x : Power) : (s.setPower x).clock = s.clock := rfl
@[simp] theorem State.setPower_ports (x : Power) : (s.setPower x).ports = s.ports := rfl
@[simp] theorem State.setPower_roles (x : Power) : (s.setPower x).roles = s.roles := rfl
@[simp] theorem State.setPower_watch (x : Power) : (s.setPower x).watch = s.watch := rfl
@[simp] theorem State.setPower_power (x : Power) : (s.setPower x).power = x := rfl
@[simp] theorem State.setPower_choices (x : Power) : (s.setPower x).choices = s.choices := rfl
@[simp] theorem State.setPower_pending (x : Power) : (s.setPower x).pending = s.pending := rfl

/-! ### State.setRoster -/

@[simp] theorem State.setRoster_channels (x : List MachineRec) : (s.setRoster x).channels = s.channels := rfl
@[simp] theorem State.setRoster_couplers (x : List MachineRec) : (s.setRoster x).couplers = s.couplers := rfl
@[simp] theorem State.setRoster_roster (x : List MachineRec) : (s.setRoster x).roster = x := rfl
@[simp] theorem State.setRoster_accounts (x : List MachineRec) : (s.setRoster x).accounts = s.accounts := rfl
@[simp] theorem State.setRoster_products (x : List MachineRec) : (s.setRoster x).products = s.products := rfl
@[simp] theorem State.setRoster_prices (x : List MachineRec) : (s.setRoster x).prices = s.prices := rfl
@[simp] theorem State.setRoster_limits (x : List MachineRec) : (s.setRoster x).limits = s.limits := rfl
@[simp] theorem State.setRoster_points (x : List MachineRec) : (s.setRoster x).points = s.points := rfl
@[simp] theorem State.setRoster_times (x : List MachineRec) : (s.setRoster x).times = s.times := rfl
@[simp] theorem State.setRoster_arbiter (x : List MachineRec) : (s.setRoster x).arbiter = s.arbiter := rfl
@[simp] theorem State.setRoster_pump (x : List MachineRec) : (s.setRoster x).pump = s.pump := rfl
@[simp] theorem State.setRoster_stock (x : List MachineRec) : (s.setRoster x).stock = s.stock := rfl
@[simp] theorem State.setRoster_probes (x : List MachineRec) : (s.setRoster x).probes = s.probes := rfl
@[simp] theorem State.setRoster_stockSettle (x : List MachineRec) : (s.setRoster x).stockSettle = s.stockSettle := rfl
@[simp] theorem State.setRoster_loader (x : List MachineRec) : (s.setRoster x).loader = s.loader := rfl
@[simp] theorem State.setRoster_journal (x : List MachineRec) : (s.setRoster x).journal = s.journal := rfl
@[simp] theorem State.setRoster_clock (x : List MachineRec) : (s.setRoster x).clock = s.clock := rfl
@[simp] theorem State.setRoster_ports (x : List MachineRec) : (s.setRoster x).ports = s.ports := rfl
@[simp] theorem State.setRoster_roles (x : List MachineRec) : (s.setRoster x).roles = s.roles := rfl
@[simp] theorem State.setRoster_watch (x : List MachineRec) : (s.setRoster x).watch = s.watch := rfl
@[simp] theorem State.setRoster_power (x : List MachineRec) : (s.setRoster x).power = s.power := rfl
@[simp] theorem State.setRoster_choices (x : List MachineRec) : (s.setRoster x).choices = s.choices := rfl
@[simp] theorem State.setRoster_pending (x : List MachineRec) : (s.setRoster x).pending = s.pending := rfl

/-! ### State.setAccounts -/

@[simp] theorem State.setAccounts_channels (x : List Account) : (s.setAccounts x).channels = s.channels := rfl
@[simp] theorem State.setAccounts_couplers (x : List Account) : (s.setAccounts x).couplers = s.couplers := rfl
@[simp] theorem State.setAccounts_roster (x : List Account) : (s.setAccounts x).roster = s.roster := rfl
@[simp] theorem State.setAccounts_accounts (x : List Account) : (s.setAccounts x).accounts = x := rfl
@[simp] theorem State.setAccounts_products (x : List Account) : (s.setAccounts x).products = s.products := rfl
@[simp] theorem State.setAccounts_prices (x : List Account) : (s.setAccounts x).prices = s.prices := rfl
@[simp] theorem State.setAccounts_limits (x : List Account) : (s.setAccounts x).limits = s.limits := rfl
@[simp] theorem State.setAccounts_points (x : List Account) : (s.setAccounts x).points = s.points := rfl
@[simp] theorem State.setAccounts_times (x : List Account) : (s.setAccounts x).times = s.times := rfl
@[simp] theorem State.setAccounts_arbiter (x : List Account) : (s.setAccounts x).arbiter = s.arbiter := rfl
@[simp] theorem State.setAccounts_pump (x : List Account) : (s.setAccounts x).pump = s.pump := rfl
@[simp] theorem State.setAccounts_stock (x : List Account) : (s.setAccounts x).stock = s.stock := rfl
@[simp] theorem State.setAccounts_probes (x : List Account) : (s.setAccounts x).probes = s.probes := rfl
@[simp] theorem State.setAccounts_stockSettle (x : List Account) : (s.setAccounts x).stockSettle = s.stockSettle := rfl
@[simp] theorem State.setAccounts_loader (x : List Account) : (s.setAccounts x).loader = s.loader := rfl
@[simp] theorem State.setAccounts_journal (x : List Account) : (s.setAccounts x).journal = s.journal := rfl
@[simp] theorem State.setAccounts_clock (x : List Account) : (s.setAccounts x).clock = s.clock := rfl
@[simp] theorem State.setAccounts_ports (x : List Account) : (s.setAccounts x).ports = s.ports := rfl
@[simp] theorem State.setAccounts_roles (x : List Account) : (s.setAccounts x).roles = s.roles := rfl
@[simp] theorem State.setAccounts_watch (x : List Account) : (s.setAccounts x).watch = s.watch := rfl
@[simp] theorem State.setAccounts_power (x : List Account) : (s.setAccounts x).power = s.power := rfl
@[simp] theorem State.setAccounts_choices (x : List Account) : (s.setAccounts x).choices = s.choices := rfl
@[simp] theorem State.setAccounts_pending (x : List Account) : (s.setAccounts x).pending = s.pending := rfl

/-! ### State.modComp -/

@[simp] theorem State.modComp_channels (c : CompId) (f : Compartment → Compartment) : (s.modComp c f).channels = s.channels := rfl
@[simp] theorem State.modComp_couplers (c : CompId) (f : Compartment → Compartment) : (s.modComp c f).couplers = s.couplers := rfl
@[simp] theorem State.modComp_roster (c : CompId) (f : Compartment → Compartment) : (s.modComp c f).roster = s.roster := rfl
@[simp] theorem State.modComp_accounts (c : CompId) (f : Compartment → Compartment) : (s.modComp c f).accounts = s.accounts := rfl
@[simp] theorem State.modComp_products (c : CompId) (f : Compartment → Compartment) : (s.modComp c f).products = s.products := rfl
@[simp] theorem State.modComp_prices (c : CompId) (f : Compartment → Compartment) : (s.modComp c f).prices = s.prices := rfl
@[simp] theorem State.modComp_limits (c : CompId) (f : Compartment → Compartment) : (s.modComp c f).limits = s.limits := rfl
@[simp] theorem State.modComp_points (c : CompId) (f : Compartment → Compartment) : (s.modComp c f).points = s.points := rfl
@[simp] theorem State.modComp_times (c : CompId) (f : Compartment → Compartment) : (s.modComp c f).times = s.times := rfl
@[simp] theorem State.modComp_arbiter (c : CompId) (f : Compartment → Compartment) : (s.modComp c f).arbiter = s.arbiter := rfl
@[simp] theorem State.modComp_pump (c : CompId) (f : Compartment → Compartment) : (s.modComp c f).pump = s.pump := rfl
@[simp] theorem State.modComp_probes (c : CompId) (f : Compartment → Compartment) : (s.modComp c f).probes = s.probes := rfl
@[simp] theorem State.modComp_stockSettle (c : CompId) (f : Compartment → Compartment) : (s.modComp c f).stockSettle = s.stockSettle := rfl
@[simp] theorem State.modComp_loader (c : CompId) (f : Compartment → Compartment) : (s.modComp c f).loader = s.loader := rfl
@[simp] theorem State.modComp_journal (c : CompId) (f : Compartment → Compartment) : (s.modComp c f).journal = s.journal := rfl
@[simp] theorem State.modComp_clock (c : CompId) (f : Compartment → Compartment) : (s.modComp c f).clock = s.clock := rfl
@[simp] theorem State.modComp_ports (c : CompId) (f : Compartment → Compartment) : (s.modComp c f).ports = s.ports := rfl
@[simp] theorem State.modComp_roles (c : CompId) (f : Compartment → Compartment) : (s.modComp c f).roles = s.roles := rfl
@[simp] theorem State.modComp_watch (c : CompId) (f : Compartment → Compartment) : (s.modComp c f).watch = s.watch := rfl
@[simp] theorem State.modComp_power (c : CompId) (f : Compartment → Compartment) : (s.modComp c f).power = s.power := rfl
@[simp] theorem State.modComp_choices (c : CompId) (f : Compartment → Compartment) : (s.modComp c f).choices = s.choices := rfl
@[simp] theorem State.modComp_pending (c : CompId) (f : Compartment → Compartment) : (s.modComp c f).pending = s.pending := rfl

/-! ### State.modMachine -/

@[simp] theorem State.modMachine_channels (n : Nat) (f : MachineRec → MachineRec) : (s.modMachine n f).channels = s.channels := rfl
@[simp] theorem State.modMachine_couplers (n : Nat) (f : MachineRec → MachineRec) : (s.modMachine n f).couplers = s.couplers := rfl
@[simp] theorem State.modMachine_accounts (n : Nat) (f : MachineRec → MachineRec) : (s.modMachine n f).accounts = s.accounts := rfl
@[simp] theorem State.modMachine_products (n : Nat) (f : MachineRec → MachineRec) : (s.modMachine n f).products = s.products := rfl
@[simp] theorem State.modMachine_prices (n : Nat) (f : MachineRec → MachineRec) : (s.modMachine n f).prices = s.prices := rfl
@[simp] theorem State.modMachine_limits (n : Nat) (f : MachineRec → MachineRec) : (s.modMachine n f).limits = s.limits := rfl
@[simp] theorem State.modMachine_points (n : Nat) (f : MachineRec → MachineRec) : (s.modMachine n f).points = s.points := rfl
@[simp] theorem State.modMachine_times (n : Nat) (f : MachineRec → MachineRec) : (s.modMachine n f).times = s.times := rfl
@[simp] theorem State.modMachine_arbiter (n : Nat) (f : MachineRec → MachineRec) : (s.modMachine n f).arbiter = s.arbiter := rfl
@[simp] theorem State.modMachine_pump (n : Nat) (f : MachineRec → MachineRec) : (s.modMachine n f).pump = s.pump := rfl
@[simp] theorem State.modMachine_stock (n : Nat) (f : MachineRec → MachineRec) : (s.modMachine n f).stock = s.stock := rfl
@[simp] theorem State.modMachine_probes (n : Nat) (f : MachineRec → MachineRec) : (s.modMachine n f).probes = s.probes := rfl
@[simp] theorem State.modMachine_stockSettle (n : Nat) (f : MachineRec → MachineRec) : (s.modMachine n f).stockSettle = s.stockSettle := rfl
@[simp] theorem State.modMachine_loader (n : Nat) (f : MachineRec → MachineRec) : (s.modMachine n f).loader = s.loader := rfl
@[simp] theorem State.modMachine_journal (n : Nat) (f : MachineRec → MachineRec) : (s.modMachine n f).journal = s.journal := rfl
@[simp] theorem State.modMachine_clock (n : Nat) (f : MachineRec → MachineRec) : (s.modMachine n f).clock = s.clock := rfl
@[simp] theorem State.modMachine_ports (n : Nat) (f : MachineRec → MachineRec) : (s.modMachine n f).ports = s.ports := rfl
@[simp] theorem State.modMachine_roles (n : Nat) (f : MachineRec → MachineRec) : (s.modMachine n f).roles = s.roles := rfl
@[simp] theorem State.modMachine_watch (n : Nat) (f : MachineRec → MachineRec) : (s.modMachine n f).watch = s.watch := rfl
@[simp] theorem State.modMachine_power (n : Nat) (f : MachineRec → MachineRec) : (s.modMachine n f).power = s.power := rfl
@[simp] theorem State.modMachine_choices (n : Nat) (f : MachineRec → MachineRec) : (s.modMachine n f).choices = s.choices := rfl
@[simp] theorem State.modMachine_pending (n : Nat) (f : MachineRec → MachineRec) : (s.modMachine n f).pending = s.pending := rfl

/-! ### State.modAccount -/

@[simp] theorem State.modAccount_channels (n : Nat) (f : Account → Account) : (s.modAccount n f).channels = s.channels := rfl
@[simp] theorem State.modAccount_couplers (n : Nat) (f : Account → Account) : (s.modAccount n f).couplers = s.couplers := rfl
@[simp] theorem State.modAccount_roster (n : Nat) (f : Account → Account) : (s.modAccount n f).roster = s.roster := rfl
@[simp] theorem State.modAccount_products (n : Nat) (f : Account → Account) : (s.modAccount n f).products = s.products := rfl
@[simp] theorem State.modAccount_prices (n : Nat) (f : Account → Account) : (s.modAccount n f).prices = s.prices := rfl
@[simp] theorem State.modAccount_limits (n : Nat) (f : Account → Account) : (s.modAccount n f).limits = s.limits := rfl
@[simp] theorem State.modAccount_points (n : Nat) (f : Account → Account) : (s.modAccount n f).points = s.points := rfl
@[simp] theorem State.modAccount_times (n : Nat) (f : Account → Account) : (s.modAccount n f).times = s.times := rfl
@[simp] theorem State.modAccount_arbiter (n : Nat) (f : Account → Account) : (s.modAccount n f).arbiter = s.arbiter := rfl
@[simp] theorem State.modAccount_pump (n : Nat) (f : Account → Account) : (s.modAccount n f).pump = s.pump := rfl
@[simp] theorem State.modAccount_stock (n : Nat) (f : Account → Account) : (s.modAccount n f).stock = s.stock := rfl
@[simp] theorem State.modAccount_probes (n : Nat) (f : Account → Account) : (s.modAccount n f).probes = s.probes := rfl
@[simp] theorem State.modAccount_stockSettle (n : Nat) (f : Account → Account) : (s.modAccount n f).stockSettle = s.stockSettle := rfl
@[simp] theorem State.modAccount_loader (n : Nat) (f : Account → Account) : (s.modAccount n f).loader = s.loader := rfl
@[simp] theorem State.modAccount_journal (n : Nat) (f : Account → Account) : (s.modAccount n f).journal = s.journal := rfl
@[simp] theorem State.modAccount_clock (n : Nat) (f : Account → Account) : (s.modAccount n f).clock = s.clock := rfl
@[simp] theorem State.modAccount_ports (n : Nat) (f : Account → Account) : (s.modAccount n f).ports = s.ports := rfl
@[simp] theorem State.modAccount_roles (n : Nat) (f : Account → Account) : (s.modAccount n f).roles = s.roles := rfl
@[simp] theorem State.modAccount_watch (n : Nat) (f : Account → Account) : (s.modAccount n f).watch = s.watch := rfl
@[simp] theorem State.modAccount_power (n : Nat) (f : Account → Account) : (s.modAccount n f).power = s.power := rfl
@[simp] theorem State.modAccount_choices (n : Nat) (f : Account → Account) : (s.modAccount n f).choices = s.choices := rfl
@[simp] theorem State.modAccount_pending (n : Nat) (f : Account → Account) : (s.modAccount n f).pending = s.pending := rfl

/-! ### State.raiseOn -/

@[simp] theorem State.raiseOn_channels (o : PortId) (n : Notice) : (s.raiseOn o n).channels = s.channels := rfl
@[simp] theorem State.raiseOn_couplers (o : PortId) (n : Notice) : (s.raiseOn o n).couplers = s.couplers := rfl
@[simp] theorem State.raiseOn_roster (o : PortId) (n : Notice) : (s.raiseOn o n).roster = s.roster := rfl
@[simp] theorem State.raiseOn_accounts (o : PortId) (n : Notice) : (s.raiseOn o n).accounts = s.accounts := rfl
@[simp] theorem State.raiseOn_products (o : PortId) (n : Notice) : (s.raiseOn o n).products = s.products := rfl
@[simp] theorem State.raiseOn_prices (o : PortId) (n : Notice) : (s.raiseOn o n).prices = s.prices := rfl
@[simp] theorem State.raiseOn_limits (o : PortId) (n : Notice) : (s.raiseOn o n).limits = s.limits := rfl
@[simp] theorem State.raiseOn_points (o : PortId) (n : Notice) : (s.raiseOn o n).points = s.points := rfl
@[simp] theorem State.raiseOn_times (o : PortId) (n : Notice) : (s.raiseOn o n).times = s.times := rfl
@[simp] theorem State.raiseOn_arbiter (o : PortId) (n : Notice) : (s.raiseOn o n).arbiter = s.arbiter := rfl
@[simp] theorem State.raiseOn_pump (o : PortId) (n : Notice) : (s.raiseOn o n).pump = s.pump := rfl
@[simp] theorem State.raiseOn_stock (o : PortId) (n : Notice) : (s.raiseOn o n).stock = s.stock := rfl
@[simp] theorem State.raiseOn_probes (o : PortId) (n : Notice) : (s.raiseOn o n).probes = s.probes := rfl
@[simp] theorem State.raiseOn_stockSettle (o : PortId) (n : Notice) : (s.raiseOn o n).stockSettle = s.stockSettle := rfl
@[simp] theorem State.raiseOn_loader (o : PortId) (n : Notice) : (s.raiseOn o n).loader = s.loader := rfl
@[simp] theorem State.raiseOn_journal (o : PortId) (n : Notice) : (s.raiseOn o n).journal = s.journal := rfl
@[simp] theorem State.raiseOn_clock (o : PortId) (n : Notice) : (s.raiseOn o n).clock = s.clock := rfl
@[simp] theorem State.raiseOn_roles (o : PortId) (n : Notice) : (s.raiseOn o n).roles = s.roles := rfl
@[simp] theorem State.raiseOn_watch (o : PortId) (n : Notice) : (s.raiseOn o n).watch = s.watch := rfl
@[simp] theorem State.raiseOn_power (o : PortId) (n : Notice) : (s.raiseOn o n).power = s.power := rfl
@[simp] theorem State.raiseOn_choices (o : PortId) (n : Notice) : (s.raiseOn o n).choices = s.choices := rfl
@[simp] theorem State.raiseOn_pending (o : PortId) (n : Notice) : (s.raiseOn o n).pending = s.pending := rfl

/-! ### State.raise -/

@[simp] theorem State.raise_channels (n : Notice) : (s.raise n).channels = s.channels := rfl
@[simp] theorem State.raise_couplers (n : Notice) : (s.raise n).couplers = s.couplers := rfl
@[simp] theorem State.raise_roster (n : Notice) : (s.raise n).roster = s.roster := rfl
@[simp] theorem State.raise_accounts (n : Notice) : (s.raise n).accounts = s.accounts := rfl
@[simp] theorem State.raise_products (n : Notice) : (s.raise n).products = s.products := rfl
@[simp] theorem State.raise_prices (n : Notice) : (s.raise n).prices = s.prices := rfl
@[simp] theorem State.raise_limits (n : Notice) : (s.raise n).limits = s.limits := rfl
@[simp] theorem State.raise_points (n : Notice) : (s.raise n).points = s.points := rfl
@[simp] theorem State.raise_times (n : Notice) : (s.raise n).times = s.times := rfl
@[simp] theorem State.raise_arbiter (n : Notice) : (s.raise n).arbiter = s.arbiter := rfl
@[simp] theorem State.raise_pump (n : Notice) : (s.raise n).pump = s.pump := rfl
@[simp] theorem State.raise_stock (n : Notice) : (s.raise n).stock = s.stock := rfl
@[simp] theorem State.raise_probes (n : Notice) : (s.raise n).probes = s.probes := rfl
@[simp] theorem State.raise_stockSettle (n : Notice) : (s.raise n).stockSettle = s.stockSettle := rfl
@[simp] theorem State.raise_loader (n : Notice) : (s.raise n).loader = s.loader := rfl
@[simp] theorem State.raise_journal (n : Notice) : (s.raise n).journal = s.journal := rfl
@[simp] theorem State.raise_clock (n : Notice) : (s.raise n).clock = s.clock := rfl
@[simp] theorem State.raise_roles (n : Notice) : (s.raise n).roles = s.roles := rfl
@[simp] theorem State.raise_watch (n : Notice) : (s.raise n).watch = s.watch := rfl
@[simp] theorem State.raise_power (n : Notice) : (s.raise n).power = s.power := rfl
@[simp] theorem State.raise_choices (n : Notice) : (s.raise n).choices = s.choices := rfl
@[simp] theorem State.raise_pending (n : Notice) : (s.raise n).pending = s.pending := rfl

/-! ### State.withdraw -/

@[simp] theorem State.withdraw_channels (n : Notice) : (s.withdraw n).channels = s.channels := rfl
@[simp] theorem State.withdraw_couplers (n : Notice) : (s.withdraw n).couplers = s.couplers := rfl
@[simp] theorem State.withdraw_roster (n : Notice) : (s.withdraw n).roster = s.roster := rfl
@[simp] theorem State.withdraw_accounts (n : Notice) : (s.withdraw n).accounts = s.accounts := rfl
@[simp] theorem State.withdraw_products (n : Notice) : (s.withdraw n).products = s.products := rfl
@[simp] theorem State.withdraw_prices (n : Notice) : (s.withdraw n).prices = s.prices := rfl
@[simp] theorem State.withdraw_limits (n : Notice) : (s.withdraw n).limits = s.limits := rfl
@[simp] theorem State.withdraw_points (n : Notice) : (s.withdraw n).points = s.points := rfl
@[simp] theorem State.withdraw_times (n : Notice) : (s.withdraw n).times = s.times := rfl
@[simp] theorem State.withdraw_arbiter (n : Notice) : (s.withdraw n).arbiter = s.arbiter := rfl
@[simp] theorem State.withdraw_pump (n : Notice) : (s.withdraw n).pump = s.pump := rfl
@[simp] theorem State.withdraw_stock (n : Notice) : (s.withdraw n).stock = s.stock := rfl
@[simp] theorem State.withdraw_probes (n : Notice) : (s.withdraw n).probes = s.probes := rfl
@[simp] theorem State.withdraw_stockSettle (n : Notice) : (s.withdraw n).stockSettle = s.stockSettle := rfl
@[simp] theorem State.withdraw_loader (n : Notice) : (s.withdraw n).loader = s.loader := rfl
@[simp] theorem State.withdraw_journal (n : Notice) : (s.withdraw n).journal = s.journal := rfl
@[simp] theorem State.withdraw_clock (n : Notice) : (s.withdraw n).clock = s.clock := rfl
@[simp] theorem State.withdraw_roles (n : Notice) : (s.withdraw n).roles = s.roles := rfl
@[simp] theorem State.withdraw_watch (n : Notice) : (s.withdraw n).watch = s.watch := rfl
@[simp] theorem State.withdraw_power (n : Notice) : (s.withdraw n).power = s.power := rfl
@[simp] theorem State.withdraw_choices (n : Notice) : (s.withdraw n).choices = s.choices := rfl
@[simp] theorem State.withdraw_pending (n : Notice) : (s.withdraw n).pending = s.pending := rfl

/-! ### Reads of one item -/

@[simp] theorem State.setCoupler_point (p : PointId) (x : Coupler) (q : PointId) : (s.setCoupler p x).point q = s.point q := rfl
@[simp] theorem State.setChannel_point (c : ChannelId) (x : Channel) (q : PointId) : (s.setChannel c x).point q = s.point q := rfl
@[simp] theorem State.setPort_point (o : PortId) (x : Port) (q : PointId) : (s.setPort o x).point q = s.point q := rfl
@[simp] theorem State.setComp_point (c : CompId) (x : Option Compartment) (q : PointId) : (s.setComp c x).point q = s.point q := rfl
@[simp] theorem State.setArbiter_point (x : Arbiter) (q : PointId) : (s.setArbiter x).point q = s.point q := rfl
@[simp] theorem State.setPump_point (x : Pump) (q : PointId) : (s.setPump x).point q = s.point q := rfl
@[simp] theorem State.setLoader_point (x : Loader) (q : PointId) : (s.setLoader x).point q = s.point q := rfl
@[simp] theorem State.setJournal_point (x : Journal) (q : PointId) : (s.setJournal x).point q = s.point q := rfl
@[simp] theorem State.setWatch_point (x : Watch) (q : PointId) : (s.setWatch x).point q = s.point q := rfl
@[simp] theorem State.setRoles_point (x : Roles) (q : PointId) : (s.setRoles x).point q = s.point q := rfl
@[simp] theorem State.setClock_point (x : Clock) (q : PointId) : (s.setClock x).point q = s.point q := rfl
@[simp] theorem State.setPower_point (x : Power) (q : PointId) : (s.setPower x).point q = s.point q := rfl
@[simp] theorem State.setRoster_point (x : List MachineRec) (q : PointId) : (s.setRoster x).point q = s.point q := rfl
@[simp] theorem State.setAccounts_point (x : List Account) (q : PointId) : (s.setAccounts x).point q = s.point q := rfl
@[simp] theorem State.modComp_point (c : CompId) (f : Compartment → Compartment) (q : PointId) : (s.modComp c f).point q = s.point q := rfl
@[simp] theorem State.modMachine_point (n : Nat) (f : MachineRec → MachineRec) (q : PointId) : (s.modMachine n f).point q = s.point q := rfl
@[simp] theorem State.modAccount_point (n : Nat) (f : Account → Account) (q : PointId) : (s.modAccount n f).point q = s.point q := rfl
@[simp] theorem State.raiseOn_point (o : PortId) (n : Notice) (q : PointId) : (s.raiseOn o n).point q = s.point q := rfl
@[simp] theorem State.raise_point (n : Notice) (q : PointId) : (s.raise n).point q = s.point q := rfl
@[simp] theorem State.withdraw_point (n : Notice) (q : PointId) : (s.withdraw n).point q = s.point q := rfl
@[simp] theorem State.setPoint_point_same (p : PointId) (x : Point) : (s.setPoint p x).point p = x := Pair.get_set_same _ _ _
@[simp] theorem State.setPoint_point_ne (p q : PointId) (x : Point) (h : q ≠ p) : (s.setPoint p x).point q = s.point q :=
  Pair.get_set_ne _ _ _ _ h
theorem State.setPoint_point (p q : PointId) (x : Point) : (s.setPoint p x).point q = if q = p then x else s.point q :=
  Pair.get_set _ _ _ _

@[simp] theorem State.setPoint_coupler (p : PointId) (x : Point) (q : PointId) : (s.setPoint p x).coupler q = s.coupler q := rfl
@[simp] theorem State.setChannel_coupler (c : ChannelId) (x : Channel) (q : PointId) : (s.setChannel c x).coupler q = s.coupler q := rfl
@[simp] theorem State.setPort_coupler (o : PortId) (x : Port) (q : PointId) : (s.setPort o x).coupler q = s.coupler q := rfl
@[simp] theorem State.setComp_coupler (c : CompId) (x : Option Compartment) (q : PointId) : (s.setComp c x).coupler q = s.coupler q := rfl
@[simp] theorem State.setArbiter_coupler (x : Arbiter) (q : PointId) : (s.setArbiter x).coupler q = s.coupler q := rfl
@[simp] theorem State.setPump_coupler (x : Pump) (q : PointId) : (s.setPump x).coupler q = s.coupler q := rfl
@[simp] theorem State.setLoader_coupler (x : Loader) (q : PointId) : (s.setLoader x).coupler q = s.coupler q := rfl
@[simp] theorem State.setJournal_coupler (x : Journal) (q : PointId) : (s.setJournal x).coupler q = s.coupler q := rfl
@[simp] theorem State.setWatch_coupler (x : Watch) (q : PointId) : (s.setWatch x).coupler q = s.coupler q := rfl
@[simp] theorem State.setRoles_coupler (x : Roles) (q : PointId) : (s.setRoles x).coupler q = s.coupler q := rfl
@[simp] theorem State.setClock_coupler (x : Clock) (q : PointId) : (s.setClock x).coupler q = s.coupler q := rfl
@[simp] theorem State.setPower_coupler (x : Power) (q : PointId) : (s.setPower x).coupler q = s.coupler q := rfl
@[simp] theorem State.setRoster_coupler (x : List MachineRec) (q : PointId) : (s.setRoster x).coupler q = s.coupler q := rfl
@[simp] theorem State.setAccounts_coupler (x : List Account) (q : PointId) : (s.setAccounts x).coupler q = s.coupler q := rfl
@[simp] theorem State.modComp_coupler (c : CompId) (f : Compartment → Compartment) (q : PointId) : (s.modComp c f).coupler q = s.coupler q := rfl
@[simp] theorem State.modMachine_coupler (n : Nat) (f : MachineRec → MachineRec) (q : PointId) : (s.modMachine n f).coupler q = s.coupler q := rfl
@[simp] theorem State.modAccount_coupler (n : Nat) (f : Account → Account) (q : PointId) : (s.modAccount n f).coupler q = s.coupler q := rfl
@[simp] theorem State.raiseOn_coupler (o : PortId) (n : Notice) (q : PointId) : (s.raiseOn o n).coupler q = s.coupler q := rfl
@[simp] theorem State.raise_coupler (n : Notice) (q : PointId) : (s.raise n).coupler q = s.coupler q := rfl
@[simp] theorem State.withdraw_coupler (n : Notice) (q : PointId) : (s.withdraw n).coupler q = s.coupler q := rfl
@[simp] theorem State.setCoupler_coupler_same (p : PointId) (x : Coupler) : (s.setCoupler p x).coupler p = x := Pair.get_set_same _ _ _
@[simp] theorem State.setCoupler_coupler_ne (p q : PointId) (x : Coupler) (h : q ≠ p) : (s.setCoupler p x).coupler q = s.coupler q :=
  Pair.get_set_ne _ _ _ _ h
theorem State.setCoupler_coupler (p q : PointId) (x : Coupler) : (s.setCoupler p x).coupler q = if q = p then x else s.coupler q :=
  Pair.get_set _ _ _ _

@[simp] theorem State.setPoint_channel (p : PointId) (x : Point) (q : ChannelId) : (s.setPoint p x).channel q = s.channel q := rfl
@[simp] theorem State.setCoupler_channel (p : PointId) (x : Coupler) (q : ChannelId) : (s.setCoupler p x).channel q = s.channel q := rfl
@[simp] theorem State.setPort_channel (o : PortId) (x : Port) (q : ChannelId) : (s.setPort o x).channel q = s.channel q := rfl
@[simp] theorem State.setComp_channel (c : CompId) (x : Option Compartment) (q : ChannelId) : (s.setComp c x).channel q = s.channel q := rfl
@[simp] theorem State.setArbiter_channel (x : Arbiter) (q : ChannelId) : (s.setArbiter x).channel q = s.channel q := rfl
@[simp] theorem State.setPump_channel (x : Pump) (q : ChannelId) : (s.setPump x).channel q = s.channel q := rfl
@[simp] theorem State.setLoader_channel (x : Loader) (q : ChannelId) : (s.setLoader x).channel q = s.channel q := rfl
@[simp] theorem State.setJournal_channel (x : Journal) (q : ChannelId) : (s.setJournal x).channel q = s.channel q := rfl
@[simp] theorem State.setWatch_channel (x : Watch) (q : ChannelId) : (s.setWatch x).channel q = s.channel q := rfl
@[simp] theorem State.setRoles_channel (x : Roles) (q : ChannelId) : (s.setRoles x).channel q = s.channel q := rfl
@[simp] theorem State.setClock_channel (x : Clock) (q : ChannelId) : (s.setClock x).channel q = s.channel q := rfl
@[simp] theorem State.setPower_channel (x : Power) (q : ChannelId) : (s.setPower x).channel q = s.channel q := rfl
@[simp] theorem State.setRoster_channel (x : List MachineRec) (q : ChannelId) : (s.setRoster x).channel q = s.channel q := rfl
@[simp] theorem State.setAccounts_channel (x : List Account) (q : ChannelId) : (s.setAccounts x).channel q = s.channel q := rfl
@[simp] theorem State.modComp_channel (c : CompId) (f : Compartment → Compartment) (q : ChannelId) : (s.modComp c f).channel q = s.channel q := rfl
@[simp] theorem State.modMachine_channel (n : Nat) (f : MachineRec → MachineRec) (q : ChannelId) : (s.modMachine n f).channel q = s.channel q := rfl
@[simp] theorem State.modAccount_channel (n : Nat) (f : Account → Account) (q : ChannelId) : (s.modAccount n f).channel q = s.channel q := rfl
@[simp] theorem State.raiseOn_channel (o : PortId) (n : Notice) (q : ChannelId) : (s.raiseOn o n).channel q = s.channel q := rfl
@[simp] theorem State.raise_channel (n : Notice) (q : ChannelId) : (s.raise n).channel q = s.channel q := rfl
@[simp] theorem State.withdraw_channel (n : Notice) (q : ChannelId) : (s.withdraw n).channel q = s.channel q := rfl
@[simp] theorem State.setChannel_channel_same (c : ChannelId) (x : Channel) : (s.setChannel c x).channel c = x := Triple.channel_setChannel_same _ _ _
@[simp] theorem State.setChannel_channel_ne (c q : ChannelId) (x : Channel) (h : q ≠ c) : (s.setChannel c x).channel q = s.channel q :=
  Triple.channel_setChannel_ne _ _ _ _ h
theorem State.setChannel_channel (c q : ChannelId) (x : Channel) : (s.setChannel c x).channel q = if q = c then x else s.channel q :=
  Triple.channel_setChannel _ _ _ _

@[simp] theorem State.setPoint_port (p : PointId) (x : Point) (q : PortId) : (s.setPoint p x).port q = s.port q := rfl
@[simp] theorem State.setCoupler_port (p : PointId) (x : Coupler) (q : PortId) : (s.setCoupler p x).port q = s.port q := rfl
@[simp] theorem State.setChannel_port (c : ChannelId) (x : Channel) (q : PortId) : (s.setChannel c x).port q = s.port q := rfl
@[simp] theorem State.setComp_port (c : CompId) (x : Option Compartment) (q : PortId) : (s.setComp c x).port q = s.port q := rfl
@[simp] theorem State.setArbiter_port (x : Arbiter) (q : PortId) : (s.setArbiter x).port q = s.port q := rfl
@[simp] theorem State.setPump_port (x : Pump) (q : PortId) : (s.setPump x).port q = s.port q := rfl
@[simp] theorem State.setLoader_port (x : Loader) (q : PortId) : (s.setLoader x).port q = s.port q := rfl
@[simp] theorem State.setJournal_port (x : Journal) (q : PortId) : (s.setJournal x).port q = s.port q := rfl
@[simp] theorem State.setWatch_port (x : Watch) (q : PortId) : (s.setWatch x).port q = s.port q := rfl
@[simp] theorem State.setRoles_port (x : Roles) (q : PortId) : (s.setRoles x).port q = s.port q := rfl
@[simp] theorem State.setClock_port (x : Clock) (q : PortId) : (s.setClock x).port q = s.port q := rfl
@[simp] theorem State.setPower_port (x : Power) (q : PortId) : (s.setPower x).port q = s.port q := rfl
@[simp] theorem State.setRoster_port (x : List MachineRec) (q : PortId) : (s.setRoster x).port q = s.port q := rfl
@[simp] theorem State.setAccounts_port (x : List Account) (q : PortId) : (s.setAccounts x).port q = s.port q := rfl
@[simp] theorem State.modComp_port (c : CompId) (f : Compartment → Compartment) (q : PortId) : (s.modComp c f).port q = s.port q := rfl
@[simp] theorem State.modMachine_port (n : Nat) (f : MachineRec → MachineRec) (q : PortId) : (s.modMachine n f).port q = s.port q := rfl
@[simp] theorem State.modAccount_port (n : Nat) (f : Account → Account) (q : PortId) : (s.modAccount n f).port q = s.port q := rfl
@[simp] theorem State.setPort_port_same (o : PortId) (x : Port) : (s.setPort o x).port o = x := Triple.port_setPort_same _ _ _
@[simp] theorem State.setPort_port_ne (o q : PortId) (x : Port) (h : q ≠ o) : (s.setPort o x).port q = s.port q :=
  Triple.port_setPort_ne _ _ _ _ h
theorem State.setPort_port (o q : PortId) (x : Port) : (s.setPort o x).port q = if q = o then x else s.port q :=
  Triple.port_setPort _ _ _ _

@[simp] theorem State.setPoint_comp (p : PointId) (x : Point) (q : CompId) : (s.setPoint p x).comp q = s.comp q := rfl
@[simp] theorem State.setCoupler_comp (p : PointId) (x : Coupler) (q : CompId) : (s.setCoupler p x).comp q = s.comp q := rfl
@[simp] theorem State.setChannel_comp (c : ChannelId) (x : Channel) (q : CompId) : (s.setChannel c x).comp q = s.comp q := rfl
@[simp] theorem State.setPort_comp (o : PortId) (x : Port) (q : CompId) : (s.setPort o x).comp q = s.comp q := rfl
@[simp] theorem State.setArbiter_comp (x : Arbiter) (q : CompId) : (s.setArbiter x).comp q = s.comp q := rfl
@[simp] theorem State.setPump_comp (x : Pump) (q : CompId) : (s.setPump x).comp q = s.comp q := rfl
@[simp] theorem State.setLoader_comp (x : Loader) (q : CompId) : (s.setLoader x).comp q = s.comp q := rfl
@[simp] theorem State.setJournal_comp (x : Journal) (q : CompId) : (s.setJournal x).comp q = s.comp q := rfl
@[simp] theorem State.setWatch_comp (x : Watch) (q : CompId) : (s.setWatch x).comp q = s.comp q := rfl
@[simp] theorem State.setRoles_comp (x : Roles) (q : CompId) : (s.setRoles x).comp q = s.comp q := rfl
@[simp] theorem State.setClock_comp (x : Clock) (q : CompId) : (s.setClock x).comp q = s.comp q := rfl
@[simp] theorem State.setPower_comp (x : Power) (q : CompId) : (s.setPower x).comp q = s.comp q := rfl
@[simp] theorem State.setRoster_comp (x : List MachineRec) (q : CompId) : (s.setRoster x).comp q = s.comp q := rfl
@[simp] theorem State.setAccounts_comp (x : List Account) (q : CompId) : (s.setAccounts x).comp q = s.comp q := rfl
@[simp] theorem State.modMachine_comp (n : Nat) (f : MachineRec → MachineRec) (q : CompId) : (s.modMachine n f).comp q = s.comp q := rfl
@[simp] theorem State.modAccount_comp (n : Nat) (f : Account → Account) (q : CompId) : (s.modAccount n f).comp q = s.comp q := rfl
@[simp] theorem State.raiseOn_comp (o : PortId) (n : Notice) (q : CompId) : (s.raiseOn o n).comp q = s.comp q := rfl
@[simp] theorem State.raise_comp (n : Notice) (q : CompId) : (s.raise n).comp q = s.comp q := rfl
@[simp] theorem State.withdraw_comp (n : Notice) (q : CompId) : (s.withdraw n).comp q = s.comp q := rfl
@[simp] theorem State.setComp_comp_same (c : CompId) (x : Option Compartment) : (s.setComp c x).comp c = x := Quad.get_set_same _ _ _
@[simp] theorem State.setComp_comp_ne (c q : CompId) (x : Option Compartment) (h : q ≠ c) : (s.setComp c x).comp q = s.comp q :=
  Quad.get_set_ne _ _ _ _ h
theorem State.setComp_comp (c q : CompId) (x : Option Compartment) : (s.setComp c x).comp q = if q = c then x else s.comp q :=
  Quad.get_set _ _ _ _

@[simp] theorem State.modComp_comp_same (c : CompId) (f : Compartment → Compartment) :
    (s.modComp c f).comp c = (s.comp c).map f := State.setComp_comp_same _ _ _

@[simp] theorem State.modComp_comp_ne (c q : CompId) (f : Compartment → Compartment) (h : q ≠ c) :
    (s.modComp c f).comp q = s.comp q := State.setComp_comp_ne _ _ _ _ h

theorem State.modComp_comp (c q : CompId) (f : Compartment → Compartment) :
    (s.modComp c f).comp q = if q = c then (s.comp c).map f else s.comp q := State.setComp_comp _ _ _ _

@[simp] theorem State.setPoint_inReset (p : PointId) (x : Point) : (s.setPoint p x).inReset = s.inReset := rfl
@[simp] theorem State.setCoupler_inReset (p : PointId) (x : Coupler) : (s.setCoupler p x).inReset = s.inReset := rfl
@[simp] theorem State.setChannel_inReset (c : ChannelId) (x : Channel) : (s.setChannel c x).inReset = s.inReset := rfl
@[simp] theorem State.setPort_inReset (o : PortId) (x : Port) : (s.setPort o x).inReset = s.inReset := rfl
@[simp] theorem State.setComp_inReset (c : CompId) (x : Option Compartment) : (s.setComp c x).inReset = s.inReset := rfl
@[simp] theorem State.setArbiter_inReset (x : Arbiter) : (s.setArbiter x).inReset = s.inReset := rfl
@[simp] theorem State.setPump_inReset (x : Pump) : (s.setPump x).inReset = s.inReset := rfl
@[simp] theorem State.setLoader_inReset (x : Loader) : (s.setLoader x).inReset = s.inReset := rfl
@[simp] theorem State.setJournal_inReset (x : Journal) : (s.setJournal x).inReset = s.inReset := rfl
@[simp] theorem State.setWatch_inReset (x : Watch) : (s.setWatch x).inReset = s.inReset := rfl
@[simp] theorem State.setRoles_inReset (x : Roles) : (s.setRoles x).inReset = s.inReset := rfl
@[simp] theorem State.setClock_inReset (x : Clock) : (s.setClock x).inReset = s.inReset := rfl
@[simp] theorem State.setRoster_inReset (x : List MachineRec) : (s.setRoster x).inReset = s.inReset := rfl
@[simp] theorem State.setAccounts_inReset (x : List Account) : (s.setAccounts x).inReset = s.inReset := rfl
@[simp] theorem State.modComp_inReset (c : CompId) (f : Compartment → Compartment) : (s.modComp c f).inReset = s.inReset := rfl
@[simp] theorem State.modMachine_inReset (n : Nat) (f : MachineRec → MachineRec) : (s.modMachine n f).inReset = s.inReset := rfl
@[simp] theorem State.modAccount_inReset (n : Nat) (f : Account → Account) : (s.modAccount n f).inReset = s.inReset := rfl
@[simp] theorem State.raiseOn_inReset (o : PortId) (n : Notice) : (s.raiseOn o n).inReset = s.inReset := rfl
@[simp] theorem State.raise_inReset (n : Notice) : (s.raise n).inReset = s.inReset := rfl
@[simp] theorem State.withdraw_inReset (n : Notice) : (s.withdraw n).inReset = s.inReset := rfl

@[simp] theorem State.setPoint_setPoint (p : PointId) (x y : Point) : (s.setPoint p x).setPoint p y = s.setPoint p y := by
  simp [State.setPoint]
@[simp] theorem State.setCoupler_setCoupler (p : PointId) (x y : Coupler) : (s.setCoupler p x).setCoupler p y = s.setCoupler p y := by
  simp [State.setCoupler]
@[simp] theorem State.setChannel_setChannel (c : ChannelId) (x y : Channel) : (s.setChannel c x).setChannel c y = s.setChannel c y := by
  simp [State.setChannel]
@[simp] theorem State.setPort_setPort (o : PortId) (x y : Port) : (s.setPort o x).setPort o y = s.setPort o y := by
  simp [State.setPort]
@[simp] theorem State.setComp_setComp (c : CompId) (x y : Option Compartment) : (s.setComp c x).setComp c y = s.setComp c y := by
  simp [State.setComp]
@[simp] theorem State.setArbiter_setArbiter (x y : Arbiter) : (s.setArbiter x).setArbiter y = s.setArbiter y := rfl
@[simp] theorem State.setPump_setPump (x y : Pump) : (s.setPump x).setPump y = s.setPump y := rfl
@[simp] theorem State.setLoader_setLoader (x y : Loader) : (s.setLoader x).setLoader y = s.setLoader y := rfl
@[simp] theorem State.setJournal_setJournal (x y : Journal) : (s.setJournal x).setJournal y = s.setJournal y := rfl
@[simp] theorem State.setWatch_setWatch (x y : Watch) : (s.setWatch x).setWatch y = s.setWatch y := rfl
@[simp] theorem State.setRoles_setRoles (x y : Roles) : (s.setRoles x).setRoles y = s.setRoles y := rfl
@[simp] theorem State.setClock_setClock (x y : Clock) : (s.setClock x).setClock y = s.setClock y := rfl
@[simp] theorem State.setPower_setPower (x y : Power) : (s.setPower x).setPower y = s.setPower y := rfl
@[simp] theorem State.setRoster_setRoster (x y : List MachineRec) : (s.setRoster x).setRoster y = s.setRoster y := rfl
@[simp] theorem State.setAccounts_setAccounts (x y : List Account) : (s.setAccounts x).setAccounts y = s.setAccounts y := rfl

end Sys2Proof.Machine
end

