-- ==== Sys2Proof/Laws/Follow.lean ====
section
/-! SUPPORT. What the other blocks can change in the step in which they follow: `State.follow` relates its two states by
`State.FollowedBy`, and so does each operation it is made of. -/

namespace Sys2Proof.Machine

open Sys2Proof

theorem Point.MovesTo.refl (x : Point) : x.MovesTo x := ⟨fun _ => rfl, rfl, .inl rfl⟩

theorem Point.MovesTo.trans {x y z : Point} (h : x.MovesTo y) (k : y.MovesTo z) : x.MovesTo z := by
  refine ⟨fun hx => ?_, ?_, ?_⟩
  · have e := h.still hx
    subst e
    exact k.still hx
  · rw [k.kept, h.kept]
  · rcases k.state with e | e | e
    · rw [e]; exact h.state
    · exact .inr (.inl e)
    · exact .inr (.inr e)

theorem Compartment.LoadsTo.refl (x : Compartment) : x.LoadsTo x := ⟨rfl, .inl rfl⟩

theorem Compartment.LoadsTo.trans {x y z : Compartment} (h : x.LoadsTo y) (k : y.LoadsTo z) : x.LoadsTo z := by
  refine ⟨?_, ?_⟩
  · rw [k.1, h.1]
  · rcases k.2 with e | e
    · rw [e]; exact h.2
    · exact .inr e

theorem Port.has_raise (x : Port) (m n : Notice) : (x.raise m).has n = (x.has n || n == m) := by
  cases m <;> cases n <;> simp [Port.has, Port.raise, Port.follow, Notice.flag, Notice.bit]

theorem Port.has_withdraw (x : Port) (m n : Notice) : (x.withdraw m).has n = (x.has n && n != m) := by
  cases m <;> cases n <;> simp [Port.has, Port.withdraw, Port.follow, Notice.flag, Notice.bit]

theorem State.FollowedBy.refl (s : State) : s.FollowedBy s := by
  refine ⟨rfl, rfl, rfl, fun _ => rfl, fun _ _ => rfl, fun p => Point.MovesTo.refl _, rfl,
    fun _ _ h k => ⟨h, k, rfl, rfl⟩, rfl, fun _ => rfl, fun _ h => h, fun _ x h => ⟨x, h, .refl x⟩, rfl, rfl, fun _ => rfl,
    fun _ _ _ h => h, rfl, ?_⟩
  simp

theorem State.FollowedBy.trans {s t u : State} (h : s.FollowedBy t) (k : t.FollowedBy u) : s.FollowedBy u := by
  refine ⟨k.channelA.trans h.channelA, k.channelB.trans h.channelB, ?_, fun p => ?_, fun p hp => ?_,
    fun p => (h.points p).trans (k.points p), ?_, fun p hp hw ha => ?_, ?_, fun hb => ?_, fun c hc => k.unconfigured c (h.unconfigured c hc),
    fun c x hx => ?_, ?_, ?_, fun o => ?_,
    fun o n hn hx => k.notices o n hn (h.notices o n hn hx), ?_, ?_⟩
  · have e := k.channelLoad
    have f := h.channelLoad
    unfold Channel.BindsTo at *
    rw [e, f]
  · rw [k.couplers p, h.couplers p]
  · have e := (h.points p).still hp
    rw [k.couplersStill p (by rw [e]; exact hp), h.couplersStill p hp]
  · rw [k.arbiter, h.arbiter]
  · obtain ⟨a1, a2, a3, a4⟩ := h.noRequest p hp hw ha
    obtain ⟨b1, b2, b3, b4⟩ := k.noRequest p (by rw [(h.points p).still hp]; exact hp) a1 a2
    exact ⟨b1, b2, b3.trans a3, b4.trans a4⟩
  · rw [k.pump, h.pump]
  · have e := h.pumpStill hb
    rw [k.pumpStill (by rw [e]; exact hb), e]
  · obtain ⟨y, hy, e⟩ := h.comps c x hx
    obtain ⟨z, hz, f⟩ := k.comps c y hy
    exact ⟨z, hz, e.trans f⟩
  · rw [k.loader, h.loader]
  · rw [k.journal, h.journal]
  · rw [k.ports o, h.ports o]
  · rw [k.watch, h.watch]
  · obtain ⟨a1, a2, a3, a4, a5, a6, a7, a8, a9, b1, b2, b3, b4⟩ := h.rest
    obtain ⟨c1, c2, c3, c4, c5, c6, c7, c8, c9, d1, d2, d3, d4⟩ := k.rest
    exact ⟨c1.trans a1, c2.trans a2, c3.trans a3, c4.trans a4, c5.trans a5, c6.trans a6, c7.trans a7, c8.trans a8,
      c9.trans a9, d1.trans b1, d2.trans b2, d3.trans b3, d4.trans b4⟩

/-! ### The pieces -/

/-- A move of one point that a grant may make. -/
theorem State.FollowedBy.of_grant (s : State) (p : PointId) (x : Point) (y : Coupler) (a : Arbiter)
    (hs : (s.point p).state = .waitSuction) (hx : (s.point p).MovesTo x)
    (hy : y = { s.coupler p with grace := y.grace })
    (ha : a = { s.arbiter with
      selector := a.selector, motor := a.motor, waiting := a.waiting, admitted := a.admitted, claims := a.claims
      hold := a.hold, travel := a.travel, lastGranted := a.lastGranted })
    (hn : ∀ q, q ≠ p → a.waiting.get q = s.arbiter.waiting.get q ∧ a.admitted.get q = s.arbiter.admitted.get q ∧
      a.claims.get q = s.arbiter.claims.get q ∧ a.hold.get q = s.arbiter.hold.get q) :
    s.FollowedBy (((s.setPoint p x).setCoupler p y).setArbiter a) := by
  refine ⟨rfl, rfl, rfl, fun q => ?_, fun q hq => ?_, fun q => ?_, ha, fun q hq hw hd => ?_, rfl,
    fun _ => rfl, fun _ h => h, fun _ y h => ⟨y, h, .refl y⟩, rfl, rfl, fun _ => rfl, fun _ _ _ h => h, rfl, ?_⟩
  · by_cases e : q = p
    · subst e; simpa using hy
    · simp [e]
  · have e : q ≠ p := fun e => hq (by rw [e, hs])
    simp [e]
  · by_cases e : q = p
    · subst e; simpa using hx
    · simpa [e] using Point.MovesTo.refl _
  · have e : q ≠ p := fun e => hq (by rw [e, hs])
    obtain ⟨h1, h2, h3, h4⟩ := hn q e
    exact ⟨h1.trans hw, h2.trans hd, h3, h4⟩
  · simp

/-- Only the arbiter's own state changes. -/
theorem State.FollowedBy.of_arbiter (s : State) (a : Arbiter)
    (ha : a = { s.arbiter with
      selector := a.selector, motor := a.motor, waiting := a.waiting, admitted := a.admitted, claims := a.claims
      hold := a.hold, travel := a.travel, lastGranted := a.lastGranted })
    (hn : ∀ q, s.arbiter.waiting.get q = none → s.arbiter.admitted.get q = false →
      a.waiting.get q = none ∧ a.admitted.get q = false ∧ a.claims.get q = s.arbiter.claims.get q ∧
        a.hold.get q = s.arbiter.hold.get q) :
    s.FollowedBy (s.setArbiter a) := by
  refine ⟨rfl, rfl, rfl, fun _ => rfl, fun _ _ => rfl, fun p => Point.MovesTo.refl _, ha,
    fun q _ hw hd => hn q hw hd, rfl, fun _ => rfl,
    fun _ h => h, fun _ x h => ⟨x, h, .refl x⟩, rfl, rfl, fun _ => rfl, fun _ _ _ h => h, rfl, ?_⟩
  simp

theorem State.grant_followedBy (s : State) (p : PointId) : s.FollowedBy (s.grant p) := by
  unfold State.grant
  split
  · rename_i d hd hs
    unfold State.grantFlow
    dsimp only
    split
    · have := State.FollowedBy.of_grant s p
        { (s.point p) with
          fastValve := false, slowValve := false, authTimer := none, pressWait := none, pumpSuspend := none
          flowStarted := true, state := .finishing, pendingEnd := some d.limitCause
          meterSettle := some s.times.meterSettle }
        { s.coupler p with grace := none } (((s.arbiter.withdraw p).withdraw p).dropClaim p) hs
        ⟨fun h => absurd hs h, rfl, .inr (.inl rfl)⟩ rfl rfl
        (fun q e => by simp [Arbiter.withdraw, Arbiter.dropClaim, e])
      simpa [State.finish, State.stopGrace, Point.shut, Point.stopTimers, State.setArbiter, State.setCoupler,
        State.setPoint, State.coupler, State.point] using this
    · have := State.FollowedBy.of_grant s p
        { (s.point p) with
          authTimer := none, flowStarted := true, state := .flowing (d.stageFor (s.point p).slowdown)
          fastValve := d.stageFor (s.point p).slowdown == .fast, slowValve := true }
        (s.coupler p) ((s.arbiter.withdraw p).flowClaim p) hs
        ⟨fun h => absurd hs h, rfl, .inr (.inr rfl)⟩ rfl rfl
        (fun q e => by simp [Arbiter.withdraw, Arbiter.flowClaim, e])
      simpa [State.flow, State.setArbiter, State.setCoupler, State.setPoint, State.coupler, State.point] using this
  · exact .refl s

theorem State.grantAdmitted_followedBy (s : State) (c : CompId) : s.FollowedBy (s.grantAdmitted c) := by
  unfold State.grantAdmitted
  have h := State.FollowedBy.of_arbiter s
    { s.arbiter with selector := .held c, motor := false, travel := none, admitted := { a := false, b := false } } rfl
    (fun q h _ => ⟨h, by cases q <;> rfl, rfl, rfl⟩)
  dsimp only
  split <;> split
  · exact h.trans ((State.grant_followedBy _ _).trans (State.grant_followedBy _ _))
  · exact h.trans (State.grant_followedBy _ _)
  · exact h.trans (State.grant_followedBy _ _)
  · exact h

/-- Admitting the requests for `c` leaves a point without a request as it was. -/
theorem Arbiter.admit_idle (a : Arbiter) (c : CompId) (q : PointId) (hw : a.waiting.get q = none)
    (hd : a.admitted.get q = false) :
    (a.admitFor c).waiting.get q = none ∧ (a.admitFor c).admitted.get q = false ∧
      (a.admitFor c).claims.get q = a.claims.get q ∧ (a.admitFor c).hold.get q = a.hold.get q := by
  cases q <;> simp_all [Arbiter.admitFor, Pair.get]

theorem State.pick_followedBy (s : State) : s.FollowedBy s.pick := by
  unfold State.pick
  split
  · split
    · unfold State.grantTo
      dsimp only
      split
      · refine State.FollowedBy.trans (State.FollowedBy.of_arbiter s _ ?_ ?_) (State.grantAdmitted_followedBy _ _)
        · rfl
        · exact fun q hw hd => Arbiter.admit_idle _ _ q hw hd
      · refine State.FollowedBy.of_arbiter s _ ?_ ?_
        · rfl
        · exact fun q hw hd => Arbiter.admit_idle _ _ q hw hd
    · exact .refl s
  · exact .refl s

theorem State.testRelease_followedBy (s : State) : s.FollowedBy s.testRelease := by
  unfold State.testRelease
  split
  · split
    · exact State.FollowedBy.of_arbiter s _ (by rfl) (fun q hw hd => ⟨hw, hd, rfl, rfl⟩)
    · exact .refl s
  · exact .refl s

theorem State.arbitrate_followedBy (s : State) : s.FollowedBy s.arbitrate := by
  unfold State.arbitrate
  exact (State.testRelease_followedBy _).trans ((State.pick_followedBy _).trans ((State.testRelease_followedBy _).trans
    ((State.pick_followedBy _).trans ((State.testRelease_followedBy _).trans (State.pick_followedBy _)))))

/-- Only what the sequencer owns changes: its own state, a compartment's state, settle timer and draining mark, the
journal's reservations, channel LOAD's binding and the ports' notices. -/
structure State.LoadsOnly (s t : State) : Prop where
  channelA : t.channels.first = s.channels.first
  channelB : t.channels.second = s.channels.second
  channelLoad : s.channels.third.BindsTo t.channels.third
  unconfigured : ∀ c, s.comp c = none → t.comp c = none
  comps : ∀ c x, s.comp c = some x → ∃ y, t.comp c = some y ∧ x.LoadsTo y
  loader :
    t.loader = { s.loader with
      state := t.loader.state, docket := t.loader.docket, current := t.loader.current, staged := t.loader.staged
      paused := t.loader.paused, stageEmpty := t.loader.stageEmpty, lastResult := t.loader.lastResult
      noFlow := t.loader.noFlow, settle := t.loader.settle, inlets := t.loader.inlets }
  journal : t.journal = { s.journal with reserved := t.journal.reserved, highMark := t.journal.highMark }
  ports : ∀ o, t.port o = { s.port o with notices := (t.port o).notices, attention := (t.port o).attention }
  notices : ∀ o n, n ≠ .loadStageEmpty → (s.port o).has n = true → (t.port o).has n = true
  rest :
    t.couplers = s.couplers ∧ t.roster = s.roster ∧ t.accounts = s.accounts ∧ t.products = s.products ∧
      t.prices = s.prices ∧ t.limits = s.limits ∧ t.points = s.points ∧ t.times = s.times ∧ t.arbiter = s.arbiter ∧
      t.pump = s.pump ∧ t.probes = s.probes ∧ t.stockSettle = s.stockSettle ∧ t.clock = s.clock ∧ t.roles = s.roles ∧
      t.watch = s.watch ∧ t.power = s.power ∧ t.choices = s.choices ∧ t.pending = s.pending

theorem State.LoadsOnly.refl (s : State) : s.LoadsOnly s := by
  refine ⟨rfl, rfl, rfl, fun _ h => h, fun _ x h => ⟨x, h, .refl x⟩, rfl, rfl, fun _ => rfl, fun _ _ _ h => h, ?_⟩
  simp

theorem State.LoadsOnly.trans {s t u : State} (h : s.LoadsOnly t) (k : t.LoadsOnly u) : s.LoadsOnly u := by
  refine ⟨k.channelA.trans h.channelA, k.channelB.trans h.channelB, ?_,
    fun c hc => k.unconfigured c (h.unconfigured c hc), fun c x hx => ?_, ?_, ?_, fun o => ?_,
    fun o n hn hx => k.notices o n hn (h.notices o n hn hx), ?_⟩
  · have e := k.channelLoad
    have f := h.channelLoad
    unfold Channel.BindsTo at *
    rw [e, f]
  · obtain ⟨y, hy, e⟩ := h.comps c x hx
    obtain ⟨z, hz, f⟩ := k.comps c y hy
    exact ⟨z, hz, e.trans f⟩
  · rw [k.loader, h.loader]
  · rw [k.journal, h.journal]
  · rw [k.ports o, h.ports o]
  · obtain ⟨a1, a2, a3, a4, a5, a6, a7, a8, a9, b1, b2, b3, b4, b5, b6, b7, b8, b9⟩ := h.rest
    obtain ⟨c1, c2, c3, c4, c5, c6, c7, c8, c9, d1, d2, d3, d4, d5, d6, d7, d8, d9⟩ := k.rest
    exact ⟨c1.trans a1, c2.trans a2, c3.trans a3, c4.trans a4, c5.trans a5, c6.trans a6, c7.trans a7, c8.trans a8,
      c9.trans a9, d1.trans b1, d2.trans b2, d3.trans b3, d4.trans b4, d5.trans b5, d6.trans b6, d7.trans b7,
      d8.trans b8, d9.trans b9⟩

theorem State.LoadsOnly.followedBy {s t : State} (h : s.LoadsOnly t) : s.FollowedBy t := by
  obtain ⟨a1, a2, a3, a4, a5, a6, a7, a8, a9, b1, b2, b3, b4, b5, b6, b7, b8, b9⟩ := h.rest
  refine ⟨h.channelA, h.channelB, h.channelLoad, fun p => by simp [State.coupler, a1],
    fun p _ => by simp [State.coupler, a1], fun p => ?_, by rw [a9],
    fun p _ hw hd => by rw [a9]; exact ⟨hw, hd, rfl, rfl⟩, by rw [b1], fun _ => b1, h.unconfigured, h.comps,
    h.loader, h.journal, h.ports, h.notices, by rw [b6], a2, a3, a4, a5, a6, a8, b2, b3, b4, b5, b7, b8, b9⟩
  have e : t.point p = s.point p := by simp [State.point, a7]
  rw [e]
  exact Point.MovesTo.refl _

theorem State.LoadsOnly.of_loader (s : State) (l : Loader)
    (h : l = { s.loader with
      state := l.state, docket := l.docket, current := l.current, staged := l.staged, paused := l.paused
      stageEmpty := l.stageEmpty, lastResult := l.lastResult, noFlow := l.noFlow, settle := l.settle
      inlets := l.inlets }) :
    s.LoadsOnly (s.setLoader l) := by
  refine ⟨rfl, rfl, rfl, fun _ h => h, fun _ x h => ⟨x, h, .refl x⟩, h, rfl, fun _ => rfl, fun _ _ _ h => h, ?_⟩
  simp

theorem State.LoadsOnly.of_journal (s : State) (j : Journal)
    (h : j = { s.journal with reserved := j.reserved, highMark := j.highMark }) : s.LoadsOnly (s.setJournal j) := by
  refine ⟨rfl, rfl, rfl, fun _ h => h, fun _ x h => ⟨x, h, .refl x⟩, rfl, h, fun _ => rfl, fun _ _ _ h => h, ?_⟩
  simp

theorem State.LoadsOnly.of_modComp (s : State) (c : CompId) (f : Compartment → Compartment)
    (h : ∀ x : Compartment, x.LoadsTo (f x)) : s.LoadsOnly (s.modComp c f) := by
  refine ⟨rfl, rfl, rfl, fun d hd => ?_, fun d x hd => ?_, rfl, rfl, fun _ => rfl, fun _ _ _ h => h, ?_⟩
  · by_cases e : d = c
    · subst e; simp [hd]
    · simp [e, hd]
  · by_cases e : d = c
    · subst e; exact ⟨f x, by simp [hd], h x⟩
    · exact ⟨x, by simp [e, hd], .refl x⟩
  · simp

theorem Port.raise_eq (x : Port) (n : Notice) :
    x.raise n = { x with notices := (x.raise n).notices, attention := (x.raise n).attention } := rfl

theorem Port.withdraw_eq (x : Port) (n : Notice) :
    x.withdraw n = { x with notices := (x.withdraw n).notices, attention := (x.withdraw n).attention } := rfl

theorem State.raise_port (s : State) (n : Notice) (o : PortId) :
    (s.raise n).port o = if n.ports.port o then (s.port o).raise n else s.port o := by
  cases o <;> rfl

theorem State.withdraw_port (s : State) (n : Notice) (o : PortId) :
    (s.withdraw n).port o = (s.port o).withdraw n := by
  cases o <;> rfl

theorem State.raise_loadsOnly (s : State) (n : Notice) : s.LoadsOnly (s.raise n) := by
  refine ⟨rfl, rfl, rfl, fun _ h => h, fun _ x h => ⟨x, h, .refl x⟩, rfl, rfl, fun o => ?_, fun o m _ hm => ?_, ?_⟩
  · rw [State.raise_port]
    split
    · exact Port.raise_eq _ _
    · rfl
  · rw [State.raise_port]
    split
    · rw [Port.has_raise, hm]; rfl
    · exact hm
  · simp

theorem State.withdraw_loadsOnly (s : State) (n : Notice) (h : n = .loadStageEmpty) : s.LoadsOnly (s.withdraw n) := by
  refine ⟨rfl, rfl, rfl, fun _ h => h, fun _ x h => ⟨x, h, .refl x⟩, rfl, rfl, fun o => ?_, fun o m hn hm => ?_, ?_⟩
  · rw [State.withdraw_port]
    exact Port.withdraw_eq _ _
  · rw [State.withdraw_port, Port.has_withdraw, hm, Bool.true_and, bne_iff_ne, h]
    exact hn
  · simp

theorem State.bindLoad_loadsOnly (s : State) (q : ProductId) : s.LoadsOnly (s.bindChannel .load q) := by
  refine ⟨rfl, rfl, rfl, fun _ h => h, fun _ x h => ⟨x, h, .refl x⟩, rfl, rfl, fun _ => rfl, fun _ _ _ h => h, ?_⟩
  simp [State.bindChannel]

theorem State.testHighMark_loadsOnly (s : State) : s.LoadsOnly s.testHighMark := by
  unfold State.testHighMark
  split
  · exact (State.LoadsOnly.of_journal s _ (by rfl)).trans (State.raise_loadsOnly _ _)
  · exact .refl s

theorem State.reserveSlot_loadsOnly (s : State) : s.LoadsOnly s.reserveSlot :=
  (State.LoadsOnly.of_journal s { s.journal with reserved := s.journal.reserved + 1 } rfl).trans
    (State.testHighMark_loadsOnly _)

theorem State.returnSlot_loadsOnly (s : State) : s.LoadsOnly s.returnSlot :=
  State.LoadsOnly.of_journal s { s.journal with reserved := s.journal.reserved - 1 } rfl

theorem State.clearStageEmpty_loadsOnly (s : State) : s.LoadsOnly s.clearStageEmpty := by
  unfold State.clearStageEmpty
  split
  · exact (State.LoadsOnly.of_loader s { s.loader with stageEmpty := false } rfl).trans
      (State.withdraw_loadsOnly _ _ rfl)
  · exact .refl s

theorem State.closePlan_loadsOnly (s : State) : s.LoadsOnly s.closePlan :=
  (State.LoadsOnly.of_loader s { s.loader with state := .none, docket := none, staged := [], paused := false }
    rfl).trans (State.clearStageEmpty_loadsOnly _)

theorem State.afterEntry_loadsOnly (s : State) : s.LoadsOnly s.afterEntry := by
  unfold State.afterEntry
  split
  · exact State.closePlan_loadsOnly s
  · exact .refl s

theorem State.endEntry_loadsOnly (s : State) (c : CompId) (q : Option SeqNo) (cause : EndCause) :
    s.LoadsOnly (s.endEntry c q cause) := State.LoadsOnly.of_loader s _ (by rfl)

theorem State.dropEntry_loadsOnly (s : State) (e : Entry) (cause : EndCause) : s.LoadsOnly (s.dropEntry e cause) :=
  (State.returnSlot_loadsOnly s).trans
    ((State.LoadsOnly.of_modComp _ e.comp (fun x => { x with draining := false }) fun _ => ⟨rfl, .inl rfl⟩).trans
      (State.endEntry_loadsOnly _ _ _ _))

theorem State.settleLoad_loadsOnly (s : State) (e : Entry) (x : LoadContext) (cause : EndCause) :
    s.LoadsOnly (s.settleLoad e x cause) := State.LoadsOnly.of_loader s _ (by rfl)

theorem State.promote_loadsOnly (s : State) (head : Staged) (rest : List Staged) :
    s.LoadsOnly (s.promote head rest) := by
  unfold State.promote
  split
  · dsimp only
    refine (State.reserveSlot_loadsOnly s).trans ?_
    generalize s.reserveSlot = s
    refine (State.LoadsOnly.of_loader s
      { s.loader with
        paused := false, staged := rest
        current := some { comp := head.comp, target := head.target, state := .due, context := none } } rfl).trans ?_
    generalize s.setLoader _ = s
    refine (State.LoadsOnly.of_modComp s head.comp (fun x => { x with draining := true }) fun _ => ⟨rfl, .inl rfl⟩).trans ?_
    generalize s.modComp _ _ = s
    split
    · exact (State.LoadsOnly.of_loader s { s.loader with stageEmpty := true } rfl).trans (State.raise_loadsOnly _ _)
    · exact .refl s
  · split
    · exact .refl s
    · exact (State.LoadsOnly.of_loader s { s.loader with paused := true } rfl).trans (State.raise_loadsOnly _ _)

theorem State.tryPromote_loadsOnly (s : State) : s.LoadsOnly s.tryPromote := by
  unfold State.tryPromote
  split
  · exact State.promote_loadsOnly _ _ _
  · exact .refl s

theorem State.startLoading_loadsOnly (s : State) (e : Entry) (q : ProductId) (used : Nat) (clamped : Bool) :
    s.LoadsOnly (s.startLoading e q used clamped) := by
  unfold State.startLoading
  dsimp only
  refine (State.LoadsOnly.of_modComp s e.comp (fun x => { x with state := .loading, settle := none })
    fun _ => ⟨rfl, .inr rfl⟩).trans ?_
  refine State.LoadsOnly.trans (State.bindLoad_loadsOnly _ q) ?_
  split
  · exact State.settleLoad_loadsOnly _ _ _ _
  · split
    · exact State.settleLoad_loadsOnly _ _ _ _
    · exact State.LoadsOnly.of_loader _ _ (by rfl)

theorem State.startTest_loadsOnly (s : State) (e : Entry) : s.LoadsOnly (s.startTest e) := by
  unfold State.startTest
  split
  · exact .refl s
  · split
    · exact State.LoadsOnly.of_loader _ _ (by rfl)
    · split
      · exact State.LoadsOnly.of_loader _ _ (by rfl)
      · split
        · exact (State.dropEntry_loadsOnly _ _ _).trans ((State.raise_loadsOnly _ _).trans
            (State.afterEntry_loadsOnly _))
        · exact State.startLoading_loadsOnly _ _ _ _ _

theorem State.tryStart_loadsOnly (s : State) : s.LoadsOnly s.tryStart := by
  unfold State.tryStart
  split
  · split
    · exact State.startTest_loadsOnly _ _
    · exact .refl s
  · exact .refl s

/-- The sequencer changes only what it owns. -/
theorem State.advance_loadsOnly (s : State) : s.LoadsOnly s.advance := by
  have h (t : State) : t.LoadsOnly t.tryStart.tryPromote :=
    (State.tryStart_loadsOnly t).trans (State.tryPromote_loadsOnly _)
  unfold State.advance
  exact (h _).trans ((h _).trans ((h _).trans ((h _).trans ((h _).trans (State.tryStart_loadsOnly _)))))

theorem State.settle_followedBy (s : State) : s.FollowedBy s.settle := by
  have h (t : State) : t.FollowedBy t.advance.arbitrate :=
    (State.advance_loadsOnly t).followedBy.trans (State.arbitrate_followedBy _)
  exact (h _).trans (h _)

/-- Only what a test, a start or a stop owns changes in the pump. -/
theorem State.FollowedBy.of_pump (s : State) (x : Pump) (hb : s.pump.state.blocks = false)
    (hx : x = { s.pump with
      state := x.state, drive := x.drive, deglitch := x.deglitch, noFlow := x.noFlow, cleanRun := x.cleanRun
      ramp := x.ramp, reported := x.reported, lowPresent := x.lowPresent, highPresent := x.highPresent }) :
    s.FollowedBy (s.setPump x) := by
  refine ⟨rfl, rfl, rfl, fun _ => rfl, fun _ _ => rfl, fun p => Point.MovesTo.refl _, rfl,
    fun _ _ h k => ⟨h, k, rfl, rfl⟩, hx, fun h => ?_,
    fun _ h => h, fun _ x h => ⟨x, h, .refl x⟩, rfl, rfl, fun _ => rfl, fun _ _ _ h => h, rfl, ?_⟩
  · rw [hb] at h; cases h
  · simp

theorem Pump.test_eq (x : Pump) (k : FaultKind) :
    x.test k = { x with
      deglitch := (x.test k).deglitch, reported := (x.test k).reported, lowPresent := (x.test k).lowPresent
      highPresent := (x.test k).highPresent } := by
  unfold Pump.test
  split
  · rfl
  · split
    · split <;> rfl
    · cases k <;> rfl

theorem Pump.testAll_eq (x : Pump) :
    x.testAll = { x with
      deglitch := x.testAll.deglitch, reported := x.testAll.reported, lowPresent := x.testAll.lowPresent
      highPresent := x.testAll.highPresent } := by
  unfold Pump.testAll
  rw [Pump.test_eq (((x.test .stall).test .dryRun).test .supplyLow) .supplyHigh,
    Pump.test_eq ((x.test .stall).test .dryRun) .supplyLow, Pump.test_eq (x.test .stall) .dryRun, Pump.test_eq x .stall]

theorem State.followRun_followedBy (s : State) : s.FollowedBy s.followRun := by
  unfold State.followRun
  split
  · split
    · rename_i h
      refine State.FollowedBy.of_pump s _ (by rw [h]; rfl) ?_
      unfold Pump.start
      rw [Pump.testAll_eq]
    · exact .refl s
  · split
    · rename_i h
      refine State.FollowedBy.of_pump s _ ?_ rfl
      rcases h with h | h <;> rw [h] <;> rfl
    · exact .refl s

theorem State.testNoFlow_followedBy (s : State) : s.FollowedBy s.testNoFlow := by
  unfold State.testNoFlow
  dsimp only
  split
  · rename_i h
    have hb : s.pump.state.blocks = false := by rw [h.1]; rfl
    split
    · split
      · exact State.FollowedBy.of_pump s _ hb (by rfl)
      · exact .refl s
    · exact State.FollowedBy.of_pump s _ hb (by rfl)
  · exact .refl s

theorem State.FollowedBy.of_timer (s : State) (t : Timer) : s.FollowedBy (s.setWatch { s.watch with timer := t }) := by
  refine ⟨rfl, rfl, rfl, fun _ => rfl, fun _ _ => rfl, fun p => Point.MovesTo.refl _, rfl,
    fun _ _ h k => ⟨h, k, rfl, rfl⟩, rfl, fun _ => rfl,
    fun _ h => h, fun _ x h => ⟨x, h, .refl x⟩, rfl, rfl, fun _ => rfl, fun _ _ _ h => h, rfl, ?_⟩
  simp

theorem State.followWatch_followedBy (s old : State) : s.FollowedBy (s.followWatch old) := by
  unfold State.followWatch
  split
  · split
    · exact .refl s
    · exact .of_timer s _
  · exact .of_timer s _

/-- What the other blocks can change when they follow a step. -/
theorem State.follow_followedBy (s old : State) : s.FollowedBy (s.follow old) := by
  unfold State.follow
  dsimp only
  refine State.FollowedBy.trans ?_ (State.followWatch_followedBy _ _)
  have h :=
    ((State.followRun_followedBy s).trans (State.settle_followedBy _)).trans (State.followRun_followedBy _)
  split
  · exact h.trans (State.testNoFlow_followedBy _)
  · exact h

end Sys2Proof.Machine
end

