-- ==== Sys2Proof/Laws/Ports.lean ====
section
/-! SUPPORT. A frame at its port: what receiving it changes, and the four ways a framed command goes. -/

namespace Sys2Proof.Machine

open Sys2Proof

variable (s : State)

/-! ### The end of a suspension -/

@[simp] theorem State.lift_channels (p : PointId) (k : Cause) : (s.lift p k).channels = s.channels := by
  unfold State.lift; split <;> rfl
@[simp] theorem State.lift_couplers (p : PointId) (k : Cause) : (s.lift p k).couplers = s.couplers := by
  unfold State.lift; split <;> rfl
@[simp] theorem State.lift_roster (p : PointId) (k : Cause) : (s.lift p k).roster = s.roster := by
  unfold State.lift; split <;> rfl
@[simp] theorem State.lift_accounts (p : PointId) (k : Cause) : (s.lift p k).accounts = s.accounts := by
  unfold State.lift; split <;> rfl
@[simp] theorem State.lift_products (p : PointId) (k : Cause) : (s.lift p k).products = s.products := by
  unfold State.lift; split <;> rfl
@[simp] theorem State.lift_prices (p : PointId) (k : Cause) : (s.lift p k).prices = s.prices := by
  unfold State.lift; split <;> rfl
@[simp] theorem State.lift_limits (p : PointId) (k : Cause) : (s.lift p k).limits = s.limits := by
  unfold State.lift; split <;> rfl
@[simp] theorem State.lift_times (p : PointId) (k : Cause) : (s.lift p k).times = s.times := by
  unfold State.lift; split <;> rfl
@[simp] theorem State.lift_arbiter (p : PointId) (k : Cause) : (s.lift p k).arbiter = s.arbiter := by
  unfold State.lift; split <;> rfl
@[simp] theorem State.lift_pump (p : PointId) (k : Cause) : (s.lift p k).pump = s.pump := by
  unfold State.lift; split <;> rfl
@[simp] theorem State.lift_stock (p : PointId) (k : Cause) : (s.lift p k).stock = s.stock := by
  unfold State.lift; split <;> rfl
@[simp] theorem State.lift_probes (p : PointId) (k : Cause) : (s.lift p k).probes = s.probes := by
  unfold State.lift; split <;> rfl
@[simp] theorem State.lift_stockSettle (p : PointId) (k : Cause) : (s.lift p k).stockSettle = s.stockSettle := by
  unfold State.lift; split <;> rfl
@[simp] theorem State.lift_loader (p : PointId) (k : Cause) : (s.lift p k).loader = s.loader := by
  unfold State.lift; split <;> rfl
@[simp] theorem State.lift_journal (p : PointId) (k : Cause) : (s.lift p k).journal = s.journal := by
  unfold State.lift; split <;> rfl
@[simp] theorem State.lift_clock (p : PointId) (k : Cause) : (s.lift p k).clock = s.clock := by
  unfold State.lift; split <;> rfl
@[simp] theorem State.lift_ports (p : PointId) (k : Cause) : (s.lift p k).ports = s.ports := by
  unfold State.lift; split <;> rfl
@[simp] theorem State.lift_roles (p : PointId) (k : Cause) : (s.lift p k).roles = s.roles := by
  unfold State.lift; split <;> rfl
@[simp] theorem State.lift_watch (p : PointId) (k : Cause) : (s.lift p k).watch = s.watch := by
  unfold State.lift; split <;> rfl
@[simp] theorem State.lift_power (p : PointId) (k : Cause) : (s.lift p k).power = s.power := by
  unfold State.lift; split <;> rfl
@[simp] theorem State.lift_choices (p : PointId) (k : Cause) : (s.lift p k).choices = s.choices := by
  unfold State.lift; split <;> rfl
@[simp] theorem State.lift_pending (p : PointId) (k : Cause) : (s.lift p k).pending = s.pending := by
  unfold State.lift; split <;> rfl

theorem State.lift_point_ne (p q : PointId) (k : Cause) (h : q ≠ p) : (s.lift p k).point q = s.point q := by
  unfold State.lift; split <;> simp [h]

/-- A cause that lifts leaves a point as it was, or takes it to SUSPENDED(TRIGGER_RELEASED) (R81). -/
theorem State.lift_point (p : PointId) (k : Cause) :
    (s.lift p k).point p =
      if (s.point p).state = .suspended k then
        { (s.point p).stopTimers with state := .suspended .triggerReleased, pressWait := some s.times.holdToRun }
      else s.point p := by
  unfold State.lift; split <;> simp

/-! ### A frame is received (R174, R186) -/

@[simp] theorem State.setPort_restartedWatch (o : PortId) (x : Port) : (s.setPort o x).restartedWatch = s.restartedWatch := rfl

/-- A restart sets the timer and counts the expiries it overtakes, and nothing else of the watch (R186). -/
theorem State.restartedWatch_eq :
    s.restartedWatch =
      { s.watch with
        timer := if s.watchActive then s.watch.timeout else s.watch.timer
        overtaken := if s.watchActive then s.pending.count .consoleTimerExpiry else s.watch.overtaken } := by
  unfold State.restartedWatch; split <;> rfl

theorem State.frameReceived_watch (o : PortId) :
    (s.frameReceived o).watch =
      if o = .operator then { s.restartedWatch with silent := false, block := false } else s.watch := by
  unfold State.frameReceived State.consoleTraffic; dsimp only; split <;> simp

@[simp] theorem State.frameReceived_channels (o : PortId) : (s.frameReceived o).channels = s.channels := by
  unfold State.frameReceived State.consoleTraffic; dsimp only; split <;> simp
@[simp] theorem State.frameReceived_couplers (o : PortId) : (s.frameReceived o).couplers = s.couplers := by
  unfold State.frameReceived State.consoleTraffic; dsimp only; split <;> simp
@[simp] theorem State.frameReceived_roster (o : PortId) : (s.frameReceived o).roster = s.roster := by
  unfold State.frameReceived State.consoleTraffic; dsimp only; split <;> simp
@[simp] theorem State.frameReceived_accounts (o : PortId) : (s.frameReceived o).accounts = s.accounts := by
  unfold State.frameReceived State.consoleTraffic; dsimp only; split <;> simp
@[simp] theorem State.frameReceived_products (o : PortId) : (s.frameReceived o).products = s.products := by
  unfold State.frameReceived State.consoleTraffic; dsimp only; split <;> simp
@[simp] theorem State.frameReceived_prices (o : PortId) : (s.frameReceived o).prices = s.prices := by
  unfold State.frameReceived State.consoleTraffic; dsimp only; split <;> simp
@[simp] theorem State.frameReceived_limits (o : PortId) : (s.frameReceived o).limits = s.limits := by
  unfold State.frameReceived State.consoleTraffic; dsimp only; split <;> simp
@[simp] theorem State.frameReceived_times (o : PortId) : (s.frameReceived o).times = s.times := by
  unfold State.frameReceived State.consoleTraffic; dsimp only; split <;> simp
@[simp] theorem State.frameReceived_arbiter (o : PortId) : (s.frameReceived o).arbiter = s.arbiter := by
  unfold State.frameReceived State.consoleTraffic; dsimp only; split <;> simp
@[simp] theorem State.frameReceived_pump (o : PortId) : (s.frameReceived o).pump = s.pump := by
  unfold State.frameReceived State.consoleTraffic; dsimp only; split <;> simp
@[simp] theorem State.frameReceived_stock (o : PortId) : (s.frameReceived o).stock = s.stock := by
  unfold State.frameReceived State.consoleTraffic; dsimp only; split <;> simp
@[simp] theorem State.frameReceived_probes (o : PortId) : (s.frameReceived o).probes = s.probes := by
  unfold State.frameReceived State.consoleTraffic; dsimp only; split <;> simp
@[simp] theorem State.frameReceived_stockSettle (o : PortId) : (s.frameReceived o).stockSettle = s.stockSettle := by
  unfold State.frameReceived State.consoleTraffic; dsimp only; split <;> simp
@[simp] theorem State.frameReceived_loader (o : PortId) : (s.frameReceived o).loader = s.loader := by
  unfold State.frameReceived State.consoleTraffic; dsimp only; split <;> simp
@[simp] theorem State.frameReceived_journal (o : PortId) : (s.frameReceived o).journal = s.journal := by
  unfold State.frameReceived State.consoleTraffic; dsimp only; split <;> simp
@[simp] theorem State.frameReceived_clock (o : PortId) : (s.frameReceived o).clock = s.clock := by
  unfold State.frameReceived State.consoleTraffic; dsimp only; split <;> simp
@[simp] theorem State.frameReceived_roles (o : PortId) : (s.frameReceived o).roles = s.roles := by
  unfold State.frameReceived State.consoleTraffic; dsimp only; split <;> simp
@[simp] theorem State.frameReceived_power (o : PortId) : (s.frameReceived o).power = s.power := by
  unfold State.frameReceived State.consoleTraffic; dsimp only; split <;> simp
@[simp] theorem State.frameReceived_choices (o : PortId) : (s.frameReceived o).choices = s.choices := by
  unfold State.frameReceived State.consoleTraffic; dsimp only; split <;> simp
@[simp] theorem State.frameReceived_pending (o : PortId) : (s.frameReceived o).pending = s.pending := by
  unfold State.frameReceived State.consoleTraffic; dsimp only; split <;> simp

@[simp] theorem State.frameReceived_ports (o : PortId) :
    (s.frameReceived o).ports = s.ports.setPort o { s.port o with silence := 0 } := by
  unfold State.frameReceived State.consoleTraffic; dsimp only; split <;> simp

@[simp] theorem State.frameReceived_coupler (o : PortId) (q : PointId) : (s.frameReceived o).coupler q = s.coupler q := by
  simp [State.coupler]

@[simp] theorem State.frameReceived_channel (o : PortId) (q : ChannelId) : (s.frameReceived o).channel q = s.channel q := by
  simp [State.channel]

@[simp] theorem State.frameReceived_comp (o : PortId) (q : CompId) : (s.frameReceived o).comp q = s.comp q := by
  simp [State.comp]

@[simp] theorem State.frameReceived_product (o : PortId) (q : ProductId) : (s.frameReceived o).product q = s.product q := by
  simp [State.product]

@[simp] theorem State.frameReceived_inReset (o : PortId) : (s.frameReceived o).inReset = s.inReset := by
  simp [State.inReset]

@[simp] theorem State.frameReceived_port_same (o : PortId) :
    (s.frameReceived o).port o = { s.port o with silence := 0 } := by
  simp [State.port]

@[simp] theorem State.frameReceived_port_ne (o q : PortId) (h : q ≠ o) : (s.frameReceived o).port q = s.port q := by
  simp [State.port, h]

@[simp] theorem State.frameReceived_mayUse (o q : PortId) (a : Access) :
    (s.frameReceived o).mayUse q a = s.mayUse q a := by
  cases a <;> simp [State.mayUse, State.holdsAccount, State.holdsCalibrate]

/-! ### A framed command (R173 to R178) -/

/-- A command that its port takes is answered with what its body gives. -/
theorem State.framed_takes (r : Req) (code : Nat) (a : Access) (body : State → State × Reply) (h : s.takes r a) :
    s.framed r code a body =
      (body (s.frameReceived r.port)).1.answer r.port ((body (s.frameReceived r.port)).2.response r.tag code) := by
  obtain ⟨h1, h2, h3⟩ := h
  have h2' : s.power.state ≠ .inReset := by simpa [State.inReset] using h2
  unfold State.framed
  simp [h1, h2', h3]

/-- A frame at an ANSWERING port queues a BUSY. -/
theorem State.framed_answering (r : Req) (code : Nat) (a : Access) (body : State → State × Reply)
    (h : (s.port r.port).sending.isSome = true) :
    s.framed r code a body =
      (s.frameReceived r.port).queueExtra r.port ((Reply.of .busy).response r.tag code) := by
  unfold State.framed
  simp [h]

/-- A frame at a READY port while the part is in reset or recovering is answered BUSY. -/
theorem State.framed_inReset (r : Req) (code : Nat) (a : Access) (body : State → State × Reply)
    (h : (s.port r.port).sending = none) (k : s.inReset = true) :
    s.framed r code a body = (s.frameReceived r.port).answer r.port ((Reply.of .busy).response r.tag code) := by
  have k' : s.power.state = .inReset := by simpa [State.inReset] using k
  unfold State.framed
  simp [h, k']

/-- A command without a role for it is answered WRONG_ROLE. -/
theorem State.framed_wrongRole (r : Req) (code : Nat) (a : Access) (body : State → State × Reply)
    (h : (s.port r.port).sending = none) (k : s.inReset = false) (m : s.mayUse r.port a = false) :
    s.framed r code a body =
      ((s.frameReceived r.port).raiseOn r.port .wrongRole).answer r.port
        ((Reply.of .wrongRole).response r.tag code) := by
  have k' : s.power.state ≠ .inReset := by simpa [State.inReset] using k
  unfold State.framed
  simp [h, k', m]

/-! ### Answers -/

@[simp] theorem State.answer_channels (o : PortId) (x : Response) : (s.answer o x).channels = s.channels := rfl
@[simp] theorem State.answer_couplers (o : PortId) (x : Response) : (s.answer o x).couplers = s.couplers := rfl
@[simp] theorem State.answer_roster (o : PortId) (x : Response) : (s.answer o x).roster = s.roster := rfl
@[simp] theorem State.answer_accounts (o : PortId) (x : Response) : (s.answer o x).accounts = s.accounts := rfl
@[simp] theorem State.answer_products (o : PortId) (x : Response) : (s.answer o x).products = s.products := rfl
@[simp] theorem State.answer_prices (o : PortId) (x : Response) : (s.answer o x).prices = s.prices := rfl
@[simp] theorem State.answer_limits (o : PortId) (x : Response) : (s.answer o x).limits = s.limits := rfl
@[simp] theorem State.answer_points (o : PortId) (x : Response) : (s.answer o x).points = s.points := rfl
@[simp] theorem State.answer_times (o : PortId) (x : Response) : (s.answer o x).times = s.times := rfl
@[simp] theorem State.answer_arbiter (o : PortId) (x : Response) : (s.answer o x).arbiter = s.arbiter := rfl
@[simp] theorem State.answer_pump (o : PortId) (x : Response) : (s.answer o x).pump = s.pump := rfl
@[simp] theorem State.answer_stock (o : PortId) (x : Response) : (s.answer o x).stock = s.stock := rfl
@[simp] theorem State.answer_probes (o : PortId) (x : Response) : (s.answer o x).probes = s.probes := rfl
@[simp] theorem State.answer_stockSettle (o : PortId) (x : Response) : (s.answer o x).stockSettle = s.stockSettle := rfl
@[simp] theorem State.answer_loader (o : PortId) (x : Response) : (s.answer o x).loader = s.loader := rfl
@[simp] theorem State.answer_journal (o : PortId) (x : Response) : (s.answer o x).journal = s.journal := rfl
@[simp] theorem State.answer_clock (o : PortId) (x : Response) : (s.answer o x).clock = s.clock := rfl
@[simp] theorem State.answer_roles (o : PortId) (x : Response) : (s.answer o x).roles = s.roles := rfl
@[simp] theorem State.answer_watch (o : PortId) (x : Response) : (s.answer o x).watch = s.watch := rfl
@[simp] theorem State.answer_power (o : PortId) (x : Response) : (s.answer o x).power = s.power := rfl
@[simp] theorem State.answer_choices (o : PortId) (x : Response) : (s.answer o x).choices = s.choices := rfl
@[simp] theorem State.answer_pending (o : PortId) (x : Response) : (s.answer o x).pending = s.pending := rfl
@[simp] theorem State.answer_point (o : PortId) (x : Response) (q : PointId) : (s.answer o x).point q = s.point q := rfl
@[simp] theorem State.answer_coupler (o : PortId) (x : Response) (q : PointId) : (s.answer o x).coupler q = s.coupler q := rfl
@[simp] theorem State.answer_channel (o : PortId) (x : Response) (q : ChannelId) : (s.answer o x).channel q = s.channel q := rfl
@[simp] theorem State.answer_comp (o : PortId) (x : Response) (q : CompId) : (s.answer o x).comp q = s.comp q := rfl
@[simp] theorem State.answer_product (o : PortId) (x : Response) (q : ProductId) : (s.answer o x).product q = s.product q := rfl

/-- Every command row is a framed command with its own body. -/
theorem exec_of_framing {i : Instr} {r : Req} {code : Nat} {a : Access} (h : framing i = some (r, code, a)) :
    ∃ body : State → State × Reply, ∀ s, exec i s = .next (s.framed r code a body) := by
  cases i <;> simp only [framing, Option.some.injEq, Prod.mk.injEq, reduceCtorEq] at h <;>
    (obtain ⟨rfl, rfl, rfl⟩ := h; exact ⟨_, fun _ => rfl⟩)

/-- A command that its port takes is answered with what its body leaves and says. -/
theorem Answers.of_body {i : Instr} {s t : State} {r : Req} {code : Nat} {a : Access} {x : Reply}
    {body : State → State × Reply} (hi : ∀ v, exec i v = .next (v.framed r code a body)) (ht : s.takes r a)
    (hb : body (s.frameReceived r.port) = (t, x)) : Answers i s r code t x := by
  unfold Answers
  rw [hi, State.framed_takes s r code a body ht, hb]

/-! ### The account role moves (R181) -/

theorem State.moveRole_moves (s : State) (o : PortId) : s.RoleMoves (s.moveRole o) o := by
  have hp : ∀ q, (s.moveRole o).port q = if s.roles.requester = some q ∧ q ≠ o then ((s.port q).raise .roleChanged).raise .roleDenied else (s.port q).raise .roleChanged := by
    intro q
    unfold State.moveRole
    cases h : s.roles.requester with
    | none => cases q <;> rfl
    | some x =>
      by_cases hx : x = o
      · subst hx
        have e1 : (Option.filter (fun q => q != x) (some x)) = none := by simp
        have e2 : ¬ (some x = some q ∧ q ≠ x) := by rintro ⟨h1, h2⟩; exact h2 (by simpa using h1.symm)
        simp only [e1, e2, if_false]
        cases q <;> rfl
      · have : (Option.filter (fun q => q != o) (some x)) = some x := by simp [hx]
        simp only [this]
        by_cases hq : q = x
        · subst hq; simp [State.raiseOn, hx]; cases q <;> rfl
        · have hq' : x ≠ q := fun h => hq h.symm
          simp [State.raiseOn, hq, hq']; cases q <;> rfl
  constructor
  · unfold State.moveRole; dsimp only; split <;> rfl
  · intro q; rw [hp]; split <;> simp [Port.raise, Port.follow]
  · intro q; rw [hp]; split <;> simp [Port.raise, Port.follow]
  · unfold State.moveRole; dsimp only; split <;> simp [State.raiseOn, State.setPort, State.raise, State.setRoles]

end Sys2Proof.Machine
end

