-- ==== Sys2Proof/Laws/Frames.lean ====
section
/-! SUPPORT. What each shared operation leaves alone: for each operation, every field of State it never touches and, for these,
the reads of one item. -/

namespace Sys2Proof.Machine

open Sys2Proof

variable (s : State)

@[simp] theorem State.testHighMark_frame :
    s.testHighMark.channels = s.channels ∧ s.testHighMark.couplers = s.couplers ∧ s.testHighMark.roster = s.roster ∧
      s.testHighMark.accounts = s.accounts ∧ s.testHighMark.products = s.products ∧ s.testHighMark.prices = s.prices ∧
      s.testHighMark.limits = s.limits ∧ s.testHighMark.points = s.points ∧ s.testHighMark.times = s.times ∧
      s.testHighMark.arbiter = s.arbiter ∧ s.testHighMark.pump = s.pump ∧ s.testHighMark.stock = s.stock ∧
      s.testHighMark.probes = s.probes ∧ s.testHighMark.stockSettle = s.stockSettle ∧ s.testHighMark.loader = s.loader
      ∧ s.testHighMark.clock = s.clock ∧ s.testHighMark.roles = s.roles ∧ s.testHighMark.watch = s.watch ∧
      s.testHighMark.power = s.power ∧ s.testHighMark.choices = s.choices ∧ s.testHighMark.pending = s.pending ∧ (∀ i,
      s.testHighMark.channel i = s.channel i) ∧ (∀ i, s.testHighMark.coupler i = s.coupler i) ∧ (∀ i,
      s.testHighMark.product i = s.product i) ∧ (∀ i, s.testHighMark.point i = s.point i) ∧ (∀ i, s.testHighMark.comp
      i = s.comp i) ∧ s.testHighMark.inReset = s.inReset := by
  unfold State.testHighMark; repeat' split
  all_goals simp [State.point, State.coupler, State.channel, State.comp, State.product, State.inReset]

@[simp] theorem State.reserveSlot_frame :
    s.reserveSlot.channels = s.channels ∧ s.reserveSlot.couplers = s.couplers ∧ s.reserveSlot.roster = s.roster ∧
      s.reserveSlot.accounts = s.accounts ∧ s.reserveSlot.products = s.products ∧ s.reserveSlot.prices = s.prices ∧
      s.reserveSlot.limits = s.limits ∧ s.reserveSlot.points = s.points ∧ s.reserveSlot.times = s.times ∧
      s.reserveSlot.arbiter = s.arbiter ∧ s.reserveSlot.pump = s.pump ∧ s.reserveSlot.stock = s.stock ∧
      s.reserveSlot.probes = s.probes ∧ s.reserveSlot.stockSettle = s.stockSettle ∧ s.reserveSlot.loader = s.loader ∧
      s.reserveSlot.clock = s.clock ∧ s.reserveSlot.roles = s.roles ∧ s.reserveSlot.watch = s.watch ∧
      s.reserveSlot.power = s.power ∧ s.reserveSlot.choices = s.choices ∧ s.reserveSlot.pending = s.pending ∧ (∀ i,
      s.reserveSlot.channel i = s.channel i) ∧ (∀ i, s.reserveSlot.coupler i = s.coupler i) ∧ (∀ i,
      s.reserveSlot.product i = s.product i) ∧ (∀ i, s.reserveSlot.point i = s.point i) ∧ (∀ i, s.reserveSlot.comp i =
      s.comp i) ∧ s.reserveSlot.inReset = s.inReset := by
  simp [State.point, State.coupler, State.channel, State.comp, State.product, State.inReset, State.reserveSlot]

@[simp] theorem State.returnSlot_frame :
    s.returnSlot.channels = s.channels ∧ s.returnSlot.couplers = s.couplers ∧ s.returnSlot.roster = s.roster ∧
      s.returnSlot.accounts = s.accounts ∧ s.returnSlot.products = s.products ∧ s.returnSlot.prices = s.prices ∧
      s.returnSlot.limits = s.limits ∧ s.returnSlot.points = s.points ∧ s.returnSlot.times = s.times ∧
      s.returnSlot.arbiter = s.arbiter ∧ s.returnSlot.pump = s.pump ∧ s.returnSlot.stock = s.stock ∧
      s.returnSlot.probes = s.probes ∧ s.returnSlot.stockSettle = s.stockSettle ∧ s.returnSlot.loader = s.loader ∧
      s.returnSlot.clock = s.clock ∧ s.returnSlot.ports = s.ports ∧ s.returnSlot.roles = s.roles ∧ s.returnSlot.watch
      = s.watch ∧ s.returnSlot.power = s.power ∧ s.returnSlot.choices = s.choices ∧ s.returnSlot.pending = s.pending ∧
      (∀ i, s.returnSlot.channel i = s.channel i) ∧ (∀ i, s.returnSlot.coupler i = s.coupler i) ∧ (∀ i,
      s.returnSlot.product i = s.product i) ∧ (∀ i, s.returnSlot.point i = s.point i) ∧ (∀ i, s.returnSlot.comp i =
      s.comp i) ∧ (∀ i, s.returnSlot.port i = s.port i) ∧ s.returnSlot.inReset = s.inReset := by
  simp [State.point, State.coupler, State.channel, State.comp, State.port, State.product, State.inReset, State.returnSlot]

@[simp] theorem State.store_frame (b : RecordBody) :
    (s.store b).channels = s.channels ∧ (s.store b).couplers = s.couplers ∧ (s.store b).roster = s.roster ∧ (s.store
      b).accounts = s.accounts ∧ (s.store b).products = s.products ∧ (s.store b).prices = s.prices ∧ (s.store
      b).limits = s.limits ∧ (s.store b).points = s.points ∧ (s.store b).times = s.times ∧ (s.store b).arbiter =
      s.arbiter ∧ (s.store b).pump = s.pump ∧ (s.store b).stock = s.stock ∧ (s.store b).probes = s.probes ∧ (s.store
      b).stockSettle = s.stockSettle ∧ (s.store b).loader = s.loader ∧ (s.store b).clock = s.clock ∧ (s.store b).roles
      = s.roles ∧ (s.store b).watch = s.watch ∧ (s.store b).power = s.power ∧ (s.store b).choices = s.choices ∧
      (s.store b).pending = s.pending ∧ (∀ i, (s.store b).channel i = s.channel i) ∧ (∀ i, (s.store b).coupler i =
      s.coupler i) ∧ (∀ i, (s.store b).product i = s.product i) ∧ (∀ i, (s.store b).point i = s.point i) ∧ (∀ i,
      (s.store b).comp i = s.comp i) ∧ (s.store b).inReset = s.inReset := by
  simp [State.point, State.coupler, State.channel, State.comp, State.product, State.inReset, State.store]

@[simp] theorem State.storeReserved_frame (b : RecordBody) :
    (s.storeReserved b).channels = s.channels ∧ (s.storeReserved b).couplers = s.couplers ∧ (s.storeReserved
      b).roster = s.roster ∧ (s.storeReserved b).accounts = s.accounts ∧ (s.storeReserved b).products = s.products ∧
      (s.storeReserved b).prices = s.prices ∧ (s.storeReserved b).limits = s.limits ∧ (s.storeReserved b).points =
      s.points ∧ (s.storeReserved b).times = s.times ∧ (s.storeReserved b).arbiter = s.arbiter ∧ (s.storeReserved
      b).pump = s.pump ∧ (s.storeReserved b).stock = s.stock ∧ (s.storeReserved b).probes = s.probes ∧
      (s.storeReserved b).stockSettle = s.stockSettle ∧ (s.storeReserved b).loader = s.loader ∧ (s.storeReserved
      b).clock = s.clock ∧ (s.storeReserved b).roles = s.roles ∧ (s.storeReserved b).watch = s.watch ∧
      (s.storeReserved b).power = s.power ∧ (s.storeReserved b).choices = s.choices ∧ (s.storeReserved b).pending =
      s.pending ∧ (∀ i, (s.storeReserved b).channel i = s.channel i) ∧ (∀ i, (s.storeReserved b).coupler i = s.coupler
      i) ∧ (∀ i, (s.storeReserved b).product i = s.product i) ∧ (∀ i, (s.storeReserved b).point i = s.point i) ∧ (∀ i,
      (s.storeReserved b).comp i = s.comp i) ∧ (s.storeReserved b).inReset = s.inReset := by
  simp [State.point, State.coupler, State.channel, State.comp, State.product, State.inReset, State.storeReserved]

@[simp] theorem State.storeSystem_frame (b : RecordBody) :
    (s.storeSystem b).channels = s.channels ∧ (s.storeSystem b).couplers = s.couplers ∧ (s.storeSystem b).roster =
      s.roster ∧ (s.storeSystem b).accounts = s.accounts ∧ (s.storeSystem b).products = s.products ∧ (s.storeSystem
      b).prices = s.prices ∧ (s.storeSystem b).limits = s.limits ∧ (s.storeSystem b).points = s.points ∧
      (s.storeSystem b).times = s.times ∧ (s.storeSystem b).arbiter = s.arbiter ∧ (s.storeSystem b).pump = s.pump ∧
      (s.storeSystem b).stock = s.stock ∧ (s.storeSystem b).probes = s.probes ∧ (s.storeSystem b).stockSettle =
      s.stockSettle ∧ (s.storeSystem b).loader = s.loader ∧ (s.storeSystem b).clock = s.clock ∧ (s.storeSystem
      b).roles = s.roles ∧ (s.storeSystem b).watch = s.watch ∧ (s.storeSystem b).power = s.power ∧ (s.storeSystem
      b).choices = s.choices ∧ (s.storeSystem b).pending = s.pending ∧ (∀ i, (s.storeSystem b).channel i = s.channel
      i) ∧ (∀ i, (s.storeSystem b).coupler i = s.coupler i) ∧ (∀ i, (s.storeSystem b).product i = s.product i) ∧ (∀ i,
      (s.storeSystem b).point i = s.point i) ∧ (∀ i, (s.storeSystem b).comp i = s.comp i) ∧ (s.storeSystem b).inReset
      = s.inReset := by
  unfold State.storeSystem; repeat' split
  all_goals simp [State.point, State.coupler, State.channel, State.comp, State.product, State.inReset]

@[simp] theorem State.tallyDelivery_frame (q : ProductId) (n : Nat) :
    (s.tallyDelivery q n).channels = s.channels ∧ (s.tallyDelivery q n).couplers = s.couplers ∧ (s.tallyDelivery q
      n).roster = s.roster ∧ (s.tallyDelivery q n).accounts = s.accounts ∧ (s.tallyDelivery q n).products = s.products
      ∧ (s.tallyDelivery q n).prices = s.prices ∧ (s.tallyDelivery q n).limits = s.limits ∧ (s.tallyDelivery q
      n).points = s.points ∧ (s.tallyDelivery q n).times = s.times ∧ (s.tallyDelivery q n).arbiter = s.arbiter ∧
      (s.tallyDelivery q n).pump = s.pump ∧ (s.tallyDelivery q n).stock = s.stock ∧ (s.tallyDelivery q n).probes =
      s.probes ∧ (s.tallyDelivery q n).stockSettle = s.stockSettle ∧ (s.tallyDelivery q n).loader = s.loader ∧
      (s.tallyDelivery q n).clock = s.clock ∧ (s.tallyDelivery q n).ports = s.ports ∧ (s.tallyDelivery q n).roles =
      s.roles ∧ (s.tallyDelivery q n).watch = s.watch ∧ (s.tallyDelivery q n).power = s.power ∧ (s.tallyDelivery q
      n).choices = s.choices ∧ (s.tallyDelivery q n).pending = s.pending ∧ (∀ i, (s.tallyDelivery q n).channel i =
      s.channel i) ∧ (∀ i, (s.tallyDelivery q n).coupler i = s.coupler i) ∧ (∀ i, (s.tallyDelivery q n).product i =
      s.product i) ∧ (∀ i, (s.tallyDelivery q n).point i = s.point i) ∧ (∀ i, (s.tallyDelivery q n).comp i = s.comp i)
      ∧ (∀ i, (s.tallyDelivery q n).port i = s.port i) ∧ (s.tallyDelivery q n).inReset = s.inReset := by
  simp [State.point, State.coupler, State.channel, State.comp, State.port, State.product, State.inReset, State.tallyDelivery]

@[simp] theorem State.reserveOn_frame (c : CompId) (v : Nat) :
    (s.reserveOn c v).channels = s.channels ∧ (s.reserveOn c v).couplers = s.couplers ∧ (s.reserveOn c v).roster =
      s.roster ∧ (s.reserveOn c v).accounts = s.accounts ∧ (s.reserveOn c v).products = s.products ∧ (s.reserveOn c
      v).prices = s.prices ∧ (s.reserveOn c v).limits = s.limits ∧ (s.reserveOn c v).points = s.points ∧ (s.reserveOn
      c v).times = s.times ∧ (s.reserveOn c v).arbiter = s.arbiter ∧ (s.reserveOn c v).pump = s.pump ∧ (s.reserveOn c
      v).probes = s.probes ∧ (s.reserveOn c v).stockSettle = s.stockSettle ∧ (s.reserveOn c v).loader = s.loader ∧
      (s.reserveOn c v).journal = s.journal ∧ (s.reserveOn c v).clock = s.clock ∧ (s.reserveOn c v).ports = s.ports ∧
      (s.reserveOn c v).roles = s.roles ∧ (s.reserveOn c v).watch = s.watch ∧ (s.reserveOn c v).power = s.power ∧
      (s.reserveOn c v).choices = s.choices ∧ (s.reserveOn c v).pending = s.pending ∧ (∀ i, (s.reserveOn c v).channel
      i = s.channel i) ∧ (∀ i, (s.reserveOn c v).coupler i = s.coupler i) ∧ (∀ i, (s.reserveOn c v).product i =
      s.product i) ∧ (∀ i, (s.reserveOn c v).point i = s.point i) ∧ (∀ i, (s.reserveOn c v).port i = s.port i) ∧
      (s.reserveOn c v).inReset = s.inReset := by
  simp [State.point, State.coupler, State.channel, State.port, State.product, State.inReset, State.reserveOn]

@[simp] theorem State.releaseOn_frame (c : CompId) (v : Nat) :
    (s.releaseOn c v).channels = s.channels ∧ (s.releaseOn c v).couplers = s.couplers ∧ (s.releaseOn c v).roster =
      s.roster ∧ (s.releaseOn c v).accounts = s.accounts ∧ (s.releaseOn c v).products = s.products ∧ (s.releaseOn c
      v).prices = s.prices ∧ (s.releaseOn c v).limits = s.limits ∧ (s.releaseOn c v).points = s.points ∧ (s.releaseOn
      c v).times = s.times ∧ (s.releaseOn c v).arbiter = s.arbiter ∧ (s.releaseOn c v).pump = s.pump ∧ (s.releaseOn c
      v).probes = s.probes ∧ (s.releaseOn c v).stockSettle = s.stockSettle ∧ (s.releaseOn c v).loader = s.loader ∧
      (s.releaseOn c v).journal = s.journal ∧ (s.releaseOn c v).clock = s.clock ∧ (s.releaseOn c v).ports = s.ports ∧
      (s.releaseOn c v).roles = s.roles ∧ (s.releaseOn c v).watch = s.watch ∧ (s.releaseOn c v).power = s.power ∧
      (s.releaseOn c v).choices = s.choices ∧ (s.releaseOn c v).pending = s.pending ∧ (∀ i, (s.releaseOn c v).channel
      i = s.channel i) ∧ (∀ i, (s.releaseOn c v).coupler i = s.coupler i) ∧ (∀ i, (s.releaseOn c v).product i =
      s.product i) ∧ (∀ i, (s.releaseOn c v).point i = s.point i) ∧ (∀ i, (s.releaseOn c v).port i = s.port i) ∧
      (s.releaseOn c v).inReset = s.inReset := by
  simp [State.point, State.coupler, State.channel, State.port, State.product, State.inReset, State.releaseOn]

@[simp] theorem State.stopSettle_frame (c : CompId) :
    (s.stopSettle c).channels = s.channels ∧ (s.stopSettle c).couplers = s.couplers ∧ (s.stopSettle c).roster =
      s.roster ∧ (s.stopSettle c).accounts = s.accounts ∧ (s.stopSettle c).products = s.products ∧ (s.stopSettle
      c).prices = s.prices ∧ (s.stopSettle c).limits = s.limits ∧ (s.stopSettle c).points = s.points ∧ (s.stopSettle
      c).times = s.times ∧ (s.stopSettle c).arbiter = s.arbiter ∧ (s.stopSettle c).pump = s.pump ∧ (s.stopSettle
      c).probes = s.probes ∧ (s.stopSettle c).stockSettle = s.stockSettle ∧ (s.stopSettle c).loader = s.loader ∧
      (s.stopSettle c).journal = s.journal ∧ (s.stopSettle c).clock = s.clock ∧ (s.stopSettle c).ports = s.ports ∧
      (s.stopSettle c).roles = s.roles ∧ (s.stopSettle c).watch = s.watch ∧ (s.stopSettle c).power = s.power ∧
      (s.stopSettle c).choices = s.choices ∧ (s.stopSettle c).pending = s.pending ∧ (∀ i, (s.stopSettle c).channel i =
      s.channel i) ∧ (∀ i, (s.stopSettle c).coupler i = s.coupler i) ∧ (∀ i, (s.stopSettle c).product i = s.product i)
      ∧ (∀ i, (s.stopSettle c).point i = s.point i) ∧ (∀ i, (s.stopSettle c).port i = s.port i) ∧ (s.stopSettle
      c).inReset = s.inReset := by
  simp [State.point, State.coupler, State.channel, State.port, State.product, State.inReset, State.stopSettle]

@[simp] theorem State.startSettle_frame (c : CompId) :
    (s.startSettle c).channels = s.channels ∧ (s.startSettle c).couplers = s.couplers ∧ (s.startSettle c).roster =
      s.roster ∧ (s.startSettle c).accounts = s.accounts ∧ (s.startSettle c).products = s.products ∧ (s.startSettle
      c).prices = s.prices ∧ (s.startSettle c).limits = s.limits ∧ (s.startSettle c).points = s.points ∧
      (s.startSettle c).times = s.times ∧ (s.startSettle c).arbiter = s.arbiter ∧ (s.startSettle c).pump = s.pump ∧
      (s.startSettle c).probes = s.probes ∧ (s.startSettle c).stockSettle = s.stockSettle ∧ (s.startSettle c).loader =
      s.loader ∧ (s.startSettle c).journal = s.journal ∧ (s.startSettle c).clock = s.clock ∧ (s.startSettle c).ports =
      s.ports ∧ (s.startSettle c).roles = s.roles ∧ (s.startSettle c).watch = s.watch ∧ (s.startSettle c).power =
      s.power ∧ (s.startSettle c).choices = s.choices ∧ (s.startSettle c).pending = s.pending ∧ (∀ i, (s.startSettle
      c).channel i = s.channel i) ∧ (∀ i, (s.startSettle c).coupler i = s.coupler i) ∧ (∀ i, (s.startSettle c).product
      i = s.product i) ∧ (∀ i, (s.startSettle c).point i = s.point i) ∧ (∀ i, (s.startSettle c).port i = s.port i) ∧
      (s.startSettle c).inReset = s.inReset := by
  unfold State.startSettle; repeat' split
  all_goals simp [State.point, State.coupler, State.channel, State.port, State.product, State.inReset]

@[simp] theorem State.reorderFall_frame (c : CompId) :
    (s.reorderFall c).channels = s.channels ∧ (s.reorderFall c).couplers = s.couplers ∧ (s.reorderFall c).roster =
      s.roster ∧ (s.reorderFall c).accounts = s.accounts ∧ (s.reorderFall c).products = s.products ∧ (s.reorderFall
      c).prices = s.prices ∧ (s.reorderFall c).limits = s.limits ∧ (s.reorderFall c).points = s.points ∧
      (s.reorderFall c).times = s.times ∧ (s.reorderFall c).arbiter = s.arbiter ∧ (s.reorderFall c).pump = s.pump ∧
      (s.reorderFall c).probes = s.probes ∧ (s.reorderFall c).stockSettle = s.stockSettle ∧ (s.reorderFall c).loader =
      s.loader ∧ (s.reorderFall c).journal = s.journal ∧ (s.reorderFall c).clock = s.clock ∧ (s.reorderFall c).roles =
      s.roles ∧ (s.reorderFall c).watch = s.watch ∧ (s.reorderFall c).power = s.power ∧ (s.reorderFall c).choices =
      s.choices ∧ (s.reorderFall c).pending = s.pending ∧ (∀ i, (s.reorderFall c).channel i = s.channel i) ∧ (∀ i,
      (s.reorderFall c).coupler i = s.coupler i) ∧ (∀ i, (s.reorderFall c).product i = s.product i) ∧ (∀ i,
      (s.reorderFall c).point i = s.point i) ∧ (s.reorderFall c).inReset = s.inReset := by
  unfold State.reorderFall; repeat' split
  all_goals simp [State.point, State.coupler, State.channel, State.product, State.inReset]

@[simp] theorem State.reorderNew_frame (c : CompId) :
    (s.reorderNew c).channels = s.channels ∧ (s.reorderNew c).couplers = s.couplers ∧ (s.reorderNew c).roster =
      s.roster ∧ (s.reorderNew c).accounts = s.accounts ∧ (s.reorderNew c).products = s.products ∧ (s.reorderNew
      c).prices = s.prices ∧ (s.reorderNew c).limits = s.limits ∧ (s.reorderNew c).points = s.points ∧ (s.reorderNew
      c).times = s.times ∧ (s.reorderNew c).arbiter = s.arbiter ∧ (s.reorderNew c).pump = s.pump ∧ (s.reorderNew
      c).probes = s.probes ∧ (s.reorderNew c).stockSettle = s.stockSettle ∧ (s.reorderNew c).loader = s.loader ∧
      (s.reorderNew c).journal = s.journal ∧ (s.reorderNew c).clock = s.clock ∧ (s.reorderNew c).roles = s.roles ∧
      (s.reorderNew c).watch = s.watch ∧ (s.reorderNew c).power = s.power ∧ (s.reorderNew c).choices = s.choices ∧
      (s.reorderNew c).pending = s.pending ∧ (∀ i, (s.reorderNew c).channel i = s.channel i) ∧ (∀ i, (s.reorderNew
      c).coupler i = s.coupler i) ∧ (∀ i, (s.reorderNew c).product i = s.product i) ∧ (∀ i, (s.reorderNew c).point i =
      s.point i) ∧ (s.reorderNew c).inReset = s.inReset := by
  unfold State.reorderNew; repeat' split
  all_goals simp [State.point, State.coupler, State.channel, State.product, State.inReset]

@[simp] theorem State.setLastRec_frame (c : CompId) (t : Trigger) (o : RecOutcome) (v : Option Int) :
    (s.setLastRec c t o v).channels = s.channels ∧ (s.setLastRec c t o v).couplers = s.couplers ∧ (s.setLastRec c t
      o v).roster = s.roster ∧ (s.setLastRec c t o v).accounts = s.accounts ∧ (s.setLastRec c t o v).products =
      s.products ∧ (s.setLastRec c t o v).prices = s.prices ∧ (s.setLastRec c t o v).limits = s.limits ∧ (s.setLastRec
      c t o v).points = s.points ∧ (s.setLastRec c t o v).times = s.times ∧ (s.setLastRec c t o v).arbiter = s.arbiter
      ∧ (s.setLastRec c t o v).pump = s.pump ∧ (s.setLastRec c t o v).probes = s.probes ∧ (s.setLastRec c t o
      v).stockSettle = s.stockSettle ∧ (s.setLastRec c t o v).loader = s.loader ∧ (s.setLastRec c t o v).journal =
      s.journal ∧ (s.setLastRec c t o v).clock = s.clock ∧ (s.setLastRec c t o v).ports = s.ports ∧ (s.setLastRec c t
      o v).roles = s.roles ∧ (s.setLastRec c t o v).watch = s.watch ∧ (s.setLastRec c t o v).power = s.power ∧
      (s.setLastRec c t o v).choices = s.choices ∧ (s.setLastRec c t o v).pending = s.pending ∧ (∀ i, (s.setLastRec c
      t o v).channel i = s.channel i) ∧ (∀ i, (s.setLastRec c t o v).coupler i = s.coupler i) ∧ (∀ i, (s.setLastRec c
      t o v).product i = s.product i) ∧ (∀ i, (s.setLastRec c t o v).point i = s.point i) ∧ (∀ i, (s.setLastRec c t o
      v).port i = s.port i) ∧ (s.setLastRec c t o v).inReset = s.inReset := by
  simp [State.point, State.coupler, State.channel, State.port, State.product, State.inReset, State.setLastRec]

@[simp] theorem State.reconcileNoGauge_frame (c : CompId) (t : Trigger) :
    (s.reconcileNoGauge c t).channels = s.channels ∧ (s.reconcileNoGauge c t).couplers = s.couplers ∧
      (s.reconcileNoGauge c t).roster = s.roster ∧ (s.reconcileNoGauge c t).accounts = s.accounts ∧
      (s.reconcileNoGauge c t).products = s.products ∧ (s.reconcileNoGauge c t).prices = s.prices ∧
      (s.reconcileNoGauge c t).limits = s.limits ∧ (s.reconcileNoGauge c t).points = s.points ∧ (s.reconcileNoGauge c
      t).times = s.times ∧ (s.reconcileNoGauge c t).arbiter = s.arbiter ∧ (s.reconcileNoGauge c t).pump = s.pump ∧
      (s.reconcileNoGauge c t).probes = s.probes ∧ (s.reconcileNoGauge c t).stockSettle = s.stockSettle ∧
      (s.reconcileNoGauge c t).loader = s.loader ∧ (s.reconcileNoGauge c t).journal = s.journal ∧ (s.reconcileNoGauge
      c t).clock = s.clock ∧ (s.reconcileNoGauge c t).roles = s.roles ∧ (s.reconcileNoGauge c t).watch = s.watch ∧
      (s.reconcileNoGauge c t).power = s.power ∧ (s.reconcileNoGauge c t).choices = s.choices ∧ (s.reconcileNoGauge c
      t).pending = s.pending ∧ (∀ i, (s.reconcileNoGauge c t).channel i = s.channel i) ∧ (∀ i, (s.reconcileNoGauge c
      t).coupler i = s.coupler i) ∧ (∀ i, (s.reconcileNoGauge c t).product i = s.product i) ∧ (∀ i,
      (s.reconcileNoGauge c t).point i = s.point i) ∧ (s.reconcileNoGauge c t).inReset = s.inReset := by
  unfold State.reconcileNoGauge; dsimp only; repeat' split
  all_goals simp [State.point, State.coupler, State.channel, State.product, State.inReset]

@[simp] theorem State.reconcile_frame (t : Trigger) (c : CompId) :
    (s.reconcile t c).channels = s.channels ∧ (s.reconcile t c).couplers = s.couplers ∧ (s.reconcile t c).roster =
      s.roster ∧ (s.reconcile t c).accounts = s.accounts ∧ (s.reconcile t c).products = s.products ∧ (s.reconcile t
      c).prices = s.prices ∧ (s.reconcile t c).limits = s.limits ∧ (s.reconcile t c).points = s.points ∧ (s.reconcile
      t c).times = s.times ∧ (s.reconcile t c).arbiter = s.arbiter ∧ (s.reconcile t c).pump = s.pump ∧ (s.reconcile t
      c).probes = s.probes ∧ (s.reconcile t c).stockSettle = s.stockSettle ∧ (s.reconcile t c).loader = s.loader ∧
      (s.reconcile t c).clock = s.clock ∧ (s.reconcile t c).roles = s.roles ∧ (s.reconcile t c).watch = s.watch ∧
      (s.reconcile t c).power = s.power ∧ (s.reconcile t c).choices = s.choices ∧ (s.reconcile t c).pending =
      s.pending ∧ (∀ i, (s.reconcile t c).channel i = s.channel i) ∧ (∀ i, (s.reconcile t c).coupler i = s.coupler i)
      ∧ (∀ i, (s.reconcile t c).product i = s.product i) ∧ (∀ i, (s.reconcile t c).point i = s.point i) ∧ (s.reconcile
      t c).inReset = s.inReset := by
  unfold State.reconcile; dsimp only; repeat' split
  all_goals simp [State.point, State.coupler, State.channel, State.product, State.inReset]

@[simp] theorem State.reconcileAll_frame (t : Trigger) :
    (s.reconcileAll t).channels = s.channels ∧ (s.reconcileAll t).couplers = s.couplers ∧ (s.reconcileAll t).roster
      = s.roster ∧ (s.reconcileAll t).accounts = s.accounts ∧ (s.reconcileAll t).products = s.products ∧
      (s.reconcileAll t).prices = s.prices ∧ (s.reconcileAll t).limits = s.limits ∧ (s.reconcileAll t).points =
      s.points ∧ (s.reconcileAll t).times = s.times ∧ (s.reconcileAll t).arbiter = s.arbiter ∧ (s.reconcileAll t).pump
      = s.pump ∧ (s.reconcileAll t).probes = s.probes ∧ (s.reconcileAll t).stockSettle = s.stockSettle ∧
      (s.reconcileAll t).loader = s.loader ∧ (s.reconcileAll t).clock = s.clock ∧ (s.reconcileAll t).roles = s.roles ∧
      (s.reconcileAll t).watch = s.watch ∧ (s.reconcileAll t).power = s.power ∧ (s.reconcileAll t).choices = s.choices
      ∧ (s.reconcileAll t).pending = s.pending ∧ (∀ i, (s.reconcileAll t).channel i = s.channel i) ∧ (∀ i,
      (s.reconcileAll t).coupler i = s.coupler i) ∧ (∀ i, (s.reconcileAll t).product i = s.product i) ∧ (∀ i,
      (s.reconcileAll t).point i = s.point i) ∧ (s.reconcileAll t).inReset = s.inReset := by
  simp [State.point, State.coupler, State.channel, State.product, State.inReset, State.reconcileAll, Num4.all]

@[simp] theorem State.chargeBook_frame (c : CompId) (p : PointId) (m v : Nat) :
    (s.chargeBook c p m v).channels = s.channels ∧ (s.chargeBook c p m v).couplers = s.couplers ∧ (s.chargeBook c p
      m v).roster = s.roster ∧ (s.chargeBook c p m v).accounts = s.accounts ∧ (s.chargeBook c p m v).products =
      s.products ∧ (s.chargeBook c p m v).prices = s.prices ∧ (s.chargeBook c p m v).limits = s.limits ∧ (s.chargeBook
      c p m v).points = s.points ∧ (s.chargeBook c p m v).times = s.times ∧ (s.chargeBook c p m v).arbiter = s.arbiter
      ∧ (s.chargeBook c p m v).pump = s.pump ∧ (s.chargeBook c p m v).probes = s.probes ∧ (s.chargeBook c p m
      v).stockSettle = s.stockSettle ∧ (s.chargeBook c p m v).loader = s.loader ∧ (s.chargeBook c p m v).clock =
      s.clock ∧ (s.chargeBook c p m v).roles = s.roles ∧ (s.chargeBook c p m v).watch = s.watch ∧ (s.chargeBook c p m
      v).power = s.power ∧ (s.chargeBook c p m v).choices = s.choices ∧ (s.chargeBook c p m v).pending = s.pending ∧
      (∀ i, (s.chargeBook c p m v).channel i = s.channel i) ∧ (∀ i, (s.chargeBook c p m v).coupler i = s.coupler i) ∧
      (∀ i, (s.chargeBook c p m v).product i = s.product i) ∧ (∀ i, (s.chargeBook c p m v).point i = s.point i) ∧
      (s.chargeBook c p m v).inReset = s.inReset := by
  unfold State.chargeBook; repeat' split
  all_goals simp [State.point, State.coupler, State.channel, State.product, State.inReset]

@[simp] theorem State.bindChannel_frame (c : ChannelId) (q : ProductId) :
    (s.bindChannel c q).couplers = s.couplers ∧ (s.bindChannel c q).roster = s.roster ∧ (s.bindChannel c q).accounts
      = s.accounts ∧ (s.bindChannel c q).products = s.products ∧ (s.bindChannel c q).prices = s.prices ∧
      (s.bindChannel c q).limits = s.limits ∧ (s.bindChannel c q).points = s.points ∧ (s.bindChannel c q).times =
      s.times ∧ (s.bindChannel c q).arbiter = s.arbiter ∧ (s.bindChannel c q).pump = s.pump ∧ (s.bindChannel c
      q).stock = s.stock ∧ (s.bindChannel c q).probes = s.probes ∧ (s.bindChannel c q).stockSettle = s.stockSettle ∧
      (s.bindChannel c q).loader = s.loader ∧ (s.bindChannel c q).journal = s.journal ∧ (s.bindChannel c q).clock =
      s.clock ∧ (s.bindChannel c q).ports = s.ports ∧ (s.bindChannel c q).roles = s.roles ∧ (s.bindChannel c q).watch
      = s.watch ∧ (s.bindChannel c q).power = s.power ∧ (s.bindChannel c q).choices = s.choices ∧ (s.bindChannel c
      q).pending = s.pending ∧ (∀ i, (s.bindChannel c q).coupler i = s.coupler i) ∧ (∀ i, (s.bindChannel c q).product
      i = s.product i) ∧ (∀ i, (s.bindChannel c q).point i = s.point i) ∧ (∀ i, (s.bindChannel c q).comp i = s.comp i)
      ∧ (∀ i, (s.bindChannel c q).port i = s.port i) ∧ (s.bindChannel c q).inReset = s.inReset := by
  simp [State.point, State.coupler, State.comp, State.port, State.product, State.inReset, State.bindChannel]

@[simp] theorem State.unbindChannel_frame (c : ChannelId) :
    (s.unbindChannel c).couplers = s.couplers ∧ (s.unbindChannel c).roster = s.roster ∧ (s.unbindChannel c).accounts
      = s.accounts ∧ (s.unbindChannel c).products = s.products ∧ (s.unbindChannel c).prices = s.prices ∧
      (s.unbindChannel c).limits = s.limits ∧ (s.unbindChannel c).points = s.points ∧ (s.unbindChannel c).times =
      s.times ∧ (s.unbindChannel c).arbiter = s.arbiter ∧ (s.unbindChannel c).pump = s.pump ∧ (s.unbindChannel
      c).stock = s.stock ∧ (s.unbindChannel c).probes = s.probes ∧ (s.unbindChannel c).stockSettle = s.stockSettle ∧
      (s.unbindChannel c).loader = s.loader ∧ (s.unbindChannel c).journal = s.journal ∧ (s.unbindChannel c).clock =
      s.clock ∧ (s.unbindChannel c).ports = s.ports ∧ (s.unbindChannel c).roles = s.roles ∧ (s.unbindChannel c).watch
      = s.watch ∧ (s.unbindChannel c).power = s.power ∧ (s.unbindChannel c).choices = s.choices ∧ (s.unbindChannel
      c).pending = s.pending ∧ (∀ i, (s.unbindChannel c).coupler i = s.coupler i) ∧ (∀ i, (s.unbindChannel c).product
      i = s.product i) ∧ (∀ i, (s.unbindChannel c).point i = s.point i) ∧ (∀ i, (s.unbindChannel c).comp i = s.comp i)
      ∧ (∀ i, (s.unbindChannel c).port i = s.port i) ∧ (s.unbindChannel c).inReset = s.inReset := by
  simp [State.point, State.coupler, State.comp, State.port, State.product, State.inReset, State.unbindChannel]

@[simp] theorem State.handOver_frame (c : ChannelId) (w : WindowResult) :
    (s.handOver c w).channels = s.channels ∧ (s.handOver c w).couplers = s.couplers ∧ (s.handOver c w).roster =
      s.roster ∧ (s.handOver c w).accounts = s.accounts ∧ (s.handOver c w).products = s.products ∧ (s.handOver c
      w).prices = s.prices ∧ (s.handOver c w).limits = s.limits ∧ (s.handOver c w).times = s.times ∧ (s.handOver c
      w).arbiter = s.arbiter ∧ (s.handOver c w).pump = s.pump ∧ (s.handOver c w).stock = s.stock ∧ (s.handOver c
      w).probes = s.probes ∧ (s.handOver c w).stockSettle = s.stockSettle ∧ (s.handOver c w).journal = s.journal ∧
      (s.handOver c w).clock = s.clock ∧ (s.handOver c w).ports = s.ports ∧ (s.handOver c w).roles = s.roles ∧
      (s.handOver c w).watch = s.watch ∧ (s.handOver c w).power = s.power ∧ (s.handOver c w).choices = s.choices ∧
      (s.handOver c w).pending = s.pending ∧ (∀ i, (s.handOver c w).channel i = s.channel i) ∧ (∀ i, (s.handOver c
      w).coupler i = s.coupler i) ∧ (∀ i, (s.handOver c w).product i = s.product i) ∧ (∀ i, (s.handOver c w).comp i =
      s.comp i) ∧ (∀ i, (s.handOver c w).port i = s.port i) ∧ (s.handOver c w).inReset = s.inReset := by
  cases c <;> simp [State.coupler, State.channel, State.comp, State.port, State.product, State.inReset, State.handOver]

@[simp] theorem State.endWindow_frame (c : ChannelId) (x : Option Int) :
    (s.endWindow c x).couplers = s.couplers ∧ (s.endWindow c x).roster = s.roster ∧ (s.endWindow c x).accounts =
      s.accounts ∧ (s.endWindow c x).products = s.products ∧ (s.endWindow c x).prices = s.prices ∧ (s.endWindow c
      x).limits = s.limits ∧ (s.endWindow c x).times = s.times ∧ (s.endWindow c x).arbiter = s.arbiter ∧ (s.endWindow
      c x).pump = s.pump ∧ (s.endWindow c x).stock = s.stock ∧ (s.endWindow c x).probes = s.probes ∧ (s.endWindow c
      x).stockSettle = s.stockSettle ∧ (s.endWindow c x).journal = s.journal ∧ (s.endWindow c x).clock = s.clock ∧
      (s.endWindow c x).roles = s.roles ∧ (s.endWindow c x).watch = s.watch ∧ (s.endWindow c x).power = s.power ∧
      (s.endWindow c x).choices = s.choices ∧ (s.endWindow c x).pending = s.pending ∧ (∀ i, (s.endWindow c x).coupler
      i = s.coupler i) ∧ (∀ i, (s.endWindow c x).product i = s.product i) ∧ (∀ i, (s.endWindow c x).comp i = s.comp i)
      ∧ (s.endWindow c x).inReset = s.inReset := by
  unfold State.endWindow; dsimp only; repeat' split
  all_goals simp [State.coupler, State.comp, State.product, State.inReset]

@[simp] theorem State.stopGrace_frame (p : PointId) :
    (s.stopGrace p).channels = s.channels ∧ (s.stopGrace p).roster = s.roster ∧ (s.stopGrace p).accounts =
      s.accounts ∧ (s.stopGrace p).products = s.products ∧ (s.stopGrace p).prices = s.prices ∧ (s.stopGrace p).limits
      = s.limits ∧ (s.stopGrace p).points = s.points ∧ (s.stopGrace p).times = s.times ∧ (s.stopGrace p).arbiter =
      s.arbiter ∧ (s.stopGrace p).pump = s.pump ∧ (s.stopGrace p).stock = s.stock ∧ (s.stopGrace p).probes = s.probes
      ∧ (s.stopGrace p).stockSettle = s.stockSettle ∧ (s.stopGrace p).loader = s.loader ∧ (s.stopGrace p).journal =
      s.journal ∧ (s.stopGrace p).clock = s.clock ∧ (s.stopGrace p).ports = s.ports ∧ (s.stopGrace p).roles = s.roles
      ∧ (s.stopGrace p).watch = s.watch ∧ (s.stopGrace p).power = s.power ∧ (s.stopGrace p).choices = s.choices ∧
      (s.stopGrace p).pending = s.pending ∧ (∀ i, (s.stopGrace p).channel i = s.channel i) ∧ (∀ i, (s.stopGrace
      p).product i = s.product i) ∧ (∀ i, (s.stopGrace p).point i = s.point i) ∧ (∀ i, (s.stopGrace p).comp i = s.comp
      i) ∧ (∀ i, (s.stopGrace p).port i = s.port i) ∧ (s.stopGrace p).inReset = s.inReset := by
  simp [State.point, State.channel, State.comp, State.port, State.product, State.inReset, State.stopGrace]

@[simp] theorem State.finish_frame (p : PointId) (k : EndCause) :
    (s.finish p k).channels = s.channels ∧ (s.finish p k).roster = s.roster ∧ (s.finish p k).accounts = s.accounts ∧
      (s.finish p k).products = s.products ∧ (s.finish p k).prices = s.prices ∧ (s.finish p k).limits = s.limits ∧
      (s.finish p k).times = s.times ∧ (s.finish p k).pump = s.pump ∧ (s.finish p k).stock = s.stock ∧ (s.finish p
      k).probes = s.probes ∧ (s.finish p k).stockSettle = s.stockSettle ∧ (s.finish p k).loader = s.loader ∧ (s.finish
      p k).journal = s.journal ∧ (s.finish p k).clock = s.clock ∧ (s.finish p k).ports = s.ports ∧ (s.finish p
      k).roles = s.roles ∧ (s.finish p k).watch = s.watch ∧ (s.finish p k).power = s.power ∧ (s.finish p k).choices =
      s.choices ∧ (s.finish p k).pending = s.pending ∧ (∀ i, (s.finish p k).channel i = s.channel i) ∧ (∀ i, (s.finish
      p k).product i = s.product i) ∧ (∀ i, (s.finish p k).comp i = s.comp i) ∧ (∀ i, (s.finish p k).port i = s.port
      i) ∧ (s.finish p k).inReset = s.inReset := by
  simp [State.channel, State.comp, State.port, State.product, State.inReset, State.finish]

@[simp] theorem State.suspend_frame (p : PointId) (k : Cause) :
    (s.suspend p k).channels = s.channels ∧ (s.suspend p k).couplers = s.couplers ∧ (s.suspend p k).roster =
      s.roster ∧ (s.suspend p k).accounts = s.accounts ∧ (s.suspend p k).products = s.products ∧ (s.suspend p
      k).prices = s.prices ∧ (s.suspend p k).limits = s.limits ∧ (s.suspend p k).times = s.times ∧ (s.suspend p
      k).pump = s.pump ∧ (s.suspend p k).stock = s.stock ∧ (s.suspend p k).probes = s.probes ∧ (s.suspend p
      k).stockSettle = s.stockSettle ∧ (s.suspend p k).loader = s.loader ∧ (s.suspend p k).journal = s.journal ∧
      (s.suspend p k).clock = s.clock ∧ (s.suspend p k).ports = s.ports ∧ (s.suspend p k).roles = s.roles ∧ (s.suspend
      p k).watch = s.watch ∧ (s.suspend p k).power = s.power ∧ (s.suspend p k).choices = s.choices ∧ (s.suspend p
      k).pending = s.pending ∧ (∀ i, (s.suspend p k).channel i = s.channel i) ∧ (∀ i, (s.suspend p k).coupler i =
      s.coupler i) ∧ (∀ i, (s.suspend p k).product i = s.product i) ∧ (∀ i, (s.suspend p k).comp i = s.comp i) ∧ (∀ i,
      (s.suspend p k).port i = s.port i) ∧ (s.suspend p k).inReset = s.inReset := by
  simp [State.coupler, State.channel, State.comp, State.port, State.product, State.inReset, State.suspend]

@[simp] theorem State.suspendFlow_frame (p : PointId) (k : Cause) :
    (s.suspendFlow p k).channels = s.channels ∧ (s.suspendFlow p k).couplers = s.couplers ∧ (s.suspendFlow p
      k).roster = s.roster ∧ (s.suspendFlow p k).accounts = s.accounts ∧ (s.suspendFlow p k).products = s.products ∧
      (s.suspendFlow p k).prices = s.prices ∧ (s.suspendFlow p k).limits = s.limits ∧ (s.suspendFlow p k).times =
      s.times ∧ (s.suspendFlow p k).pump = s.pump ∧ (s.suspendFlow p k).stock = s.stock ∧ (s.suspendFlow p k).probes =
      s.probes ∧ (s.suspendFlow p k).stockSettle = s.stockSettle ∧ (s.suspendFlow p k).loader = s.loader ∧
      (s.suspendFlow p k).journal = s.journal ∧ (s.suspendFlow p k).clock = s.clock ∧ (s.suspendFlow p k).ports =
      s.ports ∧ (s.suspendFlow p k).roles = s.roles ∧ (s.suspendFlow p k).watch = s.watch ∧ (s.suspendFlow p k).power
      = s.power ∧ (s.suspendFlow p k).choices = s.choices ∧ (s.suspendFlow p k).pending = s.pending ∧ (∀ i,
      (s.suspendFlow p k).channel i = s.channel i) ∧ (∀ i, (s.suspendFlow p k).coupler i = s.coupler i) ∧ (∀ i,
      (s.suspendFlow p k).product i = s.product i) ∧ (∀ i, (s.suspendFlow p k).comp i = s.comp i) ∧ (∀ i,
      (s.suspendFlow p k).port i = s.port i) ∧ (s.suspendFlow p k).inReset = s.inReset := by
  unfold State.suspendFlow; repeat' split
  all_goals simp [State.coupler, State.channel, State.comp, State.port, State.product, State.inReset]

@[simp] theorem State.flow_frame (p : PointId) (k : Stage) :
    (s.flow p k).channels = s.channels ∧ (s.flow p k).couplers = s.couplers ∧ (s.flow p k).roster = s.roster ∧
      (s.flow p k).accounts = s.accounts ∧ (s.flow p k).products = s.products ∧ (s.flow p k).prices = s.prices ∧
      (s.flow p k).limits = s.limits ∧ (s.flow p k).times = s.times ∧ (s.flow p k).pump = s.pump ∧ (s.flow p k).stock
      = s.stock ∧ (s.flow p k).probes = s.probes ∧ (s.flow p k).stockSettle = s.stockSettle ∧ (s.flow p k).loader =
      s.loader ∧ (s.flow p k).journal = s.journal ∧ (s.flow p k).clock = s.clock ∧ (s.flow p k).ports = s.ports ∧
      (s.flow p k).roles = s.roles ∧ (s.flow p k).watch = s.watch ∧ (s.flow p k).power = s.power ∧ (s.flow p
      k).choices = s.choices ∧ (s.flow p k).pending = s.pending ∧ (∀ i, (s.flow p k).channel i = s.channel i) ∧ (∀ i,
      (s.flow p k).coupler i = s.coupler i) ∧ (∀ i, (s.flow p k).product i = s.product i) ∧ (∀ i, (s.flow p k).comp i
      = s.comp i) ∧ (∀ i, (s.flow p k).port i = s.port i) ∧ (s.flow p k).inReset = s.inReset := by
  simp [State.coupler, State.channel, State.comp, State.port, State.product, State.inReset, State.flow]

@[simp] theorem State.compareFlow_frame (p : PointId) :
    (s.compareFlow p).channels = s.channels ∧ (s.compareFlow p).roster = s.roster ∧ (s.compareFlow p).accounts =
      s.accounts ∧ (s.compareFlow p).products = s.products ∧ (s.compareFlow p).prices = s.prices ∧ (s.compareFlow
      p).limits = s.limits ∧ (s.compareFlow p).times = s.times ∧ (s.compareFlow p).pump = s.pump ∧ (s.compareFlow
      p).stock = s.stock ∧ (s.compareFlow p).probes = s.probes ∧ (s.compareFlow p).stockSettle = s.stockSettle ∧
      (s.compareFlow p).loader = s.loader ∧ (s.compareFlow p).journal = s.journal ∧ (s.compareFlow p).clock = s.clock
      ∧ (s.compareFlow p).ports = s.ports ∧ (s.compareFlow p).roles = s.roles ∧ (s.compareFlow p).watch = s.watch ∧
      (s.compareFlow p).power = s.power ∧ (s.compareFlow p).choices = s.choices ∧ (s.compareFlow p).pending =
      s.pending ∧ (∀ i, (s.compareFlow p).channel i = s.channel i) ∧ (∀ i, (s.compareFlow p).product i = s.product i)
      ∧ (∀ i, (s.compareFlow p).comp i = s.comp i) ∧ (∀ i, (s.compareFlow p).port i = s.port i) ∧ (s.compareFlow
      p).inReset = s.inReset := by
  unfold State.compareFlow; repeat' split
  all_goals simp [State.channel, State.comp, State.port, State.product, State.inReset]

@[simp] theorem State.compareLowered_frame (p : PointId) :
    (s.compareLowered p).channels = s.channels ∧ (s.compareLowered p).roster = s.roster ∧ (s.compareLowered
      p).accounts = s.accounts ∧ (s.compareLowered p).products = s.products ∧ (s.compareLowered p).prices = s.prices ∧
      (s.compareLowered p).limits = s.limits ∧ (s.compareLowered p).times = s.times ∧ (s.compareLowered p).pump =
      s.pump ∧ (s.compareLowered p).stock = s.stock ∧ (s.compareLowered p).probes = s.probes ∧ (s.compareLowered
      p).stockSettle = s.stockSettle ∧ (s.compareLowered p).loader = s.loader ∧ (s.compareLowered p).journal =
      s.journal ∧ (s.compareLowered p).clock = s.clock ∧ (s.compareLowered p).ports = s.ports ∧ (s.compareLowered
      p).roles = s.roles ∧ (s.compareLowered p).watch = s.watch ∧ (s.compareLowered p).power = s.power ∧
      (s.compareLowered p).choices = s.choices ∧ (s.compareLowered p).pending = s.pending ∧ (∀ i, (s.compareLowered
      p).channel i = s.channel i) ∧ (∀ i, (s.compareLowered p).product i = s.product i) ∧ (∀ i, (s.compareLowered
      p).comp i = s.comp i) ∧ (∀ i, (s.compareLowered p).port i = s.port i) ∧ (s.compareLowered p).inReset = s.inReset := by
  unfold State.compareLowered; repeat' split
  all_goals simp [State.channel, State.comp, State.port, State.product, State.inReset]

@[simp] theorem State.lowerLimit_frame (p : PointId) (l : Nat) (x : LimitSource) :
    (s.lowerLimit p l x).channels = s.channels ∧ (s.lowerLimit p l x).couplers = s.couplers ∧ (s.lowerLimit p l
      x).products = s.products ∧ (s.lowerLimit p l x).prices = s.prices ∧ (s.lowerLimit p l x).limits = s.limits ∧
      (s.lowerLimit p l x).times = s.times ∧ (s.lowerLimit p l x).arbiter = s.arbiter ∧ (s.lowerLimit p l x).pump =
      s.pump ∧ (s.lowerLimit p l x).probes = s.probes ∧ (s.lowerLimit p l x).stockSettle = s.stockSettle ∧
      (s.lowerLimit p l x).loader = s.loader ∧ (s.lowerLimit p l x).journal = s.journal ∧ (s.lowerLimit p l x).clock =
      s.clock ∧ (s.lowerLimit p l x).ports = s.ports ∧ (s.lowerLimit p l x).roles = s.roles ∧ (s.lowerLimit p l
      x).watch = s.watch ∧ (s.lowerLimit p l x).power = s.power ∧ (s.lowerLimit p l x).choices = s.choices ∧
      (s.lowerLimit p l x).pending = s.pending ∧ (∀ i, (s.lowerLimit p l x).channel i = s.channel i) ∧ (∀ i,
      (s.lowerLimit p l x).coupler i = s.coupler i) ∧ (∀ i, (s.lowerLimit p l x).product i = s.product i) ∧ (∀ i,
      (s.lowerLimit p l x).port i = s.port i) ∧ (s.lowerLimit p l x).inReset = s.inReset := by
  unfold State.lowerLimit; dsimp only; repeat' split
  all_goals simp [State.coupler, State.channel, State.port, State.product, State.inReset]

@[simp] theorem State.endSeries_frame (p : PointId) :
    (s.endSeries p).channels = s.channels ∧ (s.endSeries p).couplers = s.couplers ∧ (s.endSeries p).roster =
      s.roster ∧ (s.endSeries p).accounts = s.accounts ∧ (s.endSeries p).products = s.products ∧ (s.endSeries
      p).prices = s.prices ∧ (s.endSeries p).limits = s.limits ∧ (s.endSeries p).times = s.times ∧ (s.endSeries
      p).arbiter = s.arbiter ∧ (s.endSeries p).pump = s.pump ∧ (s.endSeries p).stock = s.stock ∧ (s.endSeries
      p).probes = s.probes ∧ (s.endSeries p).stockSettle = s.stockSettle ∧ (s.endSeries p).loader = s.loader ∧
      (s.endSeries p).journal = s.journal ∧ (s.endSeries p).clock = s.clock ∧ (s.endSeries p).ports = s.ports ∧
      (s.endSeries p).roles = s.roles ∧ (s.endSeries p).watch = s.watch ∧ (s.endSeries p).power = s.power ∧
      (s.endSeries p).choices = s.choices ∧ (s.endSeries p).pending = s.pending ∧ (∀ i, (s.endSeries p).channel i =
      s.channel i) ∧ (∀ i, (s.endSeries p).coupler i = s.coupler i) ∧ (∀ i, (s.endSeries p).product i = s.product i) ∧
      (∀ i, (s.endSeries p).comp i = s.comp i) ∧ (∀ i, (s.endSeries p).port i = s.port i) ∧ (s.endSeries p).inReset =
      s.inReset := by
  simp [State.coupler, State.channel, State.comp, State.port, State.product, State.inReset, State.endSeries]

@[simp] theorem State.grantFlow_frame (p : PointId) (d : Delivery) :
    (s.grantFlow p d).channels = s.channels ∧ (s.grantFlow p d).roster = s.roster ∧ (s.grantFlow p d).accounts =
      s.accounts ∧ (s.grantFlow p d).products = s.products ∧ (s.grantFlow p d).prices = s.prices ∧ (s.grantFlow p
      d).limits = s.limits ∧ (s.grantFlow p d).times = s.times ∧ (s.grantFlow p d).pump = s.pump ∧ (s.grantFlow p
      d).stock = s.stock ∧ (s.grantFlow p d).probes = s.probes ∧ (s.grantFlow p d).stockSettle = s.stockSettle ∧
      (s.grantFlow p d).loader = s.loader ∧ (s.grantFlow p d).journal = s.journal ∧ (s.grantFlow p d).clock = s.clock
      ∧ (s.grantFlow p d).ports = s.ports ∧ (s.grantFlow p d).roles = s.roles ∧ (s.grantFlow p d).watch = s.watch ∧
      (s.grantFlow p d).power = s.power ∧ (s.grantFlow p d).choices = s.choices ∧ (s.grantFlow p d).pending =
      s.pending ∧ (∀ i, (s.grantFlow p d).channel i = s.channel i) ∧ (∀ i, (s.grantFlow p d).product i = s.product i)
      ∧ (∀ i, (s.grantFlow p d).comp i = s.comp i) ∧ (∀ i, (s.grantFlow p d).port i = s.port i) ∧ (s.grantFlow p
      d).inReset = s.inReset := by
  unfold State.grantFlow; dsimp only; repeat' split
  all_goals simp [State.channel, State.comp, State.port, State.product, State.inReset]

@[simp] theorem State.grant_frame (p : PointId) :
    (s.grant p).channels = s.channels ∧ (s.grant p).roster = s.roster ∧ (s.grant p).accounts = s.accounts ∧ (s.grant
      p).products = s.products ∧ (s.grant p).prices = s.prices ∧ (s.grant p).limits = s.limits ∧ (s.grant p).times =
      s.times ∧ (s.grant p).pump = s.pump ∧ (s.grant p).stock = s.stock ∧ (s.grant p).probes = s.probes ∧ (s.grant
      p).stockSettle = s.stockSettle ∧ (s.grant p).loader = s.loader ∧ (s.grant p).journal = s.journal ∧ (s.grant
      p).clock = s.clock ∧ (s.grant p).ports = s.ports ∧ (s.grant p).roles = s.roles ∧ (s.grant p).watch = s.watch ∧
      (s.grant p).power = s.power ∧ (s.grant p).choices = s.choices ∧ (s.grant p).pending = s.pending ∧ (∀ i, (s.grant
      p).channel i = s.channel i) ∧ (∀ i, (s.grant p).product i = s.product i) ∧ (∀ i, (s.grant p).comp i = s.comp i)
      ∧ (∀ i, (s.grant p).port i = s.port i) ∧ (s.grant p).inReset = s.inReset := by
  unfold State.grant; repeat' split
  all_goals simp [State.channel, State.comp, State.port, State.product, State.inReset]

@[simp] theorem State.fileRequest_frame (p : PointId) (c : CompId) :
    (s.fileRequest p c).channels = s.channels ∧ (s.fileRequest p c).roster = s.roster ∧ (s.fileRequest p c).accounts
      = s.accounts ∧ (s.fileRequest p c).products = s.products ∧ (s.fileRequest p c).prices = s.prices ∧
      (s.fileRequest p c).limits = s.limits ∧ (s.fileRequest p c).times = s.times ∧ (s.fileRequest p c).pump = s.pump
      ∧ (s.fileRequest p c).stock = s.stock ∧ (s.fileRequest p c).probes = s.probes ∧ (s.fileRequest p c).stockSettle
      = s.stockSettle ∧ (s.fileRequest p c).loader = s.loader ∧ (s.fileRequest p c).journal = s.journal ∧
      (s.fileRequest p c).clock = s.clock ∧ (s.fileRequest p c).ports = s.ports ∧ (s.fileRequest p c).roles = s.roles
      ∧ (s.fileRequest p c).watch = s.watch ∧ (s.fileRequest p c).power = s.power ∧ (s.fileRequest p c).choices =
      s.choices ∧ (s.fileRequest p c).pending = s.pending ∧ (∀ i, (s.fileRequest p c).channel i = s.channel i) ∧ (∀ i,
      (s.fileRequest p c).product i = s.product i) ∧ (∀ i, (s.fileRequest p c).comp i = s.comp i) ∧ (∀ i,
      (s.fileRequest p c).port i = s.port i) ∧ (s.fileRequest p c).inReset = s.inReset := by
  unfold State.fileRequest; repeat' split
  all_goals simp [State.channel, State.comp, State.port, State.product, State.inReset]

@[simp] theorem State.takePress_frame (p : PointId) (d : Delivery) :
    (s.takePress p d).channels = s.channels ∧ (s.takePress p d).roster = s.roster ∧ (s.takePress p d).accounts =
      s.accounts ∧ (s.takePress p d).products = s.products ∧ (s.takePress p d).prices = s.prices ∧ (s.takePress p
      d).limits = s.limits ∧ (s.takePress p d).times = s.times ∧ (s.takePress p d).pump = s.pump ∧ (s.takePress p
      d).stock = s.stock ∧ (s.takePress p d).probes = s.probes ∧ (s.takePress p d).stockSettle = s.stockSettle ∧
      (s.takePress p d).loader = s.loader ∧ (s.takePress p d).journal = s.journal ∧ (s.takePress p d).clock = s.clock
      ∧ (s.takePress p d).ports = s.ports ∧ (s.takePress p d).roles = s.roles ∧ (s.takePress p d).watch = s.watch ∧
      (s.takePress p d).power = s.power ∧ (s.takePress p d).choices = s.choices ∧ (s.takePress p d).pending =
      s.pending ∧ (∀ i, (s.takePress p d).channel i = s.channel i) ∧ (∀ i, (s.takePress p d).product i = s.product i)
      ∧ (∀ i, (s.takePress p d).comp i = s.comp i) ∧ (∀ i, (s.takePress p d).port i = s.port i) ∧ (s.takePress p
      d).inReset = s.inReset := by
  unfold State.takePress; dsimp only; repeat' split
  all_goals simp [State.channel, State.comp, State.port, State.product, State.inReset]

@[simp] theorem State.setRefusal_frame (p : PointId) (x : Status) (r : Option Reason) (l : Option LimitSource) (t : Option TagId) (m : Option Nat) :
    (s.setRefusal p x r l t m).channels = s.channels ∧ (s.setRefusal p x r l t m).roster = s.roster ∧ (s.setRefusal
      p x r l t m).accounts = s.accounts ∧ (s.setRefusal p x r l t m).products = s.products ∧ (s.setRefusal p x r l t
      m).prices = s.prices ∧ (s.setRefusal p x r l t m).limits = s.limits ∧ (s.setRefusal p x r l t m).points =
      s.points ∧ (s.setRefusal p x r l t m).times = s.times ∧ (s.setRefusal p x r l t m).arbiter = s.arbiter ∧
      (s.setRefusal p x r l t m).pump = s.pump ∧ (s.setRefusal p x r l t m).stock = s.stock ∧ (s.setRefusal p x r l t
      m).probes = s.probes ∧ (s.setRefusal p x r l t m).stockSettle = s.stockSettle ∧ (s.setRefusal p x r l t
      m).loader = s.loader ∧ (s.setRefusal p x r l t m).journal = s.journal ∧ (s.setRefusal p x r l t m).clock =
      s.clock ∧ (s.setRefusal p x r l t m).ports = s.ports ∧ (s.setRefusal p x r l t m).roles = s.roles ∧
      (s.setRefusal p x r l t m).watch = s.watch ∧ (s.setRefusal p x r l t m).power = s.power ∧ (s.setRefusal p x r l
      t m).choices = s.choices ∧ (s.setRefusal p x r l t m).pending = s.pending ∧ (∀ i, (s.setRefusal p x r l t
      m).channel i = s.channel i) ∧ (∀ i, (s.setRefusal p x r l t m).product i = s.product i) ∧ (∀ i, (s.setRefusal p
      x r l t m).point i = s.point i) ∧ (∀ i, (s.setRefusal p x r l t m).comp i = s.comp i) ∧ (∀ i, (s.setRefusal p x
      r l t m).port i = s.port i) ∧ (s.setRefusal p x r l t m).inReset = s.inReset := by
  simp [State.point, State.channel, State.comp, State.port, State.product, State.inReset, State.setRefusal]

@[simp] theorem State.raiseRefused_frame (x : AuthRefusal) :
    (s.raiseRefused x).channels = s.channels ∧ (s.raiseRefused x).couplers = s.couplers ∧ (s.raiseRefused x).roster
      = s.roster ∧ (s.raiseRefused x).accounts = s.accounts ∧ (s.raiseRefused x).products = s.products ∧
      (s.raiseRefused x).prices = s.prices ∧ (s.raiseRefused x).limits = s.limits ∧ (s.raiseRefused x).points =
      s.points ∧ (s.raiseRefused x).times = s.times ∧ (s.raiseRefused x).arbiter = s.arbiter ∧ (s.raiseRefused x).pump
      = s.pump ∧ (s.raiseRefused x).stock = s.stock ∧ (s.raiseRefused x).probes = s.probes ∧ (s.raiseRefused
      x).stockSettle = s.stockSettle ∧ (s.raiseRefused x).loader = s.loader ∧ (s.raiseRefused x).journal = s.journal ∧
      (s.raiseRefused x).clock = s.clock ∧ (s.raiseRefused x).roles = s.roles ∧ (s.raiseRefused x).watch = s.watch ∧
      (s.raiseRefused x).power = s.power ∧ (s.raiseRefused x).choices = s.choices ∧ (s.raiseRefused x).pending =
      s.pending ∧ (∀ i, (s.raiseRefused x).channel i = s.channel i) ∧ (∀ i, (s.raiseRefused x).coupler i = s.coupler
      i) ∧ (∀ i, (s.raiseRefused x).product i = s.product i) ∧ (∀ i, (s.raiseRefused x).point i = s.point i) ∧ (∀ i,
      (s.raiseRefused x).comp i = s.comp i) ∧ (s.raiseRefused x).inReset = s.inReset := by
  unfold State.raiseRefused; dsimp only; repeat' split
  all_goals simp [State.point, State.coupler, State.channel, State.comp, State.product, State.inReset]

@[simp] theorem State.openDelivery_frame (p : PointId) (r : AuthRequest) (a : Account) (c : CompId) (l : Nat) (x : LimitSource) (n : Nat) :
    (s.openDelivery p r a c l x n).products = s.products ∧ (s.openDelivery p r a c l x n).prices = s.prices ∧
      (s.openDelivery p r a c l x n).limits = s.limits ∧ (s.openDelivery p r a c l x n).times = s.times ∧
      (s.openDelivery p r a c l x n).arbiter = s.arbiter ∧ (s.openDelivery p r a c l x n).pump = s.pump ∧
      (s.openDelivery p r a c l x n).probes = s.probes ∧ (s.openDelivery p r a c l x n).stockSettle = s.stockSettle ∧
      (s.openDelivery p r a c l x n).loader = s.loader ∧ (s.openDelivery p r a c l x n).clock = s.clock ∧
      (s.openDelivery p r a c l x n).roles = s.roles ∧ (s.openDelivery p r a c l x n).watch = s.watch ∧
      (s.openDelivery p r a c l x n).power = s.power ∧ (s.openDelivery p r a c l x n).choices = s.choices ∧
      (s.openDelivery p r a c l x n).pending = s.pending ∧ (∀ i, (s.openDelivery p r a c l x n).product i = s.product
      i) ∧ (s.openDelivery p r a c l x n).inReset = s.inReset := by
  simp [State.product, State.inReset, State.openDelivery]

@[simp] theorem State.releaseDelivery_frame (p : PointId) (d : Delivery) :
    (s.releaseDelivery p d).couplers = s.couplers ∧ (s.releaseDelivery p d).products = s.products ∧
      (s.releaseDelivery p d).prices = s.prices ∧ (s.releaseDelivery p d).limits = s.limits ∧ (s.releaseDelivery p
      d).points = s.points ∧ (s.releaseDelivery p d).times = s.times ∧ (s.releaseDelivery p d).arbiter = s.arbiter ∧
      (s.releaseDelivery p d).pump = s.pump ∧ (s.releaseDelivery p d).probes = s.probes ∧ (s.releaseDelivery p
      d).stockSettle = s.stockSettle ∧ (s.releaseDelivery p d).loader = s.loader ∧ (s.releaseDelivery p d).journal =
      s.journal ∧ (s.releaseDelivery p d).clock = s.clock ∧ (s.releaseDelivery p d).ports = s.ports ∧
      (s.releaseDelivery p d).roles = s.roles ∧ (s.releaseDelivery p d).watch = s.watch ∧ (s.releaseDelivery p
      d).power = s.power ∧ (s.releaseDelivery p d).choices = s.choices ∧ (s.releaseDelivery p d).pending = s.pending ∧
      (∀ i, (s.releaseDelivery p d).coupler i = s.coupler i) ∧ (∀ i, (s.releaseDelivery p d).product i = s.product i)
      ∧ (∀ i, (s.releaseDelivery p d).point i = s.point i) ∧ (∀ i, (s.releaseDelivery p d).port i = s.port i) ∧
      (s.releaseDelivery p d).inReset = s.inReset := by
  simp [State.point, State.coupler, State.port, State.product, State.inReset, State.releaseDelivery]

@[simp] theorem State.chargeAccount_frame (n m : Nat) :
    (s.chargeAccount n m).channels = s.channels ∧ (s.chargeAccount n m).couplers = s.couplers ∧ (s.chargeAccount n
      m).roster = s.roster ∧ (s.chargeAccount n m).products = s.products ∧ (s.chargeAccount n m).prices = s.prices ∧
      (s.chargeAccount n m).limits = s.limits ∧ (s.chargeAccount n m).points = s.points ∧ (s.chargeAccount n m).times
      = s.times ∧ (s.chargeAccount n m).arbiter = s.arbiter ∧ (s.chargeAccount n m).pump = s.pump ∧ (s.chargeAccount n
      m).stock = s.stock ∧ (s.chargeAccount n m).probes = s.probes ∧ (s.chargeAccount n m).stockSettle = s.stockSettle
      ∧ (s.chargeAccount n m).loader = s.loader ∧ (s.chargeAccount n m).journal = s.journal ∧ (s.chargeAccount n
      m).clock = s.clock ∧ (s.chargeAccount n m).roles = s.roles ∧ (s.chargeAccount n m).watch = s.watch ∧
      (s.chargeAccount n m).power = s.power ∧ (s.chargeAccount n m).choices = s.choices ∧ (s.chargeAccount n
      m).pending = s.pending ∧ (∀ i, (s.chargeAccount n m).channel i = s.channel i) ∧ (∀ i, (s.chargeAccount n
      m).coupler i = s.coupler i) ∧ (∀ i, (s.chargeAccount n m).product i = s.product i) ∧ (∀ i, (s.chargeAccount n
      m).point i = s.point i) ∧ (∀ i, (s.chargeAccount n m).comp i = s.comp i) ∧ (s.chargeAccount n m).inReset =
      s.inReset := by
  unfold State.chargeAccount; dsimp only; repeat' split
  all_goals simp [State.point, State.coupler, State.channel, State.comp, State.product, State.inReset]

@[simp] theorem State.chargeDelivery_frame (p : PointId) (d : Delivery) (k : EndCause) (b : Bool) :
    (s.chargeDelivery p d k b).channels = s.channels ∧ (s.chargeDelivery p d k b).couplers = s.couplers ∧
      (s.chargeDelivery p d k b).products = s.products ∧ (s.chargeDelivery p d k b).prices = s.prices ∧
      (s.chargeDelivery p d k b).limits = s.limits ∧ (s.chargeDelivery p d k b).points = s.points ∧ (s.chargeDelivery
      p d k b).times = s.times ∧ (s.chargeDelivery p d k b).arbiter = s.arbiter ∧ (s.chargeDelivery p d k b).pump =
      s.pump ∧ (s.chargeDelivery p d k b).probes = s.probes ∧ (s.chargeDelivery p d k b).stockSettle = s.stockSettle ∧
      (s.chargeDelivery p d k b).loader = s.loader ∧ (s.chargeDelivery p d k b).clock = s.clock ∧ (s.chargeDelivery p
      d k b).roles = s.roles ∧ (s.chargeDelivery p d k b).watch = s.watch ∧ (s.chargeDelivery p d k b).power = s.power
      ∧ (s.chargeDelivery p d k b).choices = s.choices ∧ (s.chargeDelivery p d k b).pending = s.pending ∧ (∀ i,
      (s.chargeDelivery p d k b).channel i = s.channel i) ∧ (∀ i, (s.chargeDelivery p d k b).coupler i = s.coupler i)
      ∧ (∀ i, (s.chargeDelivery p d k b).product i = s.product i) ∧ (∀ i, (s.chargeDelivery p d k b).point i = s.point
      i) ∧ (s.chargeDelivery p d k b).inReset = s.inReset := by
  unfold State.chargeDelivery Delivery.charges; dsimp only; split <;> simp [State.point, State.coupler, State.channel, State.product, State.inReset]

@[simp] theorem State.quietPoint_frame (p : PointId) :
    (s.quietPoint p).channels = s.channels ∧ (s.quietPoint p).roster = s.roster ∧ (s.quietPoint p).accounts =
      s.accounts ∧ (s.quietPoint p).products = s.products ∧ (s.quietPoint p).prices = s.prices ∧ (s.quietPoint
      p).limits = s.limits ∧ (s.quietPoint p).times = s.times ∧ (s.quietPoint p).pump = s.pump ∧ (s.quietPoint
      p).stock = s.stock ∧ (s.quietPoint p).probes = s.probes ∧ (s.quietPoint p).stockSettle = s.stockSettle ∧
      (s.quietPoint p).loader = s.loader ∧ (s.quietPoint p).journal = s.journal ∧ (s.quietPoint p).clock = s.clock ∧
      (s.quietPoint p).ports = s.ports ∧ (s.quietPoint p).roles = s.roles ∧ (s.quietPoint p).watch = s.watch ∧
      (s.quietPoint p).power = s.power ∧ (s.quietPoint p).choices = s.choices ∧ (s.quietPoint p).pending = s.pending ∧
      (∀ i, (s.quietPoint p).channel i = s.channel i) ∧ (∀ i, (s.quietPoint p).product i = s.product i) ∧ (∀ i,
      (s.quietPoint p).comp i = s.comp i) ∧ (∀ i, (s.quietPoint p).port i = s.port i) ∧ (s.quietPoint p).inReset =
      s.inReset := by
  simp [State.channel, State.comp, State.port, State.product, State.inReset, State.quietPoint]

@[simp] theorem State.close_frame (p : PointId) (k : EndCause) (b : Bool) :
    (s.close p k b).products = s.products ∧ (s.close p k b).prices = s.prices ∧ (s.close p k b).limits = s.limits ∧
      (s.close p k b).times = s.times ∧ (s.close p k b).pump = s.pump ∧ (s.close p k b).probes = s.probes ∧ (s.close p
      k b).stockSettle = s.stockSettle ∧ (s.close p k b).loader = s.loader ∧ (s.close p k b).clock = s.clock ∧
      (s.close p k b).roles = s.roles ∧ (s.close p k b).watch = s.watch ∧ (s.close p k b).power = s.power ∧ (s.close p
      k b).choices = s.choices ∧ (s.close p k b).pending = s.pending ∧ (∀ i, (s.close p k b).product i = s.product i)
      ∧ (s.close p k b).inReset = s.inReset := by
  unfold State.close; dsimp only; repeat' split
  all_goals simp [State.product, State.inReset]

@[simp] theorem State.rearm_frame (p : PointId) (d : Delivery) (x : Option Preset) :
    (s.rearm p d x).products = s.products ∧ (s.rearm p d x).prices = s.prices ∧ (s.rearm p d x).limits = s.limits ∧
      (s.rearm p d x).times = s.times ∧ (s.rearm p d x).arbiter = s.arbiter ∧ (s.rearm p d x).pump = s.pump ∧ (s.rearm
      p d x).probes = s.probes ∧ (s.rearm p d x).stockSettle = s.stockSettle ∧ (s.rearm p d x).loader = s.loader ∧
      (s.rearm p d x).clock = s.clock ∧ (s.rearm p d x).roles = s.roles ∧ (s.rearm p d x).watch = s.watch ∧ (s.rearm p
      d x).power = s.power ∧ (s.rearm p d x).choices = s.choices ∧ (s.rearm p d x).pending = s.pending ∧ (∀ i,
      (s.rearm p d x).product i = s.product i) ∧ (s.rearm p d x).inReset = s.inReset := by
  unfold State.rearm State.authorise
  cases findMachine s.roster d.machine with
  | none => simp [State.product, State.inReset]
  | some m =>
    dsimp only
    cases State.checkAuth _ p _ with
    | error y => simp [State.product, State.inReset]
    | ok z => simp [State.product, State.inReset]

@[simp] theorem State.closeOn_frame (p : PointId) (k : EndCause) :
    (s.closeOn p k).products = s.products ∧ (s.closeOn p k).prices = s.prices ∧ (s.closeOn p k).limits = s.limits ∧
      (s.closeOn p k).times = s.times ∧ (s.closeOn p k).pump = s.pump ∧ (s.closeOn p k).probes = s.probes ∧ (s.closeOn
      p k).stockSettle = s.stockSettle ∧ (s.closeOn p k).loader = s.loader ∧ (s.closeOn p k).clock = s.clock ∧
      (s.closeOn p k).roles = s.roles ∧ (s.closeOn p k).watch = s.watch ∧ (s.closeOn p k).power = s.power ∧ (s.closeOn
      p k).choices = s.choices ∧ (s.closeOn p k).pending = s.pending ∧ (∀ i, (s.closeOn p k).product i = s.product i)
      ∧ (s.closeOn p k).inReset = s.inReset := by
  unfold State.closeOn; dsimp only; repeat' split
  all_goals simp [State.product, State.inReset]

@[simp] theorem State.tellFault_frame :
    s.tellFault.channels = s.channels ∧ s.tellFault.couplers = s.couplers ∧ s.tellFault.roster = s.roster ∧
      s.tellFault.accounts = s.accounts ∧ s.tellFault.products = s.products ∧ s.tellFault.prices = s.prices ∧
      s.tellFault.limits = s.limits ∧ s.tellFault.times = s.times ∧ s.tellFault.pump = s.pump ∧ s.tellFault.stock =
      s.stock ∧ s.tellFault.probes = s.probes ∧ s.tellFault.stockSettle = s.stockSettle ∧ s.tellFault.loader =
      s.loader ∧ s.tellFault.journal = s.journal ∧ s.tellFault.clock = s.clock ∧ s.tellFault.ports = s.ports ∧
      s.tellFault.roles = s.roles ∧ s.tellFault.watch = s.watch ∧ s.tellFault.power = s.power ∧ s.tellFault.choices =
      s.choices ∧ s.tellFault.pending = s.pending ∧ (∀ i, s.tellFault.channel i = s.channel i) ∧ (∀ i,
      s.tellFault.coupler i = s.coupler i) ∧ (∀ i, s.tellFault.product i = s.product i) ∧ (∀ i, s.tellFault.comp i =
      s.comp i) ∧ (∀ i, s.tellFault.port i = s.port i) ∧ s.tellFault.inReset = s.inReset := by
  simp [State.coupler, State.channel, State.comp, State.port, State.product, State.inReset, State.tellFault]

@[simp] theorem State.mayRun_frame :
    s.mayRun.channels = s.channels ∧ s.mayRun.couplers = s.couplers ∧ s.mayRun.roster = s.roster ∧ s.mayRun.accounts
      = s.accounts ∧ s.mayRun.products = s.products ∧ s.mayRun.prices = s.prices ∧ s.mayRun.limits = s.limits ∧
      s.mayRun.times = s.times ∧ s.mayRun.arbiter = s.arbiter ∧ s.mayRun.pump = s.pump ∧ s.mayRun.stock = s.stock ∧
      s.mayRun.probes = s.probes ∧ s.mayRun.stockSettle = s.stockSettle ∧ s.mayRun.loader = s.loader ∧
      s.mayRun.journal = s.journal ∧ s.mayRun.clock = s.clock ∧ s.mayRun.ports = s.ports ∧ s.mayRun.roles = s.roles ∧
      s.mayRun.watch = s.watch ∧ s.mayRun.power = s.power ∧ s.mayRun.choices = s.choices ∧ s.mayRun.pending =
      s.pending ∧ (∀ i, s.mayRun.channel i = s.channel i) ∧ (∀ i, s.mayRun.coupler i = s.coupler i) ∧ (∀ i,
      s.mayRun.product i = s.product i) ∧ (∀ i, s.mayRun.comp i = s.comp i) ∧ (∀ i, s.mayRun.port i = s.port i) ∧
      s.mayRun.inReset = s.inReset := by
  simp [State.coupler, State.channel, State.comp, State.port, State.product, State.inReset, State.mayRun]

@[simp] theorem State.latch_frame (k : FaultKind) (b : Bool) :
    (s.latch k b).channels = s.channels ∧ (s.latch k b).couplers = s.couplers ∧ (s.latch k b).roster = s.roster ∧
      (s.latch k b).accounts = s.accounts ∧ (s.latch k b).products = s.products ∧ (s.latch k b).prices = s.prices ∧
      (s.latch k b).limits = s.limits ∧ (s.latch k b).times = s.times ∧ (s.latch k b).stock = s.stock ∧ (s.latch k
      b).probes = s.probes ∧ (s.latch k b).stockSettle = s.stockSettle ∧ (s.latch k b).loader = s.loader ∧ (s.latch k
      b).journal = s.journal ∧ (s.latch k b).clock = s.clock ∧ (s.latch k b).roles = s.roles ∧ (s.latch k b).watch =
      s.watch ∧ (s.latch k b).power = s.power ∧ (s.latch k b).choices = s.choices ∧ (s.latch k b).pending = s.pending
      ∧ (∀ i, (s.latch k b).channel i = s.channel i) ∧ (∀ i, (s.latch k b).coupler i = s.coupler i) ∧ (∀ i, (s.latch k
      b).product i = s.product i) ∧ (∀ i, (s.latch k b).comp i = s.comp i) ∧ (s.latch k b).inReset = s.inReset := by
  simp [State.coupler, State.channel, State.comp, State.product, State.inReset, State.latch]

@[simp] theorem State.retry_frame (k : FaultKind) :
    (s.retry k).channels = s.channels ∧ (s.retry k).couplers = s.couplers ∧ (s.retry k).roster = s.roster ∧ (s.retry
      k).accounts = s.accounts ∧ (s.retry k).products = s.products ∧ (s.retry k).prices = s.prices ∧ (s.retry
      k).limits = s.limits ∧ (s.retry k).times = s.times ∧ (s.retry k).stock = s.stock ∧ (s.retry k).probes = s.probes
      ∧ (s.retry k).stockSettle = s.stockSettle ∧ (s.retry k).loader = s.loader ∧ (s.retry k).journal = s.journal ∧
      (s.retry k).clock = s.clock ∧ (s.retry k).roles = s.roles ∧ (s.retry k).watch = s.watch ∧ (s.retry k).power =
      s.power ∧ (s.retry k).choices = s.choices ∧ (s.retry k).pending = s.pending ∧ (∀ i, (s.retry k).channel i =
      s.channel i) ∧ (∀ i, (s.retry k).coupler i = s.coupler i) ∧ (∀ i, (s.retry k).product i = s.product i) ∧ (∀ i,
      (s.retry k).comp i = s.comp i) ∧ (s.retry k).inReset = s.inReset := by
  simp [State.coupler, State.channel, State.comp, State.product, State.inReset, State.retry]

@[simp] theorem State.report_frame (k : FaultKind) :
    (s.report k).channels = s.channels ∧ (s.report k).couplers = s.couplers ∧ (s.report k).roster = s.roster ∧
      (s.report k).accounts = s.accounts ∧ (s.report k).products = s.products ∧ (s.report k).prices = s.prices ∧
      (s.report k).limits = s.limits ∧ (s.report k).points = s.points ∧ (s.report k).times = s.times ∧ (s.report
      k).arbiter = s.arbiter ∧ (s.report k).stock = s.stock ∧ (s.report k).probes = s.probes ∧ (s.report
      k).stockSettle = s.stockSettle ∧ (s.report k).loader = s.loader ∧ (s.report k).journal = s.journal ∧ (s.report
      k).clock = s.clock ∧ (s.report k).roles = s.roles ∧ (s.report k).watch = s.watch ∧ (s.report k).power = s.power
      ∧ (s.report k).choices = s.choices ∧ (s.report k).pending = s.pending ∧ (∀ i, (s.report k).channel i = s.channel
      i) ∧ (∀ i, (s.report k).coupler i = s.coupler i) ∧ (∀ i, (s.report k).product i = s.product i) ∧ (∀ i, (s.report
      k).point i = s.point i) ∧ (∀ i, (s.report k).comp i = s.comp i) ∧ (s.report k).inReset = s.inReset := by
  unfold State.report; repeat' split
  all_goals simp [State.point, State.coupler, State.channel, State.comp, State.product, State.inReset]

@[simp] theorem State.act_frame (k : FaultKind) :
    (s.act k).channels = s.channels ∧ (s.act k).couplers = s.couplers ∧ (s.act k).roster = s.roster ∧ (s.act
      k).accounts = s.accounts ∧ (s.act k).products = s.products ∧ (s.act k).prices = s.prices ∧ (s.act k).limits =
      s.limits ∧ (s.act k).times = s.times ∧ (s.act k).stock = s.stock ∧ (s.act k).probes = s.probes ∧ (s.act
      k).stockSettle = s.stockSettle ∧ (s.act k).loader = s.loader ∧ (s.act k).journal = s.journal ∧ (s.act k).clock =
      s.clock ∧ (s.act k).roles = s.roles ∧ (s.act k).watch = s.watch ∧ (s.act k).power = s.power ∧ (s.act k).choices
      = s.choices ∧ (s.act k).pending = s.pending ∧ (∀ i, (s.act k).channel i = s.channel i) ∧ (∀ i, (s.act k).coupler
      i = s.coupler i) ∧ (∀ i, (s.act k).product i = s.product i) ∧ (∀ i, (s.act k).comp i = s.comp i) ∧ (s.act
      k).inReset = s.inReset := by
  unfold State.act; repeat' split
  all_goals simp [State.coupler, State.channel, State.comp, State.product, State.inReset]

@[simp] theorem State.releasePump_frame :
    s.releasePump.channels = s.channels ∧ s.releasePump.couplers = s.couplers ∧ s.releasePump.roster = s.roster ∧
      s.releasePump.accounts = s.accounts ∧ s.releasePump.products = s.products ∧ s.releasePump.prices = s.prices ∧
      s.releasePump.limits = s.limits ∧ s.releasePump.times = s.times ∧ s.releasePump.arbiter = s.arbiter ∧
      s.releasePump.stock = s.stock ∧ s.releasePump.probes = s.probes ∧ s.releasePump.stockSettle = s.stockSettle ∧
      s.releasePump.loader = s.loader ∧ s.releasePump.journal = s.journal ∧ s.releasePump.clock = s.clock ∧
      s.releasePump.ports = s.ports ∧ s.releasePump.roles = s.roles ∧ s.releasePump.watch = s.watch ∧
      s.releasePump.power = s.power ∧ s.releasePump.choices = s.choices ∧ s.releasePump.pending = s.pending ∧ (∀ i,
      s.releasePump.channel i = s.channel i) ∧ (∀ i, s.releasePump.coupler i = s.coupler i) ∧ (∀ i,
      s.releasePump.product i = s.product i) ∧ (∀ i, s.releasePump.comp i = s.comp i) ∧ (∀ i, s.releasePump.port i =
      s.port i) ∧ s.releasePump.inReset = s.inReset := by
  simp [State.coupler, State.channel, State.comp, State.port, State.product, State.inReset, State.releasePump]

@[simp] theorem State.switchTo_frame (p : PointId) (d : CompId) (v : Nat) :
    (s.switchTo p d v).channels = s.channels ∧ (s.switchTo p d v).couplers = s.couplers ∧ (s.switchTo p d v).roster
      = s.roster ∧ (s.switchTo p d v).accounts = s.accounts ∧ (s.switchTo p d v).products = s.products ∧ (s.switchTo p
      d v).prices = s.prices ∧ (s.switchTo p d v).limits = s.limits ∧ (s.switchTo p d v).times = s.times ∧ (s.switchTo
      p d v).pump = s.pump ∧ (s.switchTo p d v).probes = s.probes ∧ (s.switchTo p d v).stockSettle = s.stockSettle ∧
      (s.switchTo p d v).loader = s.loader ∧ (s.switchTo p d v).journal = s.journal ∧ (s.switchTo p d v).clock =
      s.clock ∧ (s.switchTo p d v).roles = s.roles ∧ (s.switchTo p d v).watch = s.watch ∧ (s.switchTo p d v).power =
      s.power ∧ (s.switchTo p d v).choices = s.choices ∧ (s.switchTo p d v).pending = s.pending ∧ (∀ i, (s.switchTo p
      d v).channel i = s.channel i) ∧ (∀ i, (s.switchTo p d v).coupler i = s.coupler i) ∧ (∀ i, (s.switchTo p d
      v).product i = s.product i) ∧ (s.switchTo p d v).inReset = s.inReset := by
  unfold State.switchTo; dsimp only; repeat' split
  all_goals simp [State.coupler, State.channel, State.product, State.inReset]

@[simp] theorem State.switchOrEnd_frame (c : CompId) (p : PointId) :
    (s.switchOrEnd c p).channels = s.channels ∧ (s.switchOrEnd c p).products = s.products ∧ (s.switchOrEnd c
      p).prices = s.prices ∧ (s.switchOrEnd c p).limits = s.limits ∧ (s.switchOrEnd c p).times = s.times ∧
      (s.switchOrEnd c p).pump = s.pump ∧ (s.switchOrEnd c p).probes = s.probes ∧ (s.switchOrEnd c p).stockSettle =
      s.stockSettle ∧ (s.switchOrEnd c p).loader = s.loader ∧ (s.switchOrEnd c p).journal = s.journal ∧ (s.switchOrEnd
      c p).clock = s.clock ∧ (s.switchOrEnd c p).roles = s.roles ∧ (s.switchOrEnd c p).watch = s.watch ∧
      (s.switchOrEnd c p).power = s.power ∧ (s.switchOrEnd c p).choices = s.choices ∧ (s.switchOrEnd c p).pending =
      s.pending ∧ (∀ i, (s.switchOrEnd c p).channel i = s.channel i) ∧ (∀ i, (s.switchOrEnd c p).product i = s.product
      i) ∧ (s.switchOrEnd c p).inReset = s.inReset := by
  unfold State.switchOrEnd; dsimp only; repeat' split
  all_goals simp [State.channel, State.product, State.inReset]

@[simp] theorem State.switchIf_frame (c : CompId) (p : PointId) :
    (s.switchIf c p).channels = s.channels ∧ (s.switchIf c p).products = s.products ∧ (s.switchIf c p).prices =
      s.prices ∧ (s.switchIf c p).limits = s.limits ∧ (s.switchIf c p).times = s.times ∧ (s.switchIf c p).pump =
      s.pump ∧ (s.switchIf c p).probes = s.probes ∧ (s.switchIf c p).stockSettle = s.stockSettle ∧ (s.switchIf c
      p).loader = s.loader ∧ (s.switchIf c p).journal = s.journal ∧ (s.switchIf c p).clock = s.clock ∧ (s.switchIf c
      p).roles = s.roles ∧ (s.switchIf c p).watch = s.watch ∧ (s.switchIf c p).power = s.power ∧ (s.switchIf c
      p).choices = s.choices ∧ (s.switchIf c p).pending = s.pending ∧ (∀ i, (s.switchIf c p).channel i = s.channel i)
      ∧ (∀ i, (s.switchIf c p).product i = s.product i) ∧ (s.switchIf c p).inReset = s.inReset := by
  unfold State.switchIf; repeat' split
  all_goals simp [State.channel, State.product, State.inReset]

@[simp] theorem State.suspendIf_frame (c : CompId) (p : PointId) :
    (s.suspendIf c p).channels = s.channels ∧ (s.suspendIf c p).couplers = s.couplers ∧ (s.suspendIf c p).roster =
      s.roster ∧ (s.suspendIf c p).accounts = s.accounts ∧ (s.suspendIf c p).products = s.products ∧ (s.suspendIf c
      p).prices = s.prices ∧ (s.suspendIf c p).limits = s.limits ∧ (s.suspendIf c p).times = s.times ∧ (s.suspendIf c
      p).pump = s.pump ∧ (s.suspendIf c p).stock = s.stock ∧ (s.suspendIf c p).probes = s.probes ∧ (s.suspendIf c
      p).stockSettle = s.stockSettle ∧ (s.suspendIf c p).loader = s.loader ∧ (s.suspendIf c p).journal = s.journal ∧
      (s.suspendIf c p).clock = s.clock ∧ (s.suspendIf c p).ports = s.ports ∧ (s.suspendIf c p).roles = s.roles ∧
      (s.suspendIf c p).watch = s.watch ∧ (s.suspendIf c p).power = s.power ∧ (s.suspendIf c p).choices = s.choices ∧
      (s.suspendIf c p).pending = s.pending ∧ (∀ i, (s.suspendIf c p).channel i = s.channel i) ∧ (∀ i, (s.suspendIf c
      p).coupler i = s.coupler i) ∧ (∀ i, (s.suspendIf c p).product i = s.product i) ∧ (∀ i, (s.suspendIf c p).comp i
      = s.comp i) ∧ (∀ i, (s.suspendIf c p).port i = s.port i) ∧ (s.suspendIf c p).inReset = s.inReset := by
  unfold State.suspendIf; repeat' split
  all_goals simp [State.coupler, State.channel, State.comp, State.port, State.product, State.inReset]

@[simp] theorem State.loseSuction_frame (c : CompId) :
    (s.loseSuction c).channels = s.channels ∧ (s.loseSuction c).products = s.products ∧ (s.loseSuction c).prices =
      s.prices ∧ (s.loseSuction c).limits = s.limits ∧ (s.loseSuction c).times = s.times ∧ (s.loseSuction c).pump =
      s.pump ∧ (s.loseSuction c).probes = s.probes ∧ (s.loseSuction c).stockSettle = s.stockSettle ∧ (s.loseSuction
      c).loader = s.loader ∧ (s.loseSuction c).journal = s.journal ∧ (s.loseSuction c).clock = s.clock ∧
      (s.loseSuction c).roles = s.roles ∧ (s.loseSuction c).watch = s.watch ∧ (s.loseSuction c).power = s.power ∧
      (s.loseSuction c).pending = s.pending ∧ (∀ i, (s.loseSuction c).channel i = s.channel i) ∧ (∀ i, (s.loseSuction
      c).product i = s.product i) ∧ (s.loseSuction c).inReset = s.inReset := by
  unfold State.loseSuction; dsimp only; repeat' split
  all_goals simp [State.channel, State.product, State.inReset]

@[simp] theorem State.markSuctionLost_frame (c : CompId) :
    (s.markSuctionLost c).channels = s.channels ∧ (s.markSuctionLost c).couplers = s.couplers ∧ (s.markSuctionLost
      c).roster = s.roster ∧ (s.markSuctionLost c).accounts = s.accounts ∧ (s.markSuctionLost c).products = s.products
      ∧ (s.markSuctionLost c).prices = s.prices ∧ (s.markSuctionLost c).limits = s.limits ∧ (s.markSuctionLost
      c).points = s.points ∧ (s.markSuctionLost c).times = s.times ∧ (s.markSuctionLost c).arbiter = s.arbiter ∧
      (s.markSuctionLost c).pump = s.pump ∧ (s.markSuctionLost c).probes = s.probes ∧ (s.markSuctionLost
      c).stockSettle = s.stockSettle ∧ (s.markSuctionLost c).loader = s.loader ∧ (s.markSuctionLost c).journal =
      s.journal ∧ (s.markSuctionLost c).clock = s.clock ∧ (s.markSuctionLost c).roles = s.roles ∧ (s.markSuctionLost
      c).watch = s.watch ∧ (s.markSuctionLost c).power = s.power ∧ (s.markSuctionLost c).choices = s.choices ∧
      (s.markSuctionLost c).pending = s.pending ∧ (∀ i, (s.markSuctionLost c).channel i = s.channel i) ∧ (∀ i,
      (s.markSuctionLost c).coupler i = s.coupler i) ∧ (∀ i, (s.markSuctionLost c).product i = s.product i) ∧ (∀ i,
      (s.markSuctionLost c).point i = s.point i) ∧ (s.markSuctionLost c).inReset = s.inReset := by
  unfold State.markSuctionLost; repeat' split
  all_goals simp [State.point, State.coupler, State.channel, State.product, State.inReset]

@[simp] theorem State.markEmpty_frame (c : CompId) :
    (s.markEmpty c).channels = s.channels ∧ (s.markEmpty c).couplers = s.couplers ∧ (s.markEmpty c).roster =
      s.roster ∧ (s.markEmpty c).accounts = s.accounts ∧ (s.markEmpty c).products = s.products ∧ (s.markEmpty
      c).prices = s.prices ∧ (s.markEmpty c).limits = s.limits ∧ (s.markEmpty c).points = s.points ∧ (s.markEmpty
      c).times = s.times ∧ (s.markEmpty c).arbiter = s.arbiter ∧ (s.markEmpty c).pump = s.pump ∧ (s.markEmpty
      c).probes = s.probes ∧ (s.markEmpty c).stockSettle = s.stockSettle ∧ (s.markEmpty c).loader = s.loader ∧
      (s.markEmpty c).journal = s.journal ∧ (s.markEmpty c).clock = s.clock ∧ (s.markEmpty c).roles = s.roles ∧
      (s.markEmpty c).watch = s.watch ∧ (s.markEmpty c).power = s.power ∧ (s.markEmpty c).choices = s.choices ∧
      (s.markEmpty c).pending = s.pending ∧ (∀ i, (s.markEmpty c).channel i = s.channel i) ∧ (∀ i, (s.markEmpty
      c).coupler i = s.coupler i) ∧ (∀ i, (s.markEmpty c).product i = s.product i) ∧ (∀ i, (s.markEmpty c).point i =
      s.point i) ∧ (s.markEmpty c).inReset = s.inReset := by
  unfold State.markEmpty; repeat' split
  all_goals simp [State.point, State.coupler, State.channel, State.product, State.inReset]

@[simp] theorem State.dryRun_frame (c : CompId) :
    (s.dryRun c).channels = s.channels ∧ (s.dryRun c).products = s.products ∧ (s.dryRun c).prices = s.prices ∧
      (s.dryRun c).limits = s.limits ∧ (s.dryRun c).times = s.times ∧ (s.dryRun c).pump = s.pump ∧ (s.dryRun c).probes
      = s.probes ∧ (s.dryRun c).stockSettle = s.stockSettle ∧ (s.dryRun c).loader = s.loader ∧ (s.dryRun c).journal =
      s.journal ∧ (s.dryRun c).clock = s.clock ∧ (s.dryRun c).roles = s.roles ∧ (s.dryRun c).watch = s.watch ∧
      (s.dryRun c).power = s.power ∧ (s.dryRun c).pending = s.pending ∧ (∀ i, (s.dryRun c).channel i = s.channel i) ∧
      (∀ i, (s.dryRun c).product i = s.product i) ∧ (s.dryRun c).inReset = s.inReset := by
  unfold State.dryRun; dsimp only; repeat' split
  all_goals simp [State.channel, State.product, State.inReset]

@[simp] theorem State.detect_frame (k : FaultKind) :
    (s.detect k).channels = s.channels ∧ (s.detect k).products = s.products ∧ (s.detect k).prices = s.prices ∧
      (s.detect k).limits = s.limits ∧ (s.detect k).times = s.times ∧ (s.detect k).probes = s.probes ∧ (s.detect
      k).stockSettle = s.stockSettle ∧ (s.detect k).loader = s.loader ∧ (s.detect k).journal = s.journal ∧ (s.detect
      k).clock = s.clock ∧ (s.detect k).roles = s.roles ∧ (s.detect k).watch = s.watch ∧ (s.detect k).power = s.power
      ∧ (s.detect k).pending = s.pending ∧ (∀ i, (s.detect k).channel i = s.channel i) ∧ (∀ i, (s.detect k).product i
      = s.product i) ∧ (s.detect k).inReset = s.inReset := by
  unfold State.detect; dsimp only; split <;> simp [State.channel, State.product, State.inReset]

@[simp] theorem State.takeOver_frame (x : PriceTable) (k : TakeOver) :
    (s.takeOver x k).channels = s.channels ∧ (s.takeOver x k).couplers = s.couplers ∧ (s.takeOver x k).roster =
      s.roster ∧ (s.takeOver x k).accounts = s.accounts ∧ (s.takeOver x k).products = s.products ∧ (s.takeOver x
      k).limits = s.limits ∧ (s.takeOver x k).points = s.points ∧ (s.takeOver x k).times = s.times ∧ (s.takeOver x
      k).arbiter = s.arbiter ∧ (s.takeOver x k).pump = s.pump ∧ (s.takeOver x k).stock = s.stock ∧ (s.takeOver x
      k).probes = s.probes ∧ (s.takeOver x k).stockSettle = s.stockSettle ∧ (s.takeOver x k).loader = s.loader ∧
      (s.takeOver x k).clock = s.clock ∧ (s.takeOver x k).roles = s.roles ∧ (s.takeOver x k).watch = s.watch ∧
      (s.takeOver x k).power = s.power ∧ (s.takeOver x k).choices = s.choices ∧ (s.takeOver x k).pending = s.pending ∧
      (∀ i, (s.takeOver x k).channel i = s.channel i) ∧ (∀ i, (s.takeOver x k).coupler i = s.coupler i) ∧ (∀ i,
      (s.takeOver x k).product i = s.product i) ∧ (∀ i, (s.takeOver x k).point i = s.point i) ∧ (∀ i, (s.takeOver x
      k).comp i = s.comp i) ∧ (s.takeOver x k).inReset = s.inReset := by
  simp [State.point, State.coupler, State.channel, State.comp, State.product, State.inReset, State.takeOver]

@[simp] theorem State.closeTally_frame (p n : ShiftId) :
    (s.closeTally p n).channels = s.channels ∧ (s.closeTally p n).couplers = s.couplers ∧ (s.closeTally p n).roster
      = s.roster ∧ (s.closeTally p n).accounts = s.accounts ∧ (s.closeTally p n).products = s.products ∧ (s.closeTally
      p n).prices = s.prices ∧ (s.closeTally p n).limits = s.limits ∧ (s.closeTally p n).points = s.points ∧
      (s.closeTally p n).times = s.times ∧ (s.closeTally p n).arbiter = s.arbiter ∧ (s.closeTally p n).pump = s.pump ∧
      (s.closeTally p n).stock = s.stock ∧ (s.closeTally p n).probes = s.probes ∧ (s.closeTally p n).stockSettle =
      s.stockSettle ∧ (s.closeTally p n).loader = s.loader ∧ (s.closeTally p n).clock = s.clock ∧ (s.closeTally p
      n).roles = s.roles ∧ (s.closeTally p n).watch = s.watch ∧ (s.closeTally p n).power = s.power ∧ (s.closeTally p
      n).choices = s.choices ∧ (s.closeTally p n).pending = s.pending ∧ (∀ i, (s.closeTally p n).channel i = s.channel
      i) ∧ (∀ i, (s.closeTally p n).coupler i = s.coupler i) ∧ (∀ i, (s.closeTally p n).product i = s.product i) ∧ (∀
      i, (s.closeTally p n).point i = s.point i) ∧ (∀ i, (s.closeTally p n).comp i = s.comp i) ∧ (s.closeTally p
      n).inReset = s.inReset := by
  unfold State.closeTally; dsimp only; repeat' split
  all_goals simp [State.point, State.coupler, State.channel, State.comp, State.product, State.inReset]

@[simp] theorem State.shiftPrices_frame :
    s.shiftPrices.channels = s.channels ∧ s.shiftPrices.couplers = s.couplers ∧ s.shiftPrices.roster = s.roster ∧
      s.shiftPrices.accounts = s.accounts ∧ s.shiftPrices.products = s.products ∧ s.shiftPrices.limits = s.limits ∧
      s.shiftPrices.points = s.points ∧ s.shiftPrices.times = s.times ∧ s.shiftPrices.arbiter = s.arbiter ∧
      s.shiftPrices.pump = s.pump ∧ s.shiftPrices.stock = s.stock ∧ s.shiftPrices.probes = s.probes ∧
      s.shiftPrices.stockSettle = s.stockSettle ∧ s.shiftPrices.loader = s.loader ∧ s.shiftPrices.clock = s.clock ∧
      s.shiftPrices.roles = s.roles ∧ s.shiftPrices.watch = s.watch ∧ s.shiftPrices.power = s.power ∧
      s.shiftPrices.choices = s.choices ∧ s.shiftPrices.pending = s.pending ∧ (∀ i, s.shiftPrices.channel i =
      s.channel i) ∧ (∀ i, s.shiftPrices.coupler i = s.coupler i) ∧ (∀ i, s.shiftPrices.product i = s.product i) ∧ (∀
      i, s.shiftPrices.point i = s.point i) ∧ (∀ i, s.shiftPrices.comp i = s.comp i) ∧ s.shiftPrices.inReset =
      s.inReset := by
  unfold State.shiftPrices; repeat' split
  all_goals simp [State.point, State.coupler, State.channel, State.comp, State.product, State.inReset]

@[simp] theorem State.rollover_frame (n : ShiftId) :
    (s.rollover n).channels = s.channels ∧ (s.rollover n).couplers = s.couplers ∧ (s.rollover n).accounts =
      s.accounts ∧ (s.rollover n).products = s.products ∧ (s.rollover n).limits = s.limits ∧ (s.rollover n).points =
      s.points ∧ (s.rollover n).times = s.times ∧ (s.rollover n).arbiter = s.arbiter ∧ (s.rollover n).pump = s.pump ∧
      (s.rollover n).probes = s.probes ∧ (s.rollover n).stockSettle = s.stockSettle ∧ (s.rollover n).loader = s.loader
      ∧ (s.rollover n).roles = s.roles ∧ (s.rollover n).watch = s.watch ∧ (s.rollover n).power = s.power ∧ (s.rollover
      n).choices = s.choices ∧ (s.rollover n).pending = s.pending ∧ (∀ i, (s.rollover n).channel i = s.channel i) ∧ (∀
      i, (s.rollover n).coupler i = s.coupler i) ∧ (∀ i, (s.rollover n).product i = s.product i) ∧ (∀ i, (s.rollover
      n).point i = s.point i) ∧ (s.rollover n).inReset = s.inReset := by
  simp [State.point, State.coupler, State.channel, State.product, State.inReset, State.rollover]

@[simp] theorem State.evaluateShift_frame :
    s.evaluateShift.channels = s.channels ∧ s.evaluateShift.couplers = s.couplers ∧ s.evaluateShift.accounts =
      s.accounts ∧ s.evaluateShift.products = s.products ∧ s.evaluateShift.limits = s.limits ∧ s.evaluateShift.points
      = s.points ∧ s.evaluateShift.times = s.times ∧ s.evaluateShift.arbiter = s.arbiter ∧ s.evaluateShift.pump =
      s.pump ∧ s.evaluateShift.probes = s.probes ∧ s.evaluateShift.stockSettle = s.stockSettle ∧
      s.evaluateShift.loader = s.loader ∧ s.evaluateShift.roles = s.roles ∧ s.evaluateShift.watch = s.watch ∧
      s.evaluateShift.power = s.power ∧ s.evaluateShift.choices = s.choices ∧ s.evaluateShift.pending = s.pending ∧ (∀
      i, s.evaluateShift.channel i = s.channel i) ∧ (∀ i, s.evaluateShift.coupler i = s.coupler i) ∧ (∀ i,
      s.evaluateShift.product i = s.product i) ∧ (∀ i, s.evaluateShift.point i = s.point i) ∧ s.evaluateShift.inReset
      = s.inReset := by
  unfold State.evaluateShift; repeat' split
  all_goals simp [State.point, State.coupler, State.channel, State.product, State.inReset]

@[simp] theorem State.loseClock_frame :
    s.loseClock.channels = s.channels ∧ s.loseClock.couplers = s.couplers ∧ s.loseClock.roster = s.roster ∧
      s.loseClock.accounts = s.accounts ∧ s.loseClock.products = s.products ∧ s.loseClock.prices = s.prices ∧
      s.loseClock.limits = s.limits ∧ s.loseClock.points = s.points ∧ s.loseClock.times = s.times ∧
      s.loseClock.arbiter = s.arbiter ∧ s.loseClock.pump = s.pump ∧ s.loseClock.stock = s.stock ∧ s.loseClock.probes =
      s.probes ∧ s.loseClock.stockSettle = s.stockSettle ∧ s.loseClock.loader = s.loader ∧ s.loseClock.journal =
      s.journal ∧ s.loseClock.roles = s.roles ∧ s.loseClock.watch = s.watch ∧ s.loseClock.power = s.power ∧
      s.loseClock.choices = s.choices ∧ s.loseClock.pending = s.pending ∧ (∀ i, s.loseClock.channel i = s.channel i) ∧
      (∀ i, s.loseClock.coupler i = s.coupler i) ∧ (∀ i, s.loseClock.product i = s.product i) ∧ (∀ i,
      s.loseClock.point i = s.point i) ∧ (∀ i, s.loseClock.comp i = s.comp i) ∧ s.loseClock.inReset = s.inReset := by
  simp [State.point, State.coupler, State.channel, State.comp, State.product, State.inReset, State.loseClock]

@[simp] theorem State.passMinute_frame :
    s.passMinute.channels = s.channels ∧ s.passMinute.couplers = s.couplers ∧ s.passMinute.roster = s.roster ∧
      s.passMinute.accounts = s.accounts ∧ s.passMinute.products = s.products ∧ s.passMinute.prices = s.prices ∧
      s.passMinute.limits = s.limits ∧ s.passMinute.points = s.points ∧ s.passMinute.times = s.times ∧
      s.passMinute.arbiter = s.arbiter ∧ s.passMinute.pump = s.pump ∧ s.passMinute.stock = s.stock ∧
      s.passMinute.probes = s.probes ∧ s.passMinute.stockSettle = s.stockSettle ∧ s.passMinute.loader = s.loader ∧
      s.passMinute.journal = s.journal ∧ s.passMinute.roles = s.roles ∧ s.passMinute.watch = s.watch ∧
      s.passMinute.power = s.power ∧ s.passMinute.choices = s.choices ∧ s.passMinute.pending = s.pending ∧ (∀ i,
      s.passMinute.channel i = s.channel i) ∧ (∀ i, s.passMinute.coupler i = s.coupler i) ∧ (∀ i, s.passMinute.product
      i = s.product i) ∧ (∀ i, s.passMinute.point i = s.point i) ∧ (∀ i, s.passMinute.comp i = s.comp i) ∧
      s.passMinute.inReset = s.inReset := by
  unfold State.passMinute; dsimp only; repeat' split
  all_goals simp [State.point, State.coupler, State.channel, State.comp, State.product, State.inReset]

@[simp] theorem State.moveRole_frame (o : PortId) :
    (s.moveRole o).channels = s.channels ∧ (s.moveRole o).couplers = s.couplers ∧ (s.moveRole o).roster = s.roster ∧
      (s.moveRole o).accounts = s.accounts ∧ (s.moveRole o).products = s.products ∧ (s.moveRole o).prices = s.prices ∧
      (s.moveRole o).limits = s.limits ∧ (s.moveRole o).points = s.points ∧ (s.moveRole o).times = s.times ∧
      (s.moveRole o).arbiter = s.arbiter ∧ (s.moveRole o).pump = s.pump ∧ (s.moveRole o).stock = s.stock ∧ (s.moveRole
      o).probes = s.probes ∧ (s.moveRole o).stockSettle = s.stockSettle ∧ (s.moveRole o).loader = s.loader ∧
      (s.moveRole o).journal = s.journal ∧ (s.moveRole o).clock = s.clock ∧ (s.moveRole o).watch = s.watch ∧
      (s.moveRole o).power = s.power ∧ (s.moveRole o).choices = s.choices ∧ (s.moveRole o).pending = s.pending ∧ (∀ i,
      (s.moveRole o).channel i = s.channel i) ∧ (∀ i, (s.moveRole o).coupler i = s.coupler i) ∧ (∀ i, (s.moveRole
      o).product i = s.product i) ∧ (∀ i, (s.moveRole o).point i = s.point i) ∧ (∀ i, (s.moveRole o).comp i = s.comp
      i) ∧ (s.moveRole o).inReset = s.inReset := by
  unfold State.moveRole; dsimp only; repeat' split
  all_goals simp [State.point, State.coupler, State.channel, State.comp, State.product, State.inReset]

@[simp] theorem State.settleLoad_frame (e : Entry) (x : LoadContext) (k : EndCause) :
    (s.settleLoad e x k).channels = s.channels ∧ (s.settleLoad e x k).couplers = s.couplers ∧ (s.settleLoad e x
      k).roster = s.roster ∧ (s.settleLoad e x k).accounts = s.accounts ∧ (s.settleLoad e x k).products = s.products ∧
      (s.settleLoad e x k).prices = s.prices ∧ (s.settleLoad e x k).limits = s.limits ∧ (s.settleLoad e x k).points =
      s.points ∧ (s.settleLoad e x k).times = s.times ∧ (s.settleLoad e x k).arbiter = s.arbiter ∧ (s.settleLoad e x
      k).pump = s.pump ∧ (s.settleLoad e x k).stock = s.stock ∧ (s.settleLoad e x k).probes = s.probes ∧ (s.settleLoad
      e x k).stockSettle = s.stockSettle ∧ (s.settleLoad e x k).journal = s.journal ∧ (s.settleLoad e x k).clock =
      s.clock ∧ (s.settleLoad e x k).ports = s.ports ∧ (s.settleLoad e x k).roles = s.roles ∧ (s.settleLoad e x
      k).watch = s.watch ∧ (s.settleLoad e x k).power = s.power ∧ (s.settleLoad e x k).choices = s.choices ∧
      (s.settleLoad e x k).pending = s.pending ∧ (∀ i, (s.settleLoad e x k).channel i = s.channel i) ∧ (∀ i,
      (s.settleLoad e x k).coupler i = s.coupler i) ∧ (∀ i, (s.settleLoad e x k).product i = s.product i) ∧ (∀ i,
      (s.settleLoad e x k).point i = s.point i) ∧ (∀ i, (s.settleLoad e x k).comp i = s.comp i) ∧ (∀ i, (s.settleLoad
      e x k).port i = s.port i) ∧ (s.settleLoad e x k).inReset = s.inReset := by
  simp [State.point, State.coupler, State.channel, State.comp, State.port, State.product, State.inReset, State.settleLoad]

@[simp] theorem State.stopLoading_frame (k : EndCause) :
    (s.stopLoading k).channels = s.channels ∧ (s.stopLoading k).couplers = s.couplers ∧ (s.stopLoading k).roster =
      s.roster ∧ (s.stopLoading k).accounts = s.accounts ∧ (s.stopLoading k).products = s.products ∧ (s.stopLoading
      k).prices = s.prices ∧ (s.stopLoading k).limits = s.limits ∧ (s.stopLoading k).points = s.points ∧
      (s.stopLoading k).times = s.times ∧ (s.stopLoading k).arbiter = s.arbiter ∧ (s.stopLoading k).pump = s.pump ∧
      (s.stopLoading k).stock = s.stock ∧ (s.stopLoading k).probes = s.probes ∧ (s.stopLoading k).stockSettle =
      s.stockSettle ∧ (s.stopLoading k).journal = s.journal ∧ (s.stopLoading k).clock = s.clock ∧ (s.stopLoading
      k).ports = s.ports ∧ (s.stopLoading k).roles = s.roles ∧ (s.stopLoading k).watch = s.watch ∧ (s.stopLoading
      k).power = s.power ∧ (s.stopLoading k).choices = s.choices ∧ (s.stopLoading k).pending = s.pending ∧ (∀ i,
      (s.stopLoading k).channel i = s.channel i) ∧ (∀ i, (s.stopLoading k).coupler i = s.coupler i) ∧ (∀ i,
      (s.stopLoading k).product i = s.product i) ∧ (∀ i, (s.stopLoading k).point i = s.point i) ∧ (∀ i, (s.stopLoading
      k).comp i = s.comp i) ∧ (∀ i, (s.stopLoading k).port i = s.port i) ∧ (s.stopLoading k).inReset = s.inReset := by
  unfold State.stopLoading; repeat' split
  all_goals simp [State.point, State.coupler, State.channel, State.comp, State.port, State.product, State.inReset]

@[simp] theorem State.loadWindow_frame :
    s.loadWindow.channels = s.channels ∧ s.loadWindow.couplers = s.couplers ∧ s.loadWindow.roster = s.roster ∧
      s.loadWindow.accounts = s.accounts ∧ s.loadWindow.products = s.products ∧ s.loadWindow.prices = s.prices ∧
      s.loadWindow.limits = s.limits ∧ s.loadWindow.points = s.points ∧ s.loadWindow.times = s.times ∧
      s.loadWindow.arbiter = s.arbiter ∧ s.loadWindow.pump = s.pump ∧ s.loadWindow.stock = s.stock ∧
      s.loadWindow.probes = s.probes ∧ s.loadWindow.stockSettle = s.stockSettle ∧ s.loadWindow.journal = s.journal ∧
      s.loadWindow.clock = s.clock ∧ s.loadWindow.ports = s.ports ∧ s.loadWindow.roles = s.roles ∧ s.loadWindow.watch
      = s.watch ∧ s.loadWindow.power = s.power ∧ s.loadWindow.choices = s.choices ∧ s.loadWindow.pending = s.pending ∧
      (∀ i, s.loadWindow.channel i = s.channel i) ∧ (∀ i, s.loadWindow.coupler i = s.coupler i) ∧ (∀ i,
      s.loadWindow.product i = s.product i) ∧ (∀ i, s.loadWindow.point i = s.point i) ∧ (∀ i, s.loadWindow.comp i =
      s.comp i) ∧ (∀ i, s.loadWindow.port i = s.port i) ∧ s.loadWindow.inReset = s.inReset := by
  unfold State.loadWindow; repeat' split
  all_goals simp [State.point, State.coupler, State.channel, State.comp, State.port, State.product, State.inReset]

@[simp] theorem State.clearStageEmpty_frame :
    s.clearStageEmpty.channels = s.channels ∧ s.clearStageEmpty.couplers = s.couplers ∧ s.clearStageEmpty.roster =
      s.roster ∧ s.clearStageEmpty.accounts = s.accounts ∧ s.clearStageEmpty.products = s.products ∧
      s.clearStageEmpty.prices = s.prices ∧ s.clearStageEmpty.limits = s.limits ∧ s.clearStageEmpty.points = s.points
      ∧ s.clearStageEmpty.times = s.times ∧ s.clearStageEmpty.arbiter = s.arbiter ∧ s.clearStageEmpty.pump = s.pump ∧
      s.clearStageEmpty.stock = s.stock ∧ s.clearStageEmpty.probes = s.probes ∧ s.clearStageEmpty.stockSettle =
      s.stockSettle ∧ s.clearStageEmpty.journal = s.journal ∧ s.clearStageEmpty.clock = s.clock ∧
      s.clearStageEmpty.roles = s.roles ∧ s.clearStageEmpty.watch = s.watch ∧ s.clearStageEmpty.power = s.power ∧
      s.clearStageEmpty.choices = s.choices ∧ s.clearStageEmpty.pending = s.pending ∧ (∀ i, s.clearStageEmpty.channel
      i = s.channel i) ∧ (∀ i, s.clearStageEmpty.coupler i = s.coupler i) ∧ (∀ i, s.clearStageEmpty.product i =
      s.product i) ∧ (∀ i, s.clearStageEmpty.point i = s.point i) ∧ (∀ i, s.clearStageEmpty.comp i = s.comp i) ∧
      s.clearStageEmpty.inReset = s.inReset := by
  unfold State.clearStageEmpty; repeat' split
  all_goals simp [State.point, State.coupler, State.channel, State.comp, State.product, State.inReset]

@[simp] theorem State.closePlan_frame :
    s.closePlan.channels = s.channels ∧ s.closePlan.couplers = s.couplers ∧ s.closePlan.roster = s.roster ∧
      s.closePlan.accounts = s.accounts ∧ s.closePlan.products = s.products ∧ s.closePlan.prices = s.prices ∧
      s.closePlan.limits = s.limits ∧ s.closePlan.points = s.points ∧ s.closePlan.times = s.times ∧
      s.closePlan.arbiter = s.arbiter ∧ s.closePlan.pump = s.pump ∧ s.closePlan.stock = s.stock ∧ s.closePlan.probes =
      s.probes ∧ s.closePlan.stockSettle = s.stockSettle ∧ s.closePlan.journal = s.journal ∧ s.closePlan.clock =
      s.clock ∧ s.closePlan.roles = s.roles ∧ s.closePlan.watch = s.watch ∧ s.closePlan.power = s.power ∧
      s.closePlan.choices = s.choices ∧ s.closePlan.pending = s.pending ∧ (∀ i, s.closePlan.channel i = s.channel i) ∧
      (∀ i, s.closePlan.coupler i = s.coupler i) ∧ (∀ i, s.closePlan.product i = s.product i) ∧ (∀ i,
      s.closePlan.point i = s.point i) ∧ (∀ i, s.closePlan.comp i = s.comp i) ∧ s.closePlan.inReset = s.inReset := by
  simp [State.point, State.coupler, State.channel, State.comp, State.product, State.inReset, State.closePlan]

@[simp] theorem State.afterEntry_frame :
    s.afterEntry.channels = s.channels ∧ s.afterEntry.couplers = s.couplers ∧ s.afterEntry.roster = s.roster ∧
      s.afterEntry.accounts = s.accounts ∧ s.afterEntry.products = s.products ∧ s.afterEntry.prices = s.prices ∧
      s.afterEntry.limits = s.limits ∧ s.afterEntry.points = s.points ∧ s.afterEntry.times = s.times ∧
      s.afterEntry.arbiter = s.arbiter ∧ s.afterEntry.pump = s.pump ∧ s.afterEntry.stock = s.stock ∧
      s.afterEntry.probes = s.probes ∧ s.afterEntry.stockSettle = s.stockSettle ∧ s.afterEntry.journal = s.journal ∧
      s.afterEntry.clock = s.clock ∧ s.afterEntry.roles = s.roles ∧ s.afterEntry.watch = s.watch ∧ s.afterEntry.power
      = s.power ∧ s.afterEntry.choices = s.choices ∧ s.afterEntry.pending = s.pending ∧ (∀ i, s.afterEntry.channel i =
      s.channel i) ∧ (∀ i, s.afterEntry.coupler i = s.coupler i) ∧ (∀ i, s.afterEntry.product i = s.product i) ∧ (∀ i,
      s.afterEntry.point i = s.point i) ∧ (∀ i, s.afterEntry.comp i = s.comp i) ∧ s.afterEntry.inReset = s.inReset := by
  unfold State.afterEntry; repeat' split
  all_goals simp [State.point, State.coupler, State.channel, State.comp, State.product, State.inReset]

@[simp] theorem State.endEntry_frame (c : CompId) (q : Option SeqNo) (k : EndCause) :
    (s.endEntry c q k).channels = s.channels ∧ (s.endEntry c q k).couplers = s.couplers ∧ (s.endEntry c q k).roster
      = s.roster ∧ (s.endEntry c q k).accounts = s.accounts ∧ (s.endEntry c q k).products = s.products ∧ (s.endEntry c
      q k).prices = s.prices ∧ (s.endEntry c q k).limits = s.limits ∧ (s.endEntry c q k).points = s.points ∧
      (s.endEntry c q k).times = s.times ∧ (s.endEntry c q k).arbiter = s.arbiter ∧ (s.endEntry c q k).pump = s.pump ∧
      (s.endEntry c q k).stock = s.stock ∧ (s.endEntry c q k).probes = s.probes ∧ (s.endEntry c q k).stockSettle =
      s.stockSettle ∧ (s.endEntry c q k).journal = s.journal ∧ (s.endEntry c q k).clock = s.clock ∧ (s.endEntry c q
      k).ports = s.ports ∧ (s.endEntry c q k).roles = s.roles ∧ (s.endEntry c q k).watch = s.watch ∧ (s.endEntry c q
      k).power = s.power ∧ (s.endEntry c q k).choices = s.choices ∧ (s.endEntry c q k).pending = s.pending ∧ (∀ i,
      (s.endEntry c q k).channel i = s.channel i) ∧ (∀ i, (s.endEntry c q k).coupler i = s.coupler i) ∧ (∀ i,
      (s.endEntry c q k).product i = s.product i) ∧ (∀ i, (s.endEntry c q k).point i = s.point i) ∧ (∀ i, (s.endEntry
      c q k).comp i = s.comp i) ∧ (∀ i, (s.endEntry c q k).port i = s.port i) ∧ (s.endEntry c q k).inReset = s.inReset := by
  simp [State.point, State.coupler, State.channel, State.comp, State.port, State.product, State.inReset, State.endEntry]

@[simp] theorem State.dropEntry_frame (e : Entry) (k : EndCause) :
    (s.dropEntry e k).channels = s.channels ∧ (s.dropEntry e k).couplers = s.couplers ∧ (s.dropEntry e k).roster =
      s.roster ∧ (s.dropEntry e k).accounts = s.accounts ∧ (s.dropEntry e k).products = s.products ∧ (s.dropEntry e
      k).prices = s.prices ∧ (s.dropEntry e k).limits = s.limits ∧ (s.dropEntry e k).points = s.points ∧ (s.dropEntry
      e k).times = s.times ∧ (s.dropEntry e k).arbiter = s.arbiter ∧ (s.dropEntry e k).pump = s.pump ∧ (s.dropEntry e
      k).probes = s.probes ∧ (s.dropEntry e k).stockSettle = s.stockSettle ∧ (s.dropEntry e k).clock = s.clock ∧
      (s.dropEntry e k).ports = s.ports ∧ (s.dropEntry e k).roles = s.roles ∧ (s.dropEntry e k).watch = s.watch ∧
      (s.dropEntry e k).power = s.power ∧ (s.dropEntry e k).choices = s.choices ∧ (s.dropEntry e k).pending =
      s.pending ∧ (∀ i, (s.dropEntry e k).channel i = s.channel i) ∧ (∀ i, (s.dropEntry e k).coupler i = s.coupler i)
      ∧ (∀ i, (s.dropEntry e k).product i = s.product i) ∧ (∀ i, (s.dropEntry e k).point i = s.point i) ∧ (∀ i,
      (s.dropEntry e k).port i = s.port i) ∧ (s.dropEntry e k).inReset = s.inReset := by
  simp [State.point, State.coupler, State.channel, State.port, State.product, State.inReset, State.dropEntry]

@[simp] theorem State.receiveStock_frame (c : CompId) (n : Nat) :
    (s.receiveStock c n).channels = s.channels ∧ (s.receiveStock c n).couplers = s.couplers ∧ (s.receiveStock c
      n).roster = s.roster ∧ (s.receiveStock c n).accounts = s.accounts ∧ (s.receiveStock c n).products = s.products ∧
      (s.receiveStock c n).prices = s.prices ∧ (s.receiveStock c n).limits = s.limits ∧ (s.receiveStock c n).points =
      s.points ∧ (s.receiveStock c n).times = s.times ∧ (s.receiveStock c n).arbiter = s.arbiter ∧ (s.receiveStock c
      n).pump = s.pump ∧ (s.receiveStock c n).probes = s.probes ∧ (s.receiveStock c n).stockSettle = s.stockSettle ∧
      (s.receiveStock c n).loader = s.loader ∧ (s.receiveStock c n).journal = s.journal ∧ (s.receiveStock c n).clock =
      s.clock ∧ (s.receiveStock c n).roles = s.roles ∧ (s.receiveStock c n).watch = s.watch ∧ (s.receiveStock c
      n).power = s.power ∧ (s.receiveStock c n).choices = s.choices ∧ (s.receiveStock c n).pending = s.pending ∧ (∀ i,
      (s.receiveStock c n).channel i = s.channel i) ∧ (∀ i, (s.receiveStock c n).coupler i = s.coupler i) ∧ (∀ i,
      (s.receiveStock c n).product i = s.product i) ∧ (∀ i, (s.receiveStock c n).point i = s.point i) ∧
      (s.receiveStock c n).inReset = s.inReset := by
  simp [State.point, State.coupler, State.channel, State.product, State.inReset, State.receiveStock]

@[simp] theorem State.closeReceipt_frame (e : Entry) (x : LoadContext) (k : EndCause) (b : Bool) :
    (s.closeReceipt e x k b).couplers = s.couplers ∧ (s.closeReceipt e x k b).roster = s.roster ∧ (s.closeReceipt e
      x k b).accounts = s.accounts ∧ (s.closeReceipt e x k b).products = s.products ∧ (s.closeReceipt e x k b).prices
      = s.prices ∧ (s.closeReceipt e x k b).limits = s.limits ∧ (s.closeReceipt e x k b).points = s.points ∧
      (s.closeReceipt e x k b).times = s.times ∧ (s.closeReceipt e x k b).arbiter = s.arbiter ∧ (s.closeReceipt e x k
      b).pump = s.pump ∧ (s.closeReceipt e x k b).probes = s.probes ∧ (s.closeReceipt e x k b).stockSettle =
      s.stockSettle ∧ (s.closeReceipt e x k b).clock = s.clock ∧ (s.closeReceipt e x k b).roles = s.roles ∧
      (s.closeReceipt e x k b).watch = s.watch ∧ (s.closeReceipt e x k b).power = s.power ∧ (s.closeReceipt e x k
      b).choices = s.choices ∧ (s.closeReceipt e x k b).pending = s.pending ∧ (∀ i, (s.closeReceipt e x k b).coupler i
      = s.coupler i) ∧ (∀ i, (s.closeReceipt e x k b).product i = s.product i) ∧ (∀ i, (s.closeReceipt e x k b).point
      i = s.point i) ∧ (s.closeReceipt e x k b).inReset = s.inReset := by
  simp [State.point, State.coupler, State.product, State.inReset, State.closeReceipt]

@[simp] theorem State.grantAdmitted_frame (c : CompId) :
    (s.grantAdmitted c).channels = s.channels ∧ (s.grantAdmitted c).roster = s.roster ∧ (s.grantAdmitted c).accounts
      = s.accounts ∧ (s.grantAdmitted c).products = s.products ∧ (s.grantAdmitted c).prices = s.prices ∧
      (s.grantAdmitted c).limits = s.limits ∧ (s.grantAdmitted c).times = s.times ∧ (s.grantAdmitted c).pump = s.pump
      ∧ (s.grantAdmitted c).stock = s.stock ∧ (s.grantAdmitted c).probes = s.probes ∧ (s.grantAdmitted c).stockSettle
      = s.stockSettle ∧ (s.grantAdmitted c).loader = s.loader ∧ (s.grantAdmitted c).journal = s.journal ∧
      (s.grantAdmitted c).clock = s.clock ∧ (s.grantAdmitted c).ports = s.ports ∧ (s.grantAdmitted c).roles = s.roles
      ∧ (s.grantAdmitted c).watch = s.watch ∧ (s.grantAdmitted c).power = s.power ∧ (s.grantAdmitted c).choices =
      s.choices ∧ (s.grantAdmitted c).pending = s.pending ∧ (∀ i, (s.grantAdmitted c).channel i = s.channel i) ∧ (∀ i,
      (s.grantAdmitted c).product i = s.product i) ∧ (∀ i, (s.grantAdmitted c).comp i = s.comp i) ∧ (∀ i,
      (s.grantAdmitted c).port i = s.port i) ∧ (s.grantAdmitted c).inReset = s.inReset := by
  unfold State.grantAdmitted; dsimp only; repeat' split
  all_goals simp [State.channel, State.comp, State.port, State.product, State.inReset]

@[simp] theorem State.grantTo_frame (p : PointId) (c : CompId) :
    (s.grantTo p c).channels = s.channels ∧ (s.grantTo p c).roster = s.roster ∧ (s.grantTo p c).accounts =
      s.accounts ∧ (s.grantTo p c).products = s.products ∧ (s.grantTo p c).prices = s.prices ∧ (s.grantTo p c).limits
      = s.limits ∧ (s.grantTo p c).times = s.times ∧ (s.grantTo p c).pump = s.pump ∧ (s.grantTo p c).stock = s.stock ∧
      (s.grantTo p c).probes = s.probes ∧ (s.grantTo p c).stockSettle = s.stockSettle ∧ (s.grantTo p c).loader =
      s.loader ∧ (s.grantTo p c).journal = s.journal ∧ (s.grantTo p c).clock = s.clock ∧ (s.grantTo p c).ports =
      s.ports ∧ (s.grantTo p c).roles = s.roles ∧ (s.grantTo p c).watch = s.watch ∧ (s.grantTo p c).power = s.power ∧
      (s.grantTo p c).choices = s.choices ∧ (s.grantTo p c).pending = s.pending ∧ (∀ i, (s.grantTo p c).channel i =
      s.channel i) ∧ (∀ i, (s.grantTo p c).product i = s.product i) ∧ (∀ i, (s.grantTo p c).comp i = s.comp i) ∧ (∀ i,
      (s.grantTo p c).port i = s.port i) ∧ (s.grantTo p c).inReset = s.inReset := by
  unfold State.grantTo; dsimp only; repeat' split
  all_goals simp [State.channel, State.comp, State.port, State.product, State.inReset]

@[simp] theorem State.pick_frame :
    s.pick.channels = s.channels ∧ s.pick.roster = s.roster ∧ s.pick.accounts = s.accounts ∧ s.pick.products =
      s.products ∧ s.pick.prices = s.prices ∧ s.pick.limits = s.limits ∧ s.pick.times = s.times ∧ s.pick.pump = s.pump
      ∧ s.pick.stock = s.stock ∧ s.pick.probes = s.probes ∧ s.pick.stockSettle = s.stockSettle ∧ s.pick.loader =
      s.loader ∧ s.pick.journal = s.journal ∧ s.pick.clock = s.clock ∧ s.pick.ports = s.ports ∧ s.pick.roles = s.roles
      ∧ s.pick.watch = s.watch ∧ s.pick.power = s.power ∧ s.pick.choices = s.choices ∧ s.pick.pending = s.pending ∧ (∀
      i, s.pick.channel i = s.channel i) ∧ (∀ i, s.pick.product i = s.product i) ∧ (∀ i, s.pick.comp i = s.comp i) ∧
      (∀ i, s.pick.port i = s.port i) ∧ s.pick.inReset = s.inReset := by
  unfold State.pick; repeat' split
  all_goals simp [State.channel, State.comp, State.port, State.product, State.inReset]

@[simp] theorem State.testRelease_frame :
    s.testRelease.channels = s.channels ∧ s.testRelease.couplers = s.couplers ∧ s.testRelease.roster = s.roster ∧
      s.testRelease.accounts = s.accounts ∧ s.testRelease.products = s.products ∧ s.testRelease.prices = s.prices ∧
      s.testRelease.limits = s.limits ∧ s.testRelease.points = s.points ∧ s.testRelease.times = s.times ∧
      s.testRelease.pump = s.pump ∧ s.testRelease.stock = s.stock ∧ s.testRelease.probes = s.probes ∧
      s.testRelease.stockSettle = s.stockSettle ∧ s.testRelease.loader = s.loader ∧ s.testRelease.journal = s.journal
      ∧ s.testRelease.clock = s.clock ∧ s.testRelease.ports = s.ports ∧ s.testRelease.roles = s.roles ∧
      s.testRelease.watch = s.watch ∧ s.testRelease.power = s.power ∧ s.testRelease.choices = s.choices ∧
      s.testRelease.pending = s.pending ∧ (∀ i, s.testRelease.channel i = s.channel i) ∧ (∀ i, s.testRelease.coupler i
      = s.coupler i) ∧ (∀ i, s.testRelease.product i = s.product i) ∧ (∀ i, s.testRelease.point i = s.point i) ∧ (∀ i,
      s.testRelease.comp i = s.comp i) ∧ (∀ i, s.testRelease.port i = s.port i) ∧ s.testRelease.inReset = s.inReset := by
  unfold State.testRelease; repeat' split
  all_goals simp [State.point, State.coupler, State.channel, State.comp, State.port, State.product, State.inReset]

@[simp] theorem State.arbitrate_frame :
    s.arbitrate.channels = s.channels ∧ s.arbitrate.roster = s.roster ∧ s.arbitrate.accounts = s.accounts ∧
      s.arbitrate.products = s.products ∧ s.arbitrate.prices = s.prices ∧ s.arbitrate.limits = s.limits ∧
      s.arbitrate.times = s.times ∧ s.arbitrate.pump = s.pump ∧ s.arbitrate.stock = s.stock ∧ s.arbitrate.probes =
      s.probes ∧ s.arbitrate.stockSettle = s.stockSettle ∧ s.arbitrate.loader = s.loader ∧ s.arbitrate.journal =
      s.journal ∧ s.arbitrate.clock = s.clock ∧ s.arbitrate.ports = s.ports ∧ s.arbitrate.roles = s.roles ∧
      s.arbitrate.watch = s.watch ∧ s.arbitrate.power = s.power ∧ s.arbitrate.choices = s.choices ∧
      s.arbitrate.pending = s.pending ∧ (∀ i, s.arbitrate.channel i = s.channel i) ∧ (∀ i, s.arbitrate.product i =
      s.product i) ∧ (∀ i, s.arbitrate.comp i = s.comp i) ∧ (∀ i, s.arbitrate.port i = s.port i) ∧ s.arbitrate.inReset
      = s.inReset := by
  simp [State.channel, State.comp, State.port, State.product, State.inReset, State.arbitrate]

@[simp] theorem State.arrive_frame (c : CompId) :
    (s.arrive c).channels = s.channels ∧ (s.arrive c).roster = s.roster ∧ (s.arrive c).accounts = s.accounts ∧
      (s.arrive c).products = s.products ∧ (s.arrive c).prices = s.prices ∧ (s.arrive c).limits = s.limits ∧ (s.arrive
      c).times = s.times ∧ (s.arrive c).pump = s.pump ∧ (s.arrive c).stock = s.stock ∧ (s.arrive c).probes = s.probes
      ∧ (s.arrive c).stockSettle = s.stockSettle ∧ (s.arrive c).loader = s.loader ∧ (s.arrive c).journal = s.journal ∧
      (s.arrive c).clock = s.clock ∧ (s.arrive c).ports = s.ports ∧ (s.arrive c).roles = s.roles ∧ (s.arrive c).watch
      = s.watch ∧ (s.arrive c).power = s.power ∧ (s.arrive c).choices = s.choices ∧ (s.arrive c).pending = s.pending ∧
      (∀ i, (s.arrive c).channel i = s.channel i) ∧ (∀ i, (s.arrive c).product i = s.product i) ∧ (∀ i, (s.arrive
      c).comp i = s.comp i) ∧ (∀ i, (s.arrive c).port i = s.port i) ∧ (s.arrive c).inReset = s.inReset := by
  unfold State.arrive; repeat' split
  all_goals simp [State.channel, State.comp, State.port, State.product, State.inReset]

@[simp] theorem State.promote_frame (x : Staged) (l : List Staged) :
    (s.promote x l).channels = s.channels ∧ (s.promote x l).couplers = s.couplers ∧ (s.promote x l).roster =
      s.roster ∧ (s.promote x l).accounts = s.accounts ∧ (s.promote x l).products = s.products ∧ (s.promote x
      l).prices = s.prices ∧ (s.promote x l).limits = s.limits ∧ (s.promote x l).points = s.points ∧ (s.promote x
      l).times = s.times ∧ (s.promote x l).arbiter = s.arbiter ∧ (s.promote x l).pump = s.pump ∧ (s.promote x
      l).probes = s.probes ∧ (s.promote x l).stockSettle = s.stockSettle ∧ (s.promote x l).clock = s.clock ∧
      (s.promote x l).roles = s.roles ∧ (s.promote x l).watch = s.watch ∧ (s.promote x l).power = s.power ∧ (s.promote
      x l).choices = s.choices ∧ (s.promote x l).pending = s.pending ∧ (∀ i, (s.promote x l).channel i = s.channel i)
      ∧ (∀ i, (s.promote x l).coupler i = s.coupler i) ∧ (∀ i, (s.promote x l).product i = s.product i) ∧ (∀ i,
      (s.promote x l).point i = s.point i) ∧ (s.promote x l).inReset = s.inReset := by
  unfold State.promote; dsimp only; repeat' split
  all_goals simp [State.point, State.coupler, State.channel, State.product, State.inReset]

@[simp] theorem State.tryPromote_frame :
    s.tryPromote.channels = s.channels ∧ s.tryPromote.couplers = s.couplers ∧ s.tryPromote.roster = s.roster ∧
      s.tryPromote.accounts = s.accounts ∧ s.tryPromote.products = s.products ∧ s.tryPromote.prices = s.prices ∧
      s.tryPromote.limits = s.limits ∧ s.tryPromote.points = s.points ∧ s.tryPromote.times = s.times ∧
      s.tryPromote.arbiter = s.arbiter ∧ s.tryPromote.pump = s.pump ∧ s.tryPromote.probes = s.probes ∧
      s.tryPromote.stockSettle = s.stockSettle ∧ s.tryPromote.clock = s.clock ∧ s.tryPromote.roles = s.roles ∧
      s.tryPromote.watch = s.watch ∧ s.tryPromote.power = s.power ∧ s.tryPromote.choices = s.choices ∧
      s.tryPromote.pending = s.pending ∧ (∀ i, s.tryPromote.channel i = s.channel i) ∧ (∀ i, s.tryPromote.coupler i =
      s.coupler i) ∧ (∀ i, s.tryPromote.product i = s.product i) ∧ (∀ i, s.tryPromote.point i = s.point i) ∧
      s.tryPromote.inReset = s.inReset := by
  unfold State.tryPromote; repeat' split
  all_goals simp [State.point, State.coupler, State.channel, State.product, State.inReset]

@[simp] theorem State.startLoading_frame (e : Entry) (q : ProductId) (n : Nat) (b : Bool) :
    (s.startLoading e q n b).couplers = s.couplers ∧ (s.startLoading e q n b).roster = s.roster ∧ (s.startLoading e
      q n b).accounts = s.accounts ∧ (s.startLoading e q n b).products = s.products ∧ (s.startLoading e q n b).prices
      = s.prices ∧ (s.startLoading e q n b).limits = s.limits ∧ (s.startLoading e q n b).points = s.points ∧
      (s.startLoading e q n b).times = s.times ∧ (s.startLoading e q n b).arbiter = s.arbiter ∧ (s.startLoading e q n
      b).pump = s.pump ∧ (s.startLoading e q n b).probes = s.probes ∧ (s.startLoading e q n b).stockSettle =
      s.stockSettle ∧ (s.startLoading e q n b).journal = s.journal ∧ (s.startLoading e q n b).clock = s.clock ∧
      (s.startLoading e q n b).ports = s.ports ∧ (s.startLoading e q n b).roles = s.roles ∧ (s.startLoading e q n
      b).watch = s.watch ∧ (s.startLoading e q n b).power = s.power ∧ (s.startLoading e q n b).choices = s.choices ∧
      (s.startLoading e q n b).pending = s.pending ∧ (∀ i, (s.startLoading e q n b).coupler i = s.coupler i) ∧ (∀ i,
      (s.startLoading e q n b).product i = s.product i) ∧ (∀ i, (s.startLoading e q n b).point i = s.point i) ∧ (∀ i,
      (s.startLoading e q n b).port i = s.port i) ∧ (s.startLoading e q n b).inReset = s.inReset := by
  unfold State.startLoading; dsimp only; repeat' split
  all_goals simp [State.point, State.coupler, State.port, State.product, State.inReset]

@[simp] theorem State.setEntryState_frame (e : Entry) (x : EntryState) :
    (s.setEntryState e x).channels = s.channels ∧ (s.setEntryState e x).couplers = s.couplers ∧ (s.setEntryState e
      x).roster = s.roster ∧ (s.setEntryState e x).accounts = s.accounts ∧ (s.setEntryState e x).products = s.products
      ∧ (s.setEntryState e x).prices = s.prices ∧ (s.setEntryState e x).limits = s.limits ∧ (s.setEntryState e
      x).points = s.points ∧ (s.setEntryState e x).times = s.times ∧ (s.setEntryState e x).arbiter = s.arbiter ∧
      (s.setEntryState e x).pump = s.pump ∧ (s.setEntryState e x).stock = s.stock ∧ (s.setEntryState e x).probes =
      s.probes ∧ (s.setEntryState e x).stockSettle = s.stockSettle ∧ (s.setEntryState e x).journal = s.journal ∧
      (s.setEntryState e x).clock = s.clock ∧ (s.setEntryState e x).ports = s.ports ∧ (s.setEntryState e x).roles =
      s.roles ∧ (s.setEntryState e x).watch = s.watch ∧ (s.setEntryState e x).power = s.power ∧ (s.setEntryState e
      x).choices = s.choices ∧ (s.setEntryState e x).pending = s.pending ∧ (∀ i, (s.setEntryState e x).channel i =
      s.channel i) ∧ (∀ i, (s.setEntryState e x).coupler i = s.coupler i) ∧ (∀ i, (s.setEntryState e x).product i =
      s.product i) ∧ (∀ i, (s.setEntryState e x).point i = s.point i) ∧ (∀ i, (s.setEntryState e x).comp i = s.comp i)
      ∧ (∀ i, (s.setEntryState e x).port i = s.port i) ∧ (s.setEntryState e x).inReset = s.inReset := by
  simp [State.point, State.coupler, State.channel, State.comp, State.port, State.product, State.inReset, State.setEntryState]

@[simp] theorem State.startTest_frame (e : Entry) :
    (s.startTest e).couplers = s.couplers ∧ (s.startTest e).roster = s.roster ∧ (s.startTest e).accounts =
      s.accounts ∧ (s.startTest e).products = s.products ∧ (s.startTest e).prices = s.prices ∧ (s.startTest e).limits
      = s.limits ∧ (s.startTest e).points = s.points ∧ (s.startTest e).times = s.times ∧ (s.startTest e).arbiter =
      s.arbiter ∧ (s.startTest e).pump = s.pump ∧ (s.startTest e).probes = s.probes ∧ (s.startTest e).stockSettle =
      s.stockSettle ∧ (s.startTest e).clock = s.clock ∧ (s.startTest e).roles = s.roles ∧ (s.startTest e).watch =
      s.watch ∧ (s.startTest e).power = s.power ∧ (s.startTest e).choices = s.choices ∧ (s.startTest e).pending =
      s.pending ∧ (∀ i, (s.startTest e).coupler i = s.coupler i) ∧ (∀ i, (s.startTest e).product i = s.product i) ∧ (∀
      i, (s.startTest e).point i = s.point i) ∧ (s.startTest e).inReset = s.inReset := by
  unfold State.startTest; repeat' split
  all_goals simp [State.point, State.coupler, State.product, State.inReset]

@[simp] theorem State.tryStart_frame :
    s.tryStart.couplers = s.couplers ∧ s.tryStart.roster = s.roster ∧ s.tryStart.accounts = s.accounts ∧
      s.tryStart.products = s.products ∧ s.tryStart.prices = s.prices ∧ s.tryStart.limits = s.limits ∧
      s.tryStart.points = s.points ∧ s.tryStart.times = s.times ∧ s.tryStart.arbiter = s.arbiter ∧ s.tryStart.pump =
      s.pump ∧ s.tryStart.probes = s.probes ∧ s.tryStart.stockSettle = s.stockSettle ∧ s.tryStart.clock = s.clock ∧
      s.tryStart.roles = s.roles ∧ s.tryStart.watch = s.watch ∧ s.tryStart.power = s.power ∧ s.tryStart.choices =
      s.choices ∧ s.tryStart.pending = s.pending ∧ (∀ i, s.tryStart.coupler i = s.coupler i) ∧ (∀ i,
      s.tryStart.product i = s.product i) ∧ (∀ i, s.tryStart.point i = s.point i) ∧ s.tryStart.inReset = s.inReset := by
  unfold State.tryStart; repeat' split
  all_goals simp [State.point, State.coupler, State.product, State.inReset]

@[simp] theorem State.advance_frame :
    s.advance.couplers = s.couplers ∧ s.advance.roster = s.roster ∧ s.advance.accounts = s.accounts ∧
      s.advance.products = s.products ∧ s.advance.prices = s.prices ∧ s.advance.limits = s.limits ∧ s.advance.points =
      s.points ∧ s.advance.times = s.times ∧ s.advance.arbiter = s.arbiter ∧ s.advance.pump = s.pump ∧
      s.advance.probes = s.probes ∧ s.advance.stockSettle = s.stockSettle ∧ s.advance.clock = s.clock ∧
      s.advance.roles = s.roles ∧ s.advance.watch = s.watch ∧ s.advance.power = s.power ∧ s.advance.choices =
      s.choices ∧ s.advance.pending = s.pending ∧ (∀ i, s.advance.coupler i = s.coupler i) ∧ (∀ i, s.advance.product i
      = s.product i) ∧ (∀ i, s.advance.point i = s.point i) ∧ s.advance.inReset = s.inReset := by
  simp [State.point, State.coupler, State.product, State.inReset, State.advance]

@[simp] theorem State.settle_frame :
    s.settle.roster = s.roster ∧ s.settle.accounts = s.accounts ∧ s.settle.products = s.products ∧ s.settle.prices =
      s.prices ∧ s.settle.limits = s.limits ∧ s.settle.times = s.times ∧ s.settle.pump = s.pump ∧ s.settle.probes =
      s.probes ∧ s.settle.stockSettle = s.stockSettle ∧ s.settle.clock = s.clock ∧ s.settle.roles = s.roles ∧
      s.settle.watch = s.watch ∧ s.settle.power = s.power ∧ s.settle.choices = s.choices ∧ s.settle.pending =
      s.pending ∧ (∀ i, s.settle.product i = s.product i) ∧ s.settle.inReset = s.inReset := by
  simp [State.product, State.inReset, State.settle]

@[simp] theorem State.followRun_frame :
    s.followRun.channels = s.channels ∧ s.followRun.couplers = s.couplers ∧ s.followRun.roster = s.roster ∧
      s.followRun.accounts = s.accounts ∧ s.followRun.products = s.products ∧ s.followRun.prices = s.prices ∧
      s.followRun.limits = s.limits ∧ s.followRun.points = s.points ∧ s.followRun.times = s.times ∧
      s.followRun.arbiter = s.arbiter ∧ s.followRun.stock = s.stock ∧ s.followRun.probes = s.probes ∧
      s.followRun.stockSettle = s.stockSettle ∧ s.followRun.loader = s.loader ∧ s.followRun.journal = s.journal ∧
      s.followRun.clock = s.clock ∧ s.followRun.ports = s.ports ∧ s.followRun.roles = s.roles ∧ s.followRun.watch =
      s.watch ∧ s.followRun.power = s.power ∧ s.followRun.choices = s.choices ∧ s.followRun.pending = s.pending ∧ (∀
      i, s.followRun.channel i = s.channel i) ∧ (∀ i, s.followRun.coupler i = s.coupler i) ∧ (∀ i, s.followRun.product
      i = s.product i) ∧ (∀ i, s.followRun.point i = s.point i) ∧ (∀ i, s.followRun.comp i = s.comp i) ∧ (∀ i,
      s.followRun.port i = s.port i) ∧ s.followRun.inReset = s.inReset := by
  unfold State.followRun; repeat' split
  all_goals simp [State.point, State.coupler, State.channel, State.comp, State.port, State.product, State.inReset]

@[simp] theorem State.testNoFlow_frame :
    s.testNoFlow.channels = s.channels ∧ s.testNoFlow.couplers = s.couplers ∧ s.testNoFlow.roster = s.roster ∧
      s.testNoFlow.accounts = s.accounts ∧ s.testNoFlow.products = s.products ∧ s.testNoFlow.prices = s.prices ∧
      s.testNoFlow.limits = s.limits ∧ s.testNoFlow.points = s.points ∧ s.testNoFlow.times = s.times ∧
      s.testNoFlow.arbiter = s.arbiter ∧ s.testNoFlow.stock = s.stock ∧ s.testNoFlow.probes = s.probes ∧
      s.testNoFlow.stockSettle = s.stockSettle ∧ s.testNoFlow.loader = s.loader ∧ s.testNoFlow.journal = s.journal ∧
      s.testNoFlow.clock = s.clock ∧ s.testNoFlow.ports = s.ports ∧ s.testNoFlow.roles = s.roles ∧ s.testNoFlow.watch
      = s.watch ∧ s.testNoFlow.power = s.power ∧ s.testNoFlow.choices = s.choices ∧ s.testNoFlow.pending = s.pending ∧
      (∀ i, s.testNoFlow.channel i = s.channel i) ∧ (∀ i, s.testNoFlow.coupler i = s.coupler i) ∧ (∀ i,
      s.testNoFlow.product i = s.product i) ∧ (∀ i, s.testNoFlow.point i = s.point i) ∧ (∀ i, s.testNoFlow.comp i =
      s.comp i) ∧ (∀ i, s.testNoFlow.port i = s.port i) ∧ s.testNoFlow.inReset = s.inReset := by
  unfold State.testNoFlow; dsimp only; repeat' split
  all_goals simp [State.point, State.coupler, State.channel, State.comp, State.port, State.product, State.inReset]

@[simp] theorem State.followWatch_frame (old : State) :
    (s.followWatch old).channels = s.channels ∧ (s.followWatch old).couplers = s.couplers ∧ (s.followWatch
      old).roster = s.roster ∧ (s.followWatch old).accounts = s.accounts ∧ (s.followWatch old).products = s.products ∧
      (s.followWatch old).prices = s.prices ∧ (s.followWatch old).limits = s.limits ∧ (s.followWatch old).points =
      s.points ∧ (s.followWatch old).times = s.times ∧ (s.followWatch old).arbiter = s.arbiter ∧ (s.followWatch
      old).pump = s.pump ∧ (s.followWatch old).stock = s.stock ∧ (s.followWatch old).probes = s.probes ∧
      (s.followWatch old).stockSettle = s.stockSettle ∧ (s.followWatch old).loader = s.loader ∧ (s.followWatch
      old).journal = s.journal ∧ (s.followWatch old).clock = s.clock ∧ (s.followWatch old).ports = s.ports ∧
      (s.followWatch old).roles = s.roles ∧ (s.followWatch old).power = s.power ∧ (s.followWatch old).choices =
      s.choices ∧ (s.followWatch old).pending = s.pending ∧ (∀ i, (s.followWatch old).channel i = s.channel i) ∧ (∀ i,
      (s.followWatch old).coupler i = s.coupler i) ∧ (∀ i, (s.followWatch old).product i = s.product i) ∧ (∀ i,
      (s.followWatch old).point i = s.point i) ∧ (∀ i, (s.followWatch old).comp i = s.comp i) ∧ (∀ i, (s.followWatch
      old).port i = s.port i) ∧ (s.followWatch old).inReset = s.inReset := by
  unfold State.followWatch; repeat' split
  all_goals simp [State.point, State.coupler, State.channel, State.comp, State.port, State.product, State.inReset]

@[simp] theorem State.follow_frame (old : State) :
    (s.follow old).roster = s.roster ∧ (s.follow old).accounts = s.accounts ∧ (s.follow old).products = s.products ∧
      (s.follow old).prices = s.prices ∧ (s.follow old).limits = s.limits ∧ (s.follow old).times = s.times ∧ (s.follow
      old).probes = s.probes ∧ (s.follow old).stockSettle = s.stockSettle ∧ (s.follow old).clock = s.clock ∧ (s.follow
      old).roles = s.roles ∧ (s.follow old).power = s.power ∧ (s.follow old).choices = s.choices ∧ (s.follow
      old).pending = s.pending ∧ (∀ i, (s.follow old).product i = s.product i) ∧ (s.follow old).inReset = s.inReset := by
  unfold State.follow; dsimp only; repeat' split
  all_goals simp [State.product, State.inReset]

@[simp] theorem State.consoleTraffic_frame :
    s.consoleTraffic.channels = s.channels ∧ s.consoleTraffic.couplers = s.couplers ∧ s.consoleTraffic.roster =
      s.roster ∧ s.consoleTraffic.accounts = s.accounts ∧ s.consoleTraffic.products = s.products ∧
      s.consoleTraffic.prices = s.prices ∧ s.consoleTraffic.limits = s.limits ∧ s.consoleTraffic.times = s.times ∧
      s.consoleTraffic.arbiter = s.arbiter ∧ s.consoleTraffic.pump = s.pump ∧ s.consoleTraffic.stock = s.stock ∧
      s.consoleTraffic.probes = s.probes ∧ s.consoleTraffic.stockSettle = s.stockSettle ∧ s.consoleTraffic.loader =
      s.loader ∧ s.consoleTraffic.journal = s.journal ∧ s.consoleTraffic.clock = s.clock ∧ s.consoleTraffic.ports =
      s.ports ∧ s.consoleTraffic.roles = s.roles ∧ s.consoleTraffic.power = s.power ∧ s.consoleTraffic.choices =
      s.choices ∧ s.consoleTraffic.pending = s.pending ∧ (∀ i, s.consoleTraffic.channel i = s.channel i) ∧ (∀ i,
      s.consoleTraffic.coupler i = s.coupler i) ∧ (∀ i, s.consoleTraffic.product i = s.product i) ∧ (∀ i,
      s.consoleTraffic.comp i = s.comp i) ∧ (∀ i, s.consoleTraffic.port i = s.port i) ∧ s.consoleTraffic.inReset =
      s.inReset := by
  simp [State.coupler, State.channel, State.comp, State.port, State.product, State.inReset, State.consoleTraffic]

@[simp] theorem State.findSilent_frame :
    s.findSilent.channels = s.channels ∧ s.findSilent.couplers = s.couplers ∧ s.findSilent.roster = s.roster ∧
      s.findSilent.accounts = s.accounts ∧ s.findSilent.products = s.products ∧ s.findSilent.prices = s.prices ∧
      s.findSilent.limits = s.limits ∧ s.findSilent.times = s.times ∧ s.findSilent.pump = s.pump ∧ s.findSilent.stock
      = s.stock ∧ s.findSilent.probes = s.probes ∧ s.findSilent.stockSettle = s.stockSettle ∧ s.findSilent.loader =
      s.loader ∧ s.findSilent.journal = s.journal ∧ s.findSilent.clock = s.clock ∧ s.findSilent.roles = s.roles ∧
      s.findSilent.power = s.power ∧ s.findSilent.choices = s.choices ∧ s.findSilent.pending = s.pending ∧ (∀ i,
      s.findSilent.channel i = s.channel i) ∧ (∀ i, s.findSilent.coupler i = s.coupler i) ∧ (∀ i, s.findSilent.product
      i = s.product i) ∧ (∀ i, s.findSilent.comp i = s.comp i) ∧ s.findSilent.inReset = s.inReset := by
  unfold State.findSilent; dsimp only; repeat' split
  all_goals simp [State.coupler, State.channel, State.comp, State.product, State.inReset]

end Sys2Proof.Machine
end

