-- ==== Sys2Proof/Laws/Stock.lean ====
section
/-! SUPPORT. The journal and the compartments: what each shared operation leaves in them. -/

namespace Sys2Proof.Machine

open Sys2Proof

variable (s : State)

/-! ### The journal (R152 to R158) -/

theorem State.testHighMark_journal :
    s.testHighMark.journal = { s.journal with highMark := s.testHighMark.journal.highMark } := by
  unfold State.testHighMark; split <;> simp

theorem State.reserveSlot_journal :
    s.reserveSlot.journal =
      { s.journal with reserved := s.journal.reserved + 1, highMark := s.reserveSlot.journal.highMark } := by
  unfold State.reserveSlot; rw [State.testHighMark_journal]; rfl

theorem State.store_journal (b : RecordBody) :
    (s.store b).journal =
      { s.journal with
        records := s.journal.records ++ [s.newRecord b], next := s.journal.next + 1
        highMark := (s.store b).journal.highMark } := by
  unfold State.store; rw [State.testHighMark_journal]; rfl

theorem State.storeReserved_journal (b : RecordBody) :
    (s.storeReserved b).journal =
      { s.journal with
        records := s.journal.records ++ [s.newRecord b], next := s.journal.next + 1
        reserved := s.journal.reserved - 1, highMark := (s.storeReserved b).journal.highMark } := by
  unfold State.storeReserved; rw [State.testHighMark_journal]; rfl

@[simp] theorem State.testHighMark_slots :
    s.testHighMark.journal.records = s.journal.records ∧ s.testHighMark.journal.next = s.journal.next ∧
      s.testHighMark.journal.reserved = s.journal.reserved ∧ s.testHighMark.journal.tally = s.journal.tally := by
  rw [State.testHighMark_journal]; simp

@[simp] theorem State.reserveSlot_slots :
    s.reserveSlot.journal.records = s.journal.records ∧ s.reserveSlot.journal.next = s.journal.next ∧
      s.reserveSlot.journal.reserved = s.journal.reserved + 1 ∧ s.reserveSlot.journal.tally = s.journal.tally := by
  rw [State.reserveSlot_journal]; simp

@[simp] theorem State.store_slots (b : RecordBody) :
    (s.store b).journal.records = s.journal.records ++ [s.newRecord b] ∧
      (s.store b).journal.next = s.journal.next + 1 ∧ (s.store b).journal.reserved = s.journal.reserved ∧
      (s.store b).journal.tally = s.journal.tally := by
  rw [State.store_journal]; simp

@[simp] theorem State.storeReserved_slots (b : RecordBody) :
    (s.storeReserved b).journal.records = s.journal.records ++ [s.newRecord b] ∧
      (s.storeReserved b).journal.next = s.journal.next + 1 ∧
      (s.storeReserved b).journal.reserved = s.journal.reserved - 1 ∧
      (s.storeReserved b).journal.tally = s.journal.tally := by
  rw [State.storeReserved_journal]; simp

theorem State.storeSystem_room (b : RecordBody) (h : s.journal.hasRoom = true) : s.storeSystem b = s.store b := by
  simp [State.storeSystem, h]

theorem State.storeSystem_full (b : RecordBody) (h : s.journal.hasRoom = false) : s.storeSystem b = s := by
  simp [State.storeSystem, h]

/-! ### Notices on a port (R182) -/

theorem State.has_raise (n : Notice) (o : PortId) (m : Notice) :
    ((s.raise n).port o).has m = ((s.port o).has m || (n.ports.port o && m == n)) := by
  rw [State.raise_port]
  cases n.ports.port o <;> simp [Port.has_raise]

theorem State.raise_keeps {o : PortId} {n : Notice} (m : Notice) (h : (s.port o).has n = true) :
    ((s.raise m).port o).has n = true := by
  rw [State.has_raise, h]; rfl

theorem State.testHighMark_keeps {o : PortId} {n : Notice} (h : (s.port o).has n = true) :
    (s.testHighMark.port o).has n = true := by
  unfold State.testHighMark; split
  · exact State.raise_keeps _ _ h
  · exact h

theorem State.storeSystem_keeps {o : PortId} {n : Notice} (b : RecordBody) (h : (s.port o).has n = true) :
    ((s.storeSystem b).port o).has n = true := by
  unfold State.storeSystem; split
  · exact State.testHighMark_keeps _ h
  · exact h

theorem State.storeReserved_keeps {o : PortId} {n : Notice} (b : RecordBody) (h : (s.port o).has n = true) :
    ((s.storeReserved b).port o).has n = true := State.testHighMark_keeps _ h

theorem State.reorderFall_keeps {o : PortId} {n : Notice} (c : CompId) (h : (s.port o).has n = true) :
    ((s.reorderFall c).port o).has n = true := by
  unfold State.reorderFall; split
  · exact State.raise_keeps _ _ h
  · exact h

/-! ### The compartments (R123, R126, R130) -/

theorem State.startSettle_comp (c d : CompId) :
    (s.startSettle c).comp d =
      if d = c then (s.comp c).map fun x => if s.quiet c then { x with settle := some s.stockSettle } else x
      else s.comp d := by
  unfold State.startSettle
  split <;> rename_i h
  · rw [State.modComp_comp]
  · split
    · rename_i e; subst e; simp
    · rfl

theorem State.stopSettle_comp (c d : CompId) :
    (s.stopSettle c).comp d = if d = c then (s.comp c).map fun x => { x with settle := none } else s.comp d :=
  State.modComp_comp _ _ _ _

theorem State.reserveOn_comp (c d : CompId) (v : Nat) :
    (s.reserveOn c v).comp d =
      if d = c then (s.comp c).map fun x => { x with reserved := x.reserved + v } else s.comp d :=
  State.modComp_comp _ _ _ _

theorem State.releaseOn_comp (c d : CompId) (v : Nat) :
    (s.releaseOn c v).comp d =
      if d = c then (s.comp c).map fun x => { x with reserved := x.reserved - v } else s.comp d :=
  State.modComp_comp _ _ _ _

theorem State.reorderFall_comp (c d : CompId) :
    (s.reorderFall c).comp d =
      if d = c then (s.comp c).map fun x => { x with reorderSent := x.reorderSent || x.reorderDue } else s.comp d := by
  unfold State.reorderFall
  by_cases hd : d = c
  · subst hd
    cases hx : s.comp d with
    | none => simp [hx]
    | some x => cases h : x.reorderDue <;> simp [hx, h]
  · split <;> simp [hd]

theorem State.reorderNew_comp (c d : CompId) :
    (s.reorderNew c).comp d =
      if d = c then (s.comp c).map fun x => { x with reorderSent := decide (x.available < x.reorder) }
      else s.comp d := by
  unfold State.reorderNew
  by_cases hd : d = c
  · subst hd
    cases hx : s.comp d with
    | none => simp [hx, State.reorderFall]
    | some x =>
      by_cases h : x.reorder ≤ x.available
      · have : ¬ x.available < x.reorder := by omega
        simp [hx, h, this]
      · have h1 : x.available < x.reorder := by omega
        have h2 : x.reorder ≠ 0 := by omega
        simp [hx, h, h1, State.reorderFall_comp, Compartment.reorderDue, h2]
  · split
    · simp [hd]
    · rw [State.reorderFall_comp]; simp [hd]

theorem State.chargeBook_comp (c d : CompId) (p : PointId) (m v : Nat) :
    (s.chargeBook c p m v).comp d =
      if d = c then
        (s.comp c).map fun x =>
          { x with
            book := x.book - v, variance := x.variance || decide (x.book < v)
            reorderSent := x.reorderSent || { x with book := x.book - v }.reorderDue }
      else s.comp d := by
  unfold State.chargeBook
  by_cases hd : d = c
  · subst hd
    cases hx : s.comp d with
    | none => simp [hx]
    | some x =>
      dsimp only
      split <;> rename_i h
      · have : ¬ x.book < v := by omega
        simp [hx, State.reorderFall_comp, this, Compartment.reorderDue, Compartment.available]
      · have h1 : x.book < v := by omega
        have h2 : x.book - v = 0 := by omega
        simp [hx, State.reorderFall_comp, h1, h2, Compartment.reorderDue, Compartment.available]
  · cases hx : s.comp c with
    | none => simp [hd]
    | some x => dsimp only; split <;> rw [State.reorderFall_comp] <;> simp [hd]

/-! ### A charge to a book (R123) -/

theorem State.reorderFall_journal (c : CompId) : (s.reorderFall c).journal = s.journal := by
  unfold State.reorderFall; split <;> rfl

@[simp] theorem State.storeSystem_slots (b : RecordBody) :
    (s.storeSystem b).journal.reserved = s.journal.reserved ∧ (s.storeSystem b).journal.tally = s.journal.tally := by
  unfold State.storeSystem; split <;> simp

@[simp] theorem State.chargeBook_slots (c : CompId) (p : PointId) (m v : Nat) :
    (s.chargeBook c p m v).journal.reserved = s.journal.reserved ∧
      (s.chargeBook c p m v).journal.tally = s.journal.tally := by
  unfold State.chargeBook
  split
  · simp
  · split <;> simp [State.modComp]

/-- The BOOK_NEGATIVE record of a charge: written where the book falls short and a slot is free. -/
theorem State.chargeBook_records (c : CompId) (p : PointId) (m v : Nat) :
    ∃ l, (s.chargeBook c p m v).journal.records = s.journal.records ++ l ∧
      ((∀ x, s.comp c = some x → v ≤ x.book) → l = []) ∧
      (s.journal.hasRoom = true → ∀ x, s.comp c = some x → x.book < v →
        ∃ r, l = [r] ∧ r.body = .bookNegative c x.product p m x.book v (v - x.book)) ∧
      ∀ r ∈ l, ∃ q before, r.body = .bookNegative c q p m before v (v - before) := by
  unfold State.chargeBook
  cases hx : s.comp c with
  | none => exact ⟨[], by simp⟩
  | some x =>
    dsimp only
    split
    · rename_i h
      refine ⟨[], by simp [State.modComp], fun _ => rfl, fun _ y hy hl => ?_, by simp⟩
      cases hy; omega
    · rename_i h
      rw [State.reorderFall_journal]
      cases hr : s.journal.hasRoom
      · refine ⟨[], by simp [State.modComp, State.storeSystem_full _ _ hr], fun _ => rfl, by simp, by simp⟩
      · refine ⟨[s.newRecord (.bookNegative c x.product p m x.book v (v - x.book))],
          by simp [State.modComp, State.storeSystem_room _ _ hr], fun k => absurd (k x rfl) h,
          fun _ y hy _ => ⟨_, rfl, by cases hy; rfl⟩, fun r k => ⟨x.product, x.book, ?_⟩⟩
        rw [List.mem_singleton.mp k]; rfl

theorem State.chargeBook_keeps {o : PortId} {n : Notice} (c : CompId) (p : PointId) (m v : Nat)
    (h : (s.port o).has n = true) : ((s.chargeBook c p m v).port o).has n = true := by
  unfold State.chargeBook
  split
  · exact h
  · split
    · exact State.reorderFall_keeps _ _ (by simpa [State.modComp] using h)
    · refine State.reorderFall_keeps _ _ (State.raise_keeps _ _ ?_)
      simpa [State.modComp] using State.storeSystem_keeps s _ h

/-- A book that falls short is told (R123). -/
theorem State.chargeBook_short (c : CompId) (p : PointId) (m v : Nat) (x : Compartment) (hx : s.comp c = some x)
    (hv : x.book < v) (o : PortId) (ho : Notice.stockVariance.ports.port o = true) :
    ((s.chargeBook c p m v).port o).has .stockVariance = true := by
  unfold State.chargeBook
  rw [hx]
  dsimp only
  rw [if_neg (by omega)]
  exact State.reorderFall_keeps _ _ (by rw [State.has_raise, ho]; simp)

end Sys2Proof.Machine
end

