-- ==== Sys2Proof/Laws/Tables.lean ====
section
/-! SUPPORT. The tables: what a lookup finds after each change of the roster and the accounts, and which rows of numbers rise.
-/

namespace Sys2Proof.Machine

open Sys2Proof

/-! ### Rising rows -/

theorem rising_iff {f : Nat × Nat → Nat} (g : List (Nat × Nat) → Bool) (l : List (Nat × Nat)) (h0 : g [] = true)
    (h1 : ∀ a, g [a] = true) (h2 : ∀ a b r, g (a :: b :: r) = (decide (f a < f b) && g (b :: r))) :
    g l = true ↔ l.Pairwise fun x y => f x < f y := by
  induction l with
  | nil => simp [h0]
  | cons a l ih =>
    cases l with
    | nil => simp [h1]
    | cons b r =>
      rw [h2, Bool.and_eq_true, ih, decide_eq_true_eq, List.pairwise_cons (a := a)]
      constructor
      · rintro ⟨hab, hp⟩
        refine ⟨fun c hc => ?_, hp⟩
        rcases List.mem_cons.mp hc with rfl | hc
        · exact hab
        · exact Nat.lt_trans hab ((List.pairwise_cons.mp hp).1 c hc)
      · rintro ⟨h, hp⟩
        exact ⟨h b (by simp), hp⟩

theorem risingFirst_iff (l : List (Nat × Nat)) : risingFirst l = true ↔ l.Pairwise fun x y => x.1 < y.1 :=
  rising_iff (f := fun x => x.1) risingFirst l rfl (fun _ => rfl) fun _ _ _ => rfl

theorem risingSecond_iff (l : List (Nat × Nat)) : risingSecond l = true ↔ l.Pairwise fun x y => x.2 < y.2 :=
  rising_iff (f := fun x => x.2) risingSecond l rfl (fun _ => rfl) fun _ _ _ => rfl

theorem risingStarts_iff (l : List (Nat × Nat)) :
    risingStarts l = true ↔ l.Pairwise fun x y => x.1 * 60 + x.2 < y.1 * 60 + y.2 :=
  rising_iff (f := fun x => x.1 * 60 + x.2) risingStarts l rfl (fun _ => rfl) fun _ _ _ => rfl

/-! ### The roster (R26, R27, R29) -/

theorem findMachine_number {l : List MachineRec} {n : Nat} {m : MachineRec} (h : findMachine l n = some m) :
    m.number = n := by
  simpa using List.find?_some h

theorem findMachine_mem {l : List MachineRec} {n : Nat} {m : MachineRec} (h : findMachine l n = some m) : m ∈ l :=
  List.mem_of_find?_eq_some h

theorem findMachine_put_same (x : MachineRec) (l : List MachineRec) :
    findMachine (putMachineRec x l) x.number = some x := by
  induction l with
  | nil => simp [putMachineRec, findMachine]
  | cons m l ih =>
    unfold putMachineRec
    split
    · simp [findMachine]
    · split
      · simp [findMachine]
      · have : (m.number == x.number) = false := by simp; omega
        simp only [findMachine, List.find?_cons, this]; exact ih

theorem findMachine_put_ne (x : MachineRec) (l : List MachineRec) (k : Nat) (h : k ≠ x.number) :
    findMachine (putMachineRec x l) k = findMachine l k := by
  have hx : (x.number == k) = false := by simpa using fun e => h e.symm
  induction l with
  | nil => simp [putMachineRec, findMachine, hx]
  | cons m l ih =>
    unfold putMachineRec
    split
    · simp [findMachine, hx]
    · split
      · rename_i e
        have hm : (m.number == k) = false := by rw [← e]; exact hx
        simp [findMachine, hx, hm]
      · simp only [findMachine, List.find?_cons] at ih ⊢
        rw [ih]

theorem findMachine_drop (n k : Nat) (l : List MachineRec) :
    findMachine (dropMachineRec n l) k = if k = n then none else findMachine l k := by
  induction l with
  | nil => simp [dropMachineRec, findMachine]
  | cons m l ih =>
    simp only [dropMachineRec, findMachine] at ih ⊢
    by_cases hm : m.number = n
    · have e : (m.number != n) = false := by simp [hm]
      simp only [List.filter_cons, e]
      rw [if_neg (by simp), ih]
      by_cases hk : k = n
      · simp [hk]
      · have : (m.number == k) = false := by simp; omega
        simp [this]
    · have e : (m.number != n) = true := by simp [hm]
      simp only [List.filter_cons, e, if_true, List.find?_cons]
      rw [ih]
      by_cases hk : k = n
      · have : (m.number == n) = false := by simp; omega
        simp [hk, this]
      · simp [hk]

/-- A change of every record that keeps its number is found as the changed record. -/
theorem findMachine_map (l : List MachineRec) (f : MachineRec → MachineRec) (hf : ∀ m, (f m).number = m.number) (k : Nat) :
    findMachine (l.map f) k = (findMachine l k).map f := by
  simp only [findMachine, List.find?_map]
  congr 1
  congr 1
  funext m
  simp [hf]

theorem State.modMachine_find (s : State) (n : Nat) (f : MachineRec → MachineRec) (hf : ∀ m, (f m).number = m.number)
    (k : Nat) :
    findMachine (s.modMachine n f).roster k = (findMachine s.roster k).map fun m => if k = n then f m else m := by
  have e : (s.modMachine n f).roster = s.roster.map fun m => if m.number = n then f m else m := rfl
  rw [e, findMachine_map _ _ (by intro m; split <;> simp [hf])]
  cases h : findMachine s.roster k with
  | none => rfl
  | some m => simp [findMachine_number h]

theorem nextMachine_eq {l : List MachineRec} (hl : l.Pairwise fun x y => x.number < y.number) {n : Nat} {m : MachineRec}
    (hm : m ∈ l) (hn : n < m.number) (hmin : ∀ x ∈ l, n < x.number → m.number ≤ x.number) :
    nextMachine l n = some m := by
  induction l with
  | nil => cases hm
  | cons a l ih =>
    simp only [List.pairwise_cons] at hl
    unfold nextMachine
    rw [List.find?_cons]
    by_cases ha : n < a.number
    · simp only [ha, decide_true]
      rcases List.mem_cons.mp hm with rfl | hm'
      · rfl
      · have := hmin a (by simp) ha
        have := hl.1 m hm'
        omega
    · simp only [ha, decide_false]
      rcases List.mem_cons.mp hm with rfl | hm'
      · exact absurd hn ha
      · exact ih hl.2 hm' fun x hx => hmin x (by simp [hx])

theorem findMachine_eq {l : List MachineRec} (hl : l.Pairwise fun x y => x.number < y.number) {m : MachineRec}
    (hm : m ∈ l) : findMachine l m.number = some m := by
  induction l with
  | nil => cases hm
  | cons a l ih =>
    simp only [List.pairwise_cons] at hl
    unfold findMachine
    rw [List.find?_cons]
    rcases List.mem_cons.mp hm with rfl | hm'
    · simp
    · have := hl.1 m hm'
      have e : (a.number == m.number) = false := by simp; omega
      simp only [e]
      exact ih hl.2 hm'

theorem findTag_eq {l : List MachineRec}
    (hl : l.Pairwise fun x y => x.number < y.number ∧ ∀ t, x.tagId = some t → y.tagId ≠ some t) {t : TagId}
    {m : MachineRec} (hm : m ∈ l) (ht : m.tagId = some t) : findTag l t = some m := by
  induction l with
  | nil => cases hm
  | cons a l ih =>
    simp only [List.pairwise_cons] at hl
    unfold findTag
    rw [List.find?_cons]
    by_cases ha : a.tagId = some t
    · simp only [ha, beq_self_eq_true]
      rcases List.mem_cons.mp hm with rfl | hm'
      · rfl
      · exact absurd ht ((hl.1 m hm').2 t ha)
    · have : (a.tagId == some t) = false := by simpa using ha
      simp only [this]
      rcases List.mem_cons.mp hm with rfl | hm'
      · exact absurd ht ha
      · exact ih hl.2 hm'

/-! ### The accounts (R45, R46) -/

theorem findAccount_number {l : List Account} {n : Nat} {a : Account} (h : findAccount l n = some a) : a.number = n := by
  simpa using List.find?_some h

theorem findAccount_put_same (x : Account) (l : List Account) : findAccount (putAccountRec x l) x.number = some x := by
  induction l with
  | nil => simp [putAccountRec, findAccount]
  | cons m l ih =>
    unfold putAccountRec
    split
    · simp [findAccount]
    · split
      · simp [findAccount]
      · have : (m.number == x.number) = false := by simp; omega
        simp only [findAccount, List.find?_cons, this]; exact ih

theorem findAccount_put_ne (x : Account) (l : List Account) (k : Nat) (h : k ≠ x.number) :
    findAccount (putAccountRec x l) k = findAccount l k := by
  have hx : (x.number == k) = false := by simpa using fun e => h e.symm
  induction l with
  | nil => simp [putAccountRec, findAccount, hx]
  | cons m l ih =>
    unfold putAccountRec
    split
    · simp [findAccount, hx]
    · split
      · rename_i e
        have hm : (m.number == k) = false := by rw [← e]; exact hx
        simp [findAccount, hx, hm]
      · simp only [findAccount, List.find?_cons] at ih ⊢
        rw [ih]

theorem findAccount_map (l : List Account) (f : Account → Account) (hf : ∀ a, (f a).number = a.number) (k : Nat) :
    findAccount (l.map f) k = (findAccount l k).map f := by
  simp only [findAccount, List.find?_map]
  congr 1
  congr 1
  funext m
  simp [hf]

theorem State.modAccount_find (s : State) (n : Nat) (f : Account → Account) (hf : ∀ a, (f a).number = a.number)
    (k : Nat) :
    findAccount (s.modAccount n f).accounts k = (findAccount s.accounts k).map fun a => if k = n then f a else a := by
  have e : (s.modAccount n f).accounts = s.accounts.map fun a => if a.number = n then f a else a := rfl
  rw [e, findAccount_map _ _ (by intro m; split <;> simp [hf])]
  cases h : findAccount s.accounts k with
  | none => rfl
  | some m => simp [findAccount_number h]

theorem findAccount_eq {l : List Account} (hl : l.Pairwise fun x y => x.number < y.number) {a : Account}
    (ha : a ∈ l) : findAccount l a.number = some a := by
  induction l with
  | nil => cases ha
  | cons b l ih =>
    simp only [List.pairwise_cons] at hl
    unfold findAccount
    rw [List.find?_cons]
    rcases List.mem_cons.mp ha with rfl | ha'
    · simp
    · have := hl.1 a ha'
      have e : (b.number == a.number) = false := by simp; omega
      simp only [e]
      exact ih hl.2 ha'

end Sys2Proof.Machine
end

