-- ==== Sys2Proof/Laws/Points.lean ====
section
/-! SUPPORT. The moves of a delivery point, each followed by the other blocks: into FINISHING, into SUSPENDED, through a
window's end, and closed. -/

namespace Sys2Proof.Machine

open Sys2Proof

theorem Point.MovesTo.context {x y : Point} (h : x.MovesTo y) : y.context = x.context := by rw [h.kept]

theorem Arbiter.holdClaim_ne (a : Arbiter) (p : PointId) : (a.holdClaim p).claims.get p ≠ .flowing := by
  unfold Arbiter.holdClaim
  split
  · split <;> simp [Arbiter.dropClaim]
  · assumption

theorem Arbiter.holdClaim_requests (a : Arbiter) (p : PointId) :
    (a.holdClaim p).waiting = a.waiting ∧ (a.holdClaim p).admitted = a.admitted ∧
      (a.holdClaim p).selector = a.selector := by
  unfold Arbiter.holdClaim
  split
  · split <;> simp [Arbiter.dropClaim]
  · simp

/-! ### FINISHING (R79) -/

theorem State.finish_point_ne (s : State) (p q : PointId) (k : EndCause) (h : q ≠ p) :
    (s.finish p k).point q = s.point q := by
  simp [State.finish, h, State.stopGrace]

theorem State.finish_context (s : State) (p q : PointId) (k : EndCause) :
    ((s.finish p k).point q).context = (s.point q).context := by
  by_cases h : q = p
  · subst h; simp [State.finish, Point.shut, Point.stopTimers]
  · rw [State.finish_point_ne _ _ _ _ h]

/-- A point in FINISHING is left so by the blocks that follow. -/
theorem State.Finished.followed {s u t : State} {p : PointId} {k : EndCause} (h : s.Finished u p k)
    (hf : u.FollowedBy t) : s.Finished t p k := by
  have hns : (u.point p).state ≠ .waitSuction := by rw [h.state.1]; simp
  have hq := (hf.points p).still hns
  have hn := hf.noRequest p hns h.suction.1 h.suction.2.1
  have hco := hf.couplersStill p hns
  exact ⟨hq ▸ h.state, hq ▸ h.valves, hq ▸ hco ▸ h.timers,
    ⟨hn.1, hn.2.1, hn.2.2.1.trans h.suction.2.2.1, hn.2.2.2.trans h.suction.2.2.2⟩, hq ▸ h.context⟩

theorem State.finish_finishes (s : State) (p : PointId) (k : EndCause) : s.Finished (s.finish p k) p k := by
  constructor <;>
    simp [State.finish, Point.shut, Point.stopTimers, State.stopGrace, Arbiter.withdraw, Arbiter.dropClaim]

/-- A point that enters FINISHING has entered it after the other blocks have followed. -/
theorem State.finish_finished {s t : State} {p : PointId} {k : EndCause} (hf : (s.finish p k).FollowedBy t) :
    s.Finished t p k := (State.finish_finishes s p k).followed hf

/-! ### SUSPENDED (R80 to R84) -/

theorem State.suspend_point_ne (s : State) (p q : PointId) (k : Cause) (h : q ≠ p) :
    (s.suspend p k).point q = s.point q := by
  simp [State.suspend, h]

theorem State.suspendFlow_point_ne (s : State) (p q : PointId) (k : Cause) (h : q ≠ p) :
    (s.suspendFlow p k).point q = s.point q := by
  unfold State.suspendFlow; split
  · exact State.suspend_point_ne _ _ _ _ h
  · rfl

theorem State.suspend_arbiter (s : State) (p : PointId) (k : Cause) :
    (s.suspend p k).arbiter = (s.arbiter.withdraw p).holdClaim p := rfl

/-- A suspended point is left so by the blocks that follow. -/
theorem State.Suspended.followed {s u t : State} {p : PointId} {k : Cause} (h : s.Suspended u p k)
    (hf : u.FollowedBy t) : s.Suspended t p k := by
  have hns : (u.point p).state ≠ .waitSuction := by rw [h.state]; simp
  have hq := (hf.points p).still hns
  have hn := hf.noRequest p hns h.suction.1 h.suction.2.1
  exact ⟨hq ▸ h.state, hq ▸ h.valves, hq ▸ h.pressWait, hq ▸ h.pumpSuspend,
    ⟨hn.1, hn.2.1, hn.2.2.1 ▸ h.suction.2.2⟩, hq ▸ h.context⟩

theorem State.suspend_suspends (s : State) (p : PointId) (k : Cause) : s.Suspended (s.suspend p k) p k := by
  have hr := Arbiter.holdClaim_requests (s.arbiter.withdraw p) p
  constructor
  · simp [State.suspend]
  · simp [State.suspend, Point.shut, Point.stopTimers]
  · simp [State.suspend]
  · simp [State.suspend]
  · rw [State.suspend_arbiter, hr.1, hr.2.1]
    exact ⟨by simp [Arbiter.withdraw], by simp [Arbiter.withdraw], Arbiter.holdClaim_ne _ _⟩
  · simp [State.suspend, Point.shut, Point.stopTimers]

/-- A point that is suspended is so after the other blocks have followed. -/
theorem State.suspend_suspended {s t : State} {p : PointId} {k : Cause} (hf : (s.suspend p k).FollowedBy t) :
    s.Suspended t p k := (State.suspend_suspends s p k).followed hf

/-- What a suspension of one point leaves of the other's requests and claim. -/
theorem State.suspendFlow_other (s : State) (p q : PointId) (k : Cause) (h : q ≠ p) :
    (s.suspendFlow p k).arbiter.waiting.get q = s.arbiter.waiting.get q ∧
      (s.suspendFlow p k).arbiter.admitted.get q = s.arbiter.admitted.get q ∧
      (s.suspendFlow p k).arbiter.claims.get q = s.arbiter.claims.get q := by
  unfold State.suspendFlow
  split
  · rw [State.suspend_arbiter]
    unfold Arbiter.holdClaim
    split
    · split <;> simp [Arbiter.dropClaim, Arbiter.withdraw, h]
    · simp [Arbiter.withdraw, h]
  · simp

/-- Both points are suspended where they want flow, whichever is first (R82, R83). -/
theorem State.suspendBoth (s : State) (k : Cause) (p : PointId) :
    ((s.point p).state.wantsFlow = true → s.Suspended ((s.suspendFlow .a k).suspendFlow .b k) p k) ∧
      ((s.point p).state.wantsFlow = false → ((s.suspendFlow .a k).suspendFlow .b k).point p = s.point p) := by
  have hb : ∀ v : State, (v.point .b).state.wantsFlow = false → v.suspendFlow .b k = v := by
    intro v h; simp [State.suspendFlow, h]
  cases p
  · refine ⟨fun h => ?_, fun h => ?_⟩
    · have e : s.suspendFlow .a k = s.suspend .a k := by simp [State.suspendFlow, h]
      have hs := State.suspend_suspends s .a k
      rw [← e] at hs
      generalize s.suspendFlow .a k = v at hs
      have hp := State.suspendFlow_point_ne v .b .a k (by decide)
      have ho := State.suspendFlow_other v .b .a k (by decide)
      exact ⟨hp ▸ hs.state, hp ▸ hs.valves, hp ▸ hs.pressWait, hp ▸ hs.pumpSuspend,
        ⟨ho.1.trans hs.suction.1, ho.2.1.trans hs.suction.2.1, ho.2.2 ▸ hs.suction.2.2⟩, hp ▸ hs.context⟩
    · rw [State.suspendFlow_point_ne _ _ _ _ (by decide)]
      simp [State.suspendFlow, h]
  · have hp := State.suspendFlow_point_ne s .a .b k (by decide)
    refine ⟨fun h => ?_, fun h => ?_⟩
    · have e : (s.suspendFlow .a k).suspendFlow .b k = (s.suspendFlow .a k).suspend .b k := by
        rw [State.suspendFlow, hp, h]; rfl
      rw [e]
      have hs := State.suspend_suspends (s.suspendFlow .a k) .b k
      have ht : (s.suspendFlow .a k).times = s.times := by simp
      exact ⟨hs.state, hs.valves, ht ▸ hs.pressWait, ht ▸ hs.pumpSuspend, hs.suction, by rw [hs.context, hp]⟩
    · rw [← hp]; rw [hb]; rw [hp]; exact h

/-! ### Window ends (R77) -/

theorem State.compareFlow_context (s : State) (p q : PointId) :
    ((s.compareFlow p).point q).context = (s.point q).context := by
  unfold State.compareFlow
  split
  · split
    · exact State.finish_context _ _ _ _
    · split
      · by_cases h : q = p
        · subst h; simp
        · simp [h]
      · rfl
  · rfl

/-- A window's end at a point makes the comparison of R77 where it is FLOWING, and the other blocks then follow. -/
theorem State.pointWindow_follows (s : State) (p : PointId) :
    ∃ u, (u = s ∨ ((s.point p).state.isFlowing = true ∧ u = s.compareFlow p)) ∧ u.FollowedBy (s.pointWindow p) := by
  unfold State.pointWindow
  split
  · rename_i h
    refine ⟨_, .inr ⟨h, rfl⟩, ?_⟩
    dsimp only
    split
    · exact (State.follow_followedBy _ _).trans (State.testNoFlow_followedBy _)
    · exact State.follow_followedBy _ _
  · exact ⟨s, .inl rfl, .refl s⟩

/-! ### A close (R62, R63, R88) -/

theorem State.chargeAccount_find (s : State) (n m k : Nat) :
    findAccount (s.chargeAccount n m).accounts k =
      (findAccount s.accounts k).map fun a => if k = n then a.charge m else a := by
  have e : (s.chargeAccount n m).accounts = (s.modAccount n fun a => a.charge m).accounts := by
    unfold State.chargeAccount; dsimp only; split <;> simp
  rw [e]
  exact State.modAccount_find _ _ _ (by intro a; rfl) _

theorem State.releaseDelivery_comp (s : State) (p : PointId) (d : Delivery) (c : CompId) :
    (s.releaseDelivery p d).comp c =
      if c = d.current.comp then (s.comp c).map fun x => { x with reserved := x.reserved - d.current.remaining }
      else s.comp c := by
  simp only [State.releaseDelivery, State.unbindChannel_frame, State.releaseOn_comp]
  split
  · rename_i h; subst h; simp
  · simp

/-- A release returns a delivery's reservations (R62). -/
theorem State.releaseDelivery_settles (s : State) (p : PointId) (d : Delivery) :
    s.Settles (s.releaseDelivery p d) d true := by
  refine ⟨fun n => ?_, fun n => ?_, fun c => ?_, ?_⟩
  · have e : (s.releaseDelivery p d).roster = (s.modMachine d.machine fun m => { m with reserved := 0 }).roster := by
      simp [State.releaseDelivery]
    rw [e, State.modMachine_find _ _ _ (by intro m; rfl)]
    congr 1; funext m
    by_cases h : n = d.machine <;> simp [h]
  · have e : (s.releaseDelivery p d).accounts =
        (s.modAccount d.account fun a => { a with reserved := a.reserved - d.reservation }).accounts := by
      simp [State.releaseDelivery, State.modAccount]
    rw [e, State.modAccount_find _ _ _ (by intro a; rfl)]
    cases findAccount s.accounts n with
    | none => rfl
    | some a => by_cases h : n = d.account <;> simp [h]
  · rw [State.releaseDelivery_comp]
    split
    · cases s.comp c <;> simp
    · cases s.comp c <;> simp
  · simp

/-- The charge to the books by the segments: the fall of each compartment's book, held at 0 with VARIANCE (R63, R123). -/
theorem State.charges_stock (s : State) (p : PointId) (d : Delivery) (c : CompId) :
    ((d.charges.foldl (fun s x => s.chargeBook x.1 p d.machine x.2) s).comp c).map
        (fun x => (x.book, x.reserved, x.variance)) =
      (s.comp c).map fun x => (x.book - d.fallOn c, x.reserved, x.variance || decide (x.book < d.fallOn c)) := by
  unfold Delivery.charges Delivery.fallOn
  cases he : d.earlier with
  | none =>
    simp only [List.foldl_cons, List.foldl_nil, State.chargeBook_comp]
    by_cases h : c = d.current.comp
    · subst h; cases s.comp d.current.comp <;> simp
    · have h' : ¬ d.current.comp = c := fun k => h k.symm
      cases s.comp c <;> simp [h, h']
  | some e =>
    simp only [List.foldl_cons, List.foldl_nil, State.chargeBook_comp]
    by_cases h1 : c = e.comp <;> by_cases h2 : c = d.current.comp
    · subst h1
      cases hx : s.comp e.comp with
      | none => simp [← h2]
      | some x =>
        simp only [← h2, if_true, hx, Option.map_some, Option.elim_some, Option.some.injEq, Prod.mk.injEq, true_and]
        refine ⟨by omega, ?_⟩
        rw [Bool.eq_iff_iff]
        simp only [Bool.or_eq_true, decide_eq_true_eq, or_assoc]
        constructor
        · rintro (a | a | a)
          · exact .inl a
          · exact .inr (by omega)
          · exact .inr (by omega)
        · rintro (a | a)
          · exact .inl a
          · by_cases b : x.book < cLof e.net_uL
            · exact .inr (.inl b)
            · exact .inr (.inr (by omega))
    · subst h1
      have h2' : ¬ d.current.comp = e.comp := fun k => h2 k.symm
      cases s.comp e.comp <;> simp [h2, h2']
    · subst h2
      have h1' : ¬ e.comp = d.current.comp := fun k => h1 k.symm
      cases s.comp d.current.comp <;> simp [h1, h1']
    · have h1' : ¬ e.comp = c := fun k => h1 k.symm
      have h2' : ¬ d.current.comp = c := fun k => h2 k.symm
      cases s.comp c <;> simp [h1, h2, h1', h2']

theorem State.charges_keeps {s : State} {o : PortId} {n : Notice} (p : PointId) (d : Delivery)
    (h : (s.port o).has n = true) :
    (((d.charges.foldl (fun s x => s.chargeBook x.1 p d.machine x.2) s).port o).has n = true) := by
  unfold Delivery.charges
  split
  · exact State.chargeBook_keeps _ _ _ _ _ h
  · exact State.chargeBook_keeps _ _ _ _ _ (State.chargeBook_keeps _ _ _ _ _ h)

/-- A book that a close takes below 0 is told (R123). -/
theorem State.charges_short (s : State) (p : PointId) (d : Delivery) (c : CompId) (x : Compartment)
    (hx : s.comp c = some x) (hv : x.book < d.fallOn c) (o : PortId) (ho : Notice.stockVariance.ports.port o = true) :
    ((d.charges.foldl (fun s x => s.chargeBook x.1 p d.machine x.2) s).port o).has .stockVariance = true := by
  unfold Delivery.fallOn at hv
  unfold Delivery.charges
  cases he : d.earlier with
  | none =>
    rw [he] at hv
    by_cases h : d.current.comp = c
    · subst h
      exact State.chargeBook_short _ _ _ _ _ x hx (by simpa using hv) o ho
    · simp [h] at hv
  | some e =>
    rw [he] at hv
    simp only [List.foldl_cons, List.foldl_nil]
    simp only [Option.elim_some] at hv
    by_cases h1 : x.book < (if e.comp = c then cLof e.net_uL else 0)
    · refine State.chargeBook_keeps _ _ _ _ _ ?_
      split at h1
      · rename_i k; subst k
        exact State.chargeBook_short _ _ _ _ _ x hx h1 o ho
      · omega
    · by_cases h : d.current.comp = c
      · subst h
        rw [if_pos rfl] at hv
        have hc := State.chargeBook_comp s e.comp d.current.comp p d.machine (cLof e.net_uL)
        rw [hx] at hc
        by_cases k : d.current.comp = e.comp
        · rw [if_pos k, ← k, hx] at hc
          rw [if_pos k.symm] at h1 hv
          exact State.chargeBook_short _ _ _ _ _ _ (by rw [← k]; exact hc) (by dsimp only; omega) o ho
        · rw [if_neg k] at hc
          rw [if_neg fun q => k q.symm] at h1 hv
          exact State.chargeBook_short _ _ _ _ _ x hc (by omega) o ho
      · rw [if_neg h] at hv; omega

/-- The BOOK_NEGATIVE records of a charge (R123). -/
theorem State.charges_records (s : State) (p : PointId) (d : Delivery) :
    ∃ l, (d.charges.foldl (fun s x => s.chargeBook x.1 p d.machine x.2) s).journal.records = s.journal.records ++ l ∧
      s.ShortRecords p d l := by
  unfold Delivery.charges
  cases he : d.earlier with
  | none =>
    obtain ⟨l, h1, h2, h3, h4⟩ := State.chargeBook_records s d.current.comp p d.machine (cLof d.net_uL)
    refine ⟨l, h1, ⟨fun k => h2 fun x hx => ?_, fun _ hr x hx hv => h3 hr x hx hv, fun r hr => ?_⟩⟩
    · have := k _ x hx
      simpa [Delivery.fallOn, he] using this
    · obtain ⟨q, b, e⟩ := h4 r hr
      exact ⟨_, q, b, _, e⟩
  | some e =>
    simp only [List.foldl_cons, List.foldl_nil]
    have hc := State.chargeBook_comp s e.comp d.current.comp p d.machine (cLof e.net_uL)
    obtain ⟨l, h1, h2, h3, h4⟩ := State.chargeBook_records s e.comp p d.machine (cLof e.net_uL)
    generalize s.chargeBook e.comp p d.machine (cLof e.net_uL) = u at *
    obtain ⟨m, g1, g2, g3, g4⟩ :=
      State.chargeBook_records u d.current.comp p d.machine (cLof d.net_uL - cLof e.net_uL)
    refine ⟨l ++ m, by rw [g1, h1, List.append_assoc], ⟨fun k => ?_, fun k => (by rw [he] at k; cases k), fun r hr => ?_⟩⟩
    · rw [h2, g2]
      · rfl
      · intro x hx
        rw [hc] at hx
        cases hy : s.comp d.current.comp with
        | none =>
          split at hx
          · rename_i q; rw [← q, hy] at hx; cases hx
          · rw [hy] at hx; cases hx
        | some y =>
          have := k _ y hy
          simp only [Delivery.fallOn, he, Option.elim_some, if_true] at this
          split at hx
          · rename_i q
            rw [← q, hy] at hx
            simp only [Option.map_some, Option.some.injEq] at hx
            rw [if_pos q.symm] at this
            rw [← hx]; dsimp only; omega
          · rw [hy] at hx; cases hx; omega
      · intro x hx
        have := k _ x hx
        simp only [Delivery.fallOn, he, Option.elim_some, if_true] at this
        omega
    · rcases List.mem_append.mp hr with k | k
      · obtain ⟨q, b, e⟩ := h4 r k
        exact ⟨_, q, b, _, e⟩
      · obtain ⟨q, b, e⟩ := g4 r k
        exact ⟨_, q, b, _, e⟩

@[simp] theorem State.charges_slots (s : State) (p : PointId) (d : Delivery) :
    (d.charges.foldl (fun s x => s.chargeBook x.1 p d.machine x.2) s).journal.reserved = s.journal.reserved ∧
      (d.charges.foldl (fun s x => s.chargeBook x.1 p d.machine x.2) s).journal.tally = s.journal.tally := by
  unfold Delivery.charges; split <;> simp

theorem State.chargeAccount_keeps {s : State} {o : PortId} {k : Notice} (n m : Nat) (h : (s.port o).has k = true) :
    ((s.chargeAccount n m).port o).has k = true := by
  unfold State.chargeAccount; dsimp only; split
  · exact State.raise_keeps _ _ (by simpa [State.modAccount] using h)
  · simpa [State.modAccount] using h

/-- What a charge of a released delivery does to the tables, the stock, the tally and the notices (R63). -/
theorem State.chargeDelivery_books (s : State) (p : PointId) (d : Delivery) (k : EndCause) (b : Bool) :
    (∀ n, findMachine (s.chargeDelivery p d k b).roster n =
      (findMachine s.roster n).map fun m => if n = d.machine then m.charge (cLof d.net_uL) d.hours else m) ∧
    (∀ n, findAccount (s.chargeDelivery p d k b).accounts n =
      (findAccount s.accounts n).map fun a =>
        if n = d.account then a.charge (billAmount (cLof d.net_uL) d.price) else a) ∧
    (∀ c, ((s.chargeDelivery p d k b).comp c).map (fun x => (x.book, x.reserved, x.variance)) =
      (s.comp c).map fun x => (x.book - d.fallOn c, x.reserved, x.variance || decide (x.book < d.fallOn c))) ∧
    (s.chargeDelivery p d k b).journal.tally = s.journal.tally.add d.product (cLof d.net_uL) ∧
    (s.chargeDelivery p d k b).journal.reserved = s.journal.reserved - 1 ∧
    (∀ o n, (s.port o).has n = true → ((s.chargeDelivery p d k b).port o).has n = true) ∧
    s.Warns (s.chargeDelivery p d k b) d := by
  let u := (s.modMachine d.machine fun m => m.charge (cLof d.net_uL) d.hours).chargeAccount d.account
    (billAmount (cLof d.net_uL) d.price)
  have hc : ∀ c, u.comp c = s.comp c := by intro c; simp [u]
  have hk : ∀ o n, (u.port o).has n = true → ((s.chargeDelivery p d k b).port o).has n = true := by
    intro o n h
    unfold State.chargeDelivery
    dsimp only
    rw [show ∀ v : State, ∀ q m, (v.tallyDelivery q m).port o = v.port o by intro v q m; simp]
    exact State.storeReserved_keeps _ _ (State.charges_keeps p d h)
  refine ⟨fun n => ?_, fun n => ?_, fun c => ?_, ?_, ?_, fun o n h => hk o n ?_, ⟨fun a h1 h2 h3 h4 => ?_, fun c x hx hv => ?_⟩⟩
  · have e : (s.chargeDelivery p d k b).roster =
        (s.modMachine d.machine fun m => m.charge (cLof d.net_uL) d.hours).roster := by
      unfold State.chargeDelivery Delivery.charges; dsimp only; split <;> simp
    rw [e]
    exact State.modMachine_find _ _ _ (by intro m; rfl) _
  · have e : (s.chargeDelivery p d k b).accounts = u.accounts := by
      unfold State.chargeDelivery Delivery.charges; dsimp only; split <;> simp [u]
    rw [e, State.chargeAccount_find]
    rfl
  · rw [← hc c, ← State.charges_stock u p d c]
    unfold State.chargeDelivery
    simp [u]
  · unfold State.chargeDelivery
    simp [State.tallyDelivery, State.modMachine]
  · unfold State.chargeDelivery
    simp [State.tallyDelivery, State.modMachine]
  · exact State.chargeAccount_keeps _ _ (by simpa [State.modMachine] using h)
  · have hw : ∀ o, Notice.creditStop.ports.port o = true → (u.port o).has .creditStop = true := by
      intro o ho
      have ha : (findAccount (s.modMachine d.machine fun m => m.charge (cLof d.net_uL) d.hours).accounts d.account) =
          some a := by rw [← h1]; rfl
      simp only [u, State.chargeAccount]
      rw [if_pos]
      · rw [State.has_raise, ho]; simp
      · rw [ha]
        simp only [Option.any_some, Account.charge, Account.reached, h2, Bool.not_false, Bool.true_and, Bool.false_or,
          Bool.and_eq_true, bne_iff_ne, ne_eq, decide_eq_true_eq]
        exact ⟨h3, h4⟩
    exact ⟨hk _ _ (hw _ rfl), hk _ _ (hw _ rfl)⟩
  · have hs : ∀ o, Notice.stockVariance.ports.port o = true →
        ((s.chargeDelivery p d k b).port o).has .stockVariance = true := by
      intro o ho
      unfold State.chargeDelivery
      dsimp only
      rw [show ∀ v : State, ∀ q m, (v.tallyDelivery q m).port o = v.port o by intro v q m; simp]
      exact State.storeReserved_keeps _ _ (State.charges_short u p d c x (by rw [hc]; exact hx) hv o ho)
    exact ⟨hs _ rfl, hs _ rfl⟩

/-- A charged delivery's record is the newest of the journal, behind the records of the charge (R89, R123, R154). -/
theorem State.chargeDelivery_record (s : State) (p : PointId) (d : Delivery) (k : EndCause) (b : Bool) :
    ∃ l r, (s.chargeDelivery p d k b).journal.records = s.journal.records ++ l ++ [r] ∧ s.ShortRecords p d l ∧
      (s.chargeDelivery p d k b).journal.next = r.seq + 1 ∧ r.time = s.clock.now ∧
      r.body =
        .delivery
          (deliveryRecordOf p d k ((findMachine s.roster d.machine).any fun m => hoursBackward d.hours m.lastHours)
            b) := by
  let v := (s.modMachine d.machine fun m => m.charge (cLof d.net_uL) d.hours).chargeAccount d.account
    (billAmount (cLof d.net_uL) d.price)
  obtain ⟨l, h1, h2⟩ := State.charges_records v p d
  have hj : v.journal = s.journal := by simp [v, State.modMachine]
  have hc : ∀ c, v.comp c = s.comp c := by intro c; simp [v]
  have h2' : s.ShortRecords p d l := by
    obtain ⟨a1, a2, a3⟩ := h2
    simp only [hj, hc] at a1 a2
    exact ⟨a1, a2, a3⟩
  rw [hj] at h1
  unfold State.chargeDelivery
  dsimp only
  generalize hu : List.foldl _ _ d.charges = u
  have e : u = d.charges.foldl (fun s x => s.chargeBook x.1 p d.machine x.2) v := hu.symm
  rw [← e] at h1
  have hclock : u.clock = s.clock := by
    subst hu; unfold Delivery.charges; split <;> simp
  refine ⟨l, u.newRecord _, ?_, h2', ?_, ?_, rfl⟩
  · simp [State.tallyDelivery, h1]
  · simp [State.tallyDelivery, State.newRecord]
  · simp [State.newRecord, hclock]

/-- What the close of an open delivery leaves in the tables, the stock and the journal, with its record or without one
where it is void (R62, R63, R88, R89). -/
theorem State.close_books {s : State} {p : PointId} {d : Delivery} (k : EndCause) (b : Bool)
    (hd : (s.point p).context = some d) :
    (∀ o n, (s.port o).has n = true → ((s.close p k b).port o).has n = true) ∧
    (∀ o, (if d.isVoid k then Notice.deliveryVoid else .deliveryClosed).ports.port o = true →
      ((s.close p k b).port o).has (if d.isVoid k then .deliveryVoid else .deliveryClosed) = true) ∧
    (s.close p k b).journal.reserved = s.journal.reserved - 1 ∧
    (d.isVoid k = true →
      (s.close p k b).journal.records = s.journal.records ∧ s.Settles (s.close p k b) d true ∧
        ((s.close p k b).point p).lastClose = some { seq := none, cause := k }) ∧
    (d.isVoid k = false →
      ∃ r, s.Records (s.close p k b) p d k b r ∧ s.Warns (s.close p k b) d ∧
        ((s.close p k b).point p).lastClose = some { seq := some r.seq, cause := k }) := by
  let q := s.quietPoint p
  let r := q.releaseDelivery p d
  let v := if d.isVoid k then r.returnSlot else r.chargeDelivery p d k b
  let seq := if d.isVoid k then none else some (v.journal.next - 1)
  let w := v.setPoint p ((v.point p).closed { seq := seq, cause := k })
  have hc : s.close p k b =
      (w.raise (if d.isVoid k then .deliveryVoid else .deliveryClosed)).startSettle d.current.comp := by
    simp only [State.close, hd]; rfl
  have hlast : ((s.close p k b).point p).lastClose = some { seq := seq, cause := k } := by
    rw [hc]; simp [w, Point.closed]
  have hros : (s.close p k b).roster = v.roster := by rw [hc]; simp [w]
  have hacc : (s.close p k b).accounts = v.accounts := by rw [hc]; simp [w]
  have hjo : (s.close p k b).journal = v.journal := by
    rw [hc]; show ((w.raise _).startSettle _).journal = _; simp [w]
  have hpo : ∀ o, (s.close p k b).port o = (w.raise (if d.isVoid k then .deliveryVoid else .deliveryClosed)).port o := by
    intro o; rw [hc]; simp
  have hcm : ∀ c, ((s.close p k b).comp c).map (fun x => (x.book, x.reserved, x.variance)) =
      (v.comp c).map fun x => (x.book, x.reserved, x.variance) := by
    intro c
    rw [hc, State.startSettle_comp]
    have : (w.raise (if d.isVoid k then .deliveryVoid else .deliveryClosed)).comp c = v.comp c := by simp [w]
    split
    · rename_i h; subst h; rw [this]; cases v.comp d.current.comp with
      | none => rfl
      | some x =>
        simp only [Option.map_some, Option.some.injEq]
        generalize State.quiet _ _ = z
        cases z <;> rfl
    · rw [this]
  have hqs : q.roster = s.roster ∧ q.accounts = s.accounts ∧ (∀ c, q.comp c = s.comp c) ∧ q.clock = s.clock ∧
      q.journal = s.journal := by simp [q]
  have hrp : ∀ o, r.port o = s.port o := by
    intro o
    simp [r, q, State.releaseDelivery, State.quietPoint, State.stopGrace, State.modMachine, State.modAccount,
      State.releaseOn, State.modComp, State.unbindChannel, State.port]
  have hrj : r.journal = s.journal := by
    simp [r, q, State.releaseDelivery, State.releaseOn, State.modComp, State.unbindChannel]
  have hset := State.releaseDelivery_settles q p d
  obtain ⟨b1, b2, b3, b4, b5, b6, b7⟩ := State.chargeDelivery_books r p d k b
  have hvk : ∀ o n, (s.port o).has n = true → (v.port o).has n = true := by
    intro o n h
    simp only [v]; split
    · simpa [hrp] using h
    · exact b6 o n (by rw [hrp]; exact h)
  have hvc : ∀ o n, (v.port o).has n = true → ((s.close p k b).port o).has n = true := by
    intro o n h
    rw [hpo]; exact State.raise_keeps _ _ (by simpa [w] using h)
  refine ⟨fun o n h => hvc o n (hvk o n h), fun o ho => ?_, ?_, fun hv => ?_, fun hv => ?_⟩
  · rw [hpo, State.has_raise, ho]; simp
  · rw [hjo]; simp only [v]; split
    · simp [State.returnSlot, hrj]
    · rw [b5, hrj]
  · have ev : v = r.returnSlot := by simp [v, hv]
    refine ⟨?_, ⟨fun n => ?_, fun n => ?_, fun c => ?_, ?_⟩, ?_⟩
    · rw [hjo, ev]; simp [State.returnSlot, hrj]
    · rw [hros, ev]; simpa [hqs.1] using hset.machines n
    · rw [hacc, ev]; simpa [hqs.2.1] using hset.accounts n
    · rw [hcm, ev]; simpa [hqs.2.2.1] using hset.stock c
    · rw [hjo, ev]; simp [State.returnSlot, hrj]
    · rw [hlast]; simp [seq, hv]
  · have ev : v = r.chargeDelivery p d k b := by simp [v, hv]
    obtain ⟨l, rec, h1, h1', h2, h3, h4⟩ := State.chargeDelivery_record r p d k b
    have hrm : ∀ n, findMachine r.roster n = (findMachine s.roster n).map fun m =>
        if n = d.machine then { m with reserved := 0 } else m := by
      intro n
      have := hset.machines n
      simp only [hqs.1] at this
      rw [this]
      congr 1; funext m; by_cases h : n = d.machine <;> simp [h]
    have hra : ∀ n, findAccount r.accounts n = (findAccount s.accounts n).map fun a =>
        if n = d.account then { a with reserved := a.reserved - d.reservation } else a := by
      intro n
      have e : r.accounts =
          (q.modAccount d.account fun a => { a with reserved := a.reserved - d.reservation }).accounts := by
        simp [r, State.releaseDelivery, State.modAccount]
      rw [e, State.modAccount_find _ _ _ (by intro a; rfl), hqs.2.1]
    have hrc : ∀ c, r.comp c =
        if c = d.current.comp then (s.comp c).map fun x => { x with reserved := x.reserved - d.current.remaining }
        else s.comp c := by
      intro c; rw [State.releaseDelivery_comp, hqs.2.2.1]
    have hbook : ∀ c x, s.comp c = some x → ∃ y, r.comp c = some y ∧ y.book = x.book ∧ y.product = x.product := by
      intro c x hx
      rw [hrc, hx]; split <;> exact ⟨_, rfl, rfl, rfl⟩
    have hback : ∀ c y, r.comp c = some y → ∃ x, s.comp c = some x ∧ y.book = x.book := by
      intro c y hy
      rw [hrc] at hy; split at hy
      · cases hx : s.comp c with
        | none => rw [hx] at hy; cases hy
        | some x => rw [hx] at hy; cases hy; exact ⟨x, rfl, rfl⟩
      · exact ⟨y, hy, rfl⟩
    refine ⟨rec, ⟨⟨l, ?_, ⟨fun h => ?_, fun he hr x hx hlt => ?_, h1'.each⟩⟩, ?_, ?_, ⟨fun n => ?_, fun n => ?_, fun c => ?_, ?_⟩⟩,
      ⟨fun a ha a1 a2 a3 => ?_, fun c x hx hlt => ?_⟩, ?_⟩
    · rw [hjo, ev, h1, hrj]
    · refine h1'.enough fun c y hy => ?_
      obtain ⟨x, hx, e⟩ := hback c y hy
      rw [e]; exact h c x hx
    · obtain ⟨y, hy, e1, e2⟩ := hbook _ x hx
      have := h1'.alone he (by rw [hrj]; exact hr) y hy (by rw [e1]; exact hlt)
      rwa [e1, e2] at this
    · rw [h3]; simp [r, hqs.2.2.2.1]
    · rw [h4, hrm]
      congr 2
      cases findMachine s.roster d.machine <;> simp
    · rw [hros, ev, b1, hrm]
      cases findMachine s.roster n with
      | none => rfl
      | some m => by_cases h : n = d.machine <;> simp [h, MachineRec.charge, addCapped]
    · rw [hacc, ev, b2, hra]
      cases findAccount s.accounts n with
      | none => rfl
      | some a =>
        by_cases h : n = d.account <;> simp [h, Account.charge, Account.reached, Account.spentAfter, addCapped]
    · rw [hcm, ev, b3, hrc]
      split
      · rename_i h; subst h; cases s.comp d.current.comp <;> simp
      · rename_i h; cases s.comp c <;> simp
    · rw [hjo, ev, b4, hrj]
      refine ⟨rfl, rfl, fun q => ?_⟩
      by_cases h : q = d.product <;> simp [Tally.add, h, addCapped]
    · have e : findAccount r.accounts d.account = some { a with reserved := a.reserved - d.reservation } := by
        rw [hra, ha]; simp
      obtain ⟨k1, k2⟩ := b7.stop _ e a1 a2 a3
      exact ⟨hvc _ _ (by rw [ev]; exact k1), hvc _ _ (by rw [ev]; exact k2)⟩
    · obtain ⟨y, hy, e1, -⟩ := hbook c x hx
      obtain ⟨k1, k2⟩ := b7.short c y hy (by rw [e1]; exact hlt)
      exact ⟨hvc _ _ (by rw [ev]; exact k1), hvc _ _ (by rw [ev]; exact k2)⟩
    · rw [hlast]
      have : v.journal.next - 1 = rec.seq := by rw [ev, h2]; simp
      have hs : seq = some rec.seq := by
        show (if d.isVoid k = true then none else some (v.journal.next - 1)) = some rec.seq
        rw [hv]; exact congrArg some this
      rw [hs]

/-! ### A close followed by the other blocks (R88) -/

theorem State.FollowedBy.figures {u t : State} (h : u.FollowedBy t) (c : CompId) :
    (t.comp c).map (fun x => (x.book, x.reserved, x.variance)) =
      (u.comp c).map fun x => (x.book, x.reserved, x.variance) := by
  cases hx : u.comp c with
  | none => rw [h.unconfigured c hx]
  | some x =>
    obtain ⟨y, hy, hl⟩ := h.comps c x hx
    rw [hy, hl.1]; rfl

theorem State.Settles.followed {s u t : State} {d : Delivery} {v : Bool} (h : s.Settles u d v) (hf : u.FollowedBy t) :
    s.Settles t d v := by
  refine ⟨by rw [hf.rest.1]; exact h.machines, by rw [hf.rest.2.1]; exact h.accounts, fun c => ?_, ?_⟩
  · rw [hf.figures]; exact h.stock c
  · rw [hf.journal]; exact h.tally

theorem State.Warns.followed {s u t : State} {d : Delivery} (h : s.Warns u d) (hf : u.FollowedBy t) : s.Warns t d :=
  ⟨fun a h1 h2 h3 h4 => ⟨hf.notices _ _ (by decide) (h.stop a h1 h2 h3 h4).1,
    hf.notices _ _ (by decide) (h.stop a h1 h2 h3 h4).2⟩,
    fun c x h1 h2 => ⟨hf.notices _ _ (by decide) (h.short c x h1 h2).1, hf.notices _ _ (by decide) (h.short c x h1 h2).2⟩⟩

theorem State.Records.followed {s u t : State} {p : PointId} {d : Delivery} {k : EndCause} {b : Bool} {r : Record}
    (h : s.Records u p d k b r) (hf : u.FollowedBy t) : s.Records t p d k b r :=
  ⟨by rw [hf.journal]; exact h.newest, h.time, h.body, h.settles.followed hf⟩

/-- A close, after which the other blocks have followed, has closed its delivery (R88). -/
theorem State.close_closes {s t : State} {p : PointId} {d : Delivery} {k : EndCause} (hd : (s.point p).context = some d)
    (hf : (s.close p k false).FollowedBy t) : s.Closes t p d k := by
  let q := s.quietPoint p
  let r := q.releaseDelivery p d
  let v := if d.isVoid k then r.returnSlot else r.chargeDelivery p d k false
  let seq := if d.isVoid k then none else some (v.journal.next - 1)
  let w := v.setPoint p ((v.point p).closed { seq := seq, cause := k })
  have hc : s.close p k false = (w.raise (if d.isVoid k then .deliveryVoid else .deliveryClosed)).startSettle d.current.comp := by
    simp only [State.close, hd]; rfl
  have hvp : v.point p = r.point p := by simp only [v]; split <;> simp
  have hrp : r.point p = { (s.point p).shut.stopTimers with meterSettle := none } := by
    simp [r, q, State.quietPoint, State.stopGrace]
  have hpt : (s.close p k false).point p =
      Point.closed { (s.point p).shut.stopTimers with meterSettle := none } { seq := seq, cause := k } := by
    rw [hc]; simp [w, hvp, hrp]
  have harb : (s.close p k false).arbiter = (s.arbiter.withdraw p).dropClaim p := by
    rw [hc]; simp only [State.startSettle_frame, State.raise_arbiter, w, State.setPoint_arbiter]
    have : v.arbiter = r.arbiter := by simp only [v]; split <;> simp
    rw [this]; simp [r, q, State.quietPoint, State.stopGrace]
  have hcoup : ((s.close p k false).coupler p).grace = none := by
    rw [hc]
    have : v.coupler p = r.coupler p := by simp only [v]; split <;> simp
    simp [w, this, r, q, State.quietPoint, State.stopGrace]
  have hch : (s.close p k false).channel (channelFor p) = (s.channel (channelFor p)).unbind := by
    rw [hc]
    have : v.channel (channelFor p) = r.channel (channelFor p) := by simp only [v]; split <;> simp
    simp [w, this, r, q, State.quietPoint, State.stopGrace, State.releaseDelivery, State.unbindChannel]
  have hns : ((s.close p k false).point p).state ≠ .waitSuction := by rw [hpt]; simp [Point.closed]
  have hq := (hf.points p).still hns
  have hn :=
    hf.noRequest p hns (by rw [harb]; simp [Arbiter.withdraw, Arbiter.dropClaim])
      (by rw [harb]; simp [Arbiter.withdraw, Arbiter.dropClaim])
  have hco := hf.couplersStill p hns
  have hcf : t.channel (channelFor p) = (s.close p k false).channel (channelFor p) := by
    cases p
    · exact hf.channelA
    · exact hf.channelB
  have hrec : t.journal.records = (s.close p k false).journal.records := by rw [hf.journal]
  obtain ⟨-, -, -, hvoid, hbook⟩ := State.close_books k false hd
  constructor
  · rw [hq, hpt]; simp [Point.closed]
  · rw [hq, hpt]; simp [Point.closed, Point.shut, Point.stopTimers]
  · rw [hq, hpt, hco, hcoup]; simp [Point.closed, Point.shut, Point.stopTimers]
  · refine ⟨hn.1, hn.2.1, ?_⟩
    rw [hn.2.2.1, harb]; simp [Arbiter.dropClaim]
  · rw [hcf, hch]; simp [Channel.unbind]
  · intro hv
    obtain ⟨h1, h2, h3⟩ := hvoid hv
    exact ⟨by rw [hq]; exact h3, by rw [hrec]; exact h1, h2.followed hf⟩
  · intro hv
    obtain ⟨rec, h1, h2, h3⟩ := hbook hv
    exact ⟨rec, h1.followed hf, h2.followed hf, by rw [hq]; exact h3⟩

end Sys2Proof.Machine
end

