-- ==== Sys2Proof/Laws/Rest.lean ====
section
/-! SUPPORT. When nothing is due: an arbiter with nothing to grant or release, a sequencer with nothing to promote or
start, and what the blocks that follow then leave. With them what a grant, an authorisation, the end of a plan and the
evaluation of the shift identity leave, and what stays as it was: a compartment no load entry names, the state of one a
delivery has a segment on, and a point no grant reaches. -/

namespace Sys2Proof.Machine

open Sys2Proof

/-! ### The sequencer and the arbiter do not read the pump -/

theorem State.ite_setPump (c : Prop) [Decidable c] (s t : State) (x : Pump) :
    (if c then s else t).setPump x = if c then s.setPump x else t.setPump x := by split <;> rfl

theorem State.reserveSlot_setPump (s : State) (x : Pump) : (s.setPump x).reserveSlot = s.reserveSlot.setPump x := by
  unfold State.reserveSlot State.testHighMark; rw [State.ite_setPump]; rfl

theorem State.clearStageEmpty_setPump (s : State) (x : Pump) :
    (s.setPump x).clearStageEmpty = s.clearStageEmpty.setPump x := by
  unfold State.clearStageEmpty; rw [State.ite_setPump]; rfl

theorem State.afterEntry_setPump (s : State) (x : Pump) : (s.setPump x).afterEntry = s.afterEntry.setPump x := by
  unfold State.afterEntry State.closePlan; rw [State.ite_setPump, ← State.clearStageEmpty_setPump]; rfl

theorem State.tryPromote_setPump (s : State) (x : Pump) : (s.setPump x).tryPromote = s.tryPromote.setPump x := by
  unfold State.tryPromote
  simp only [State.setPump_loader]
  cases s.loader.state <;> cases s.loader.current <;> cases s.loader.staged <;> try rfl
  unfold State.promote
  simp only [State.setPump_journal, State.setPump_loader, State.reserveSlot_setPump, State.ite_setPump]
  rfl

theorem State.startTest_setPump (s : State) (e : Entry) (x : Pump) :
    (s.setPump x).startTest e = (s.startTest e).setPump x := by
  unfold State.startTest State.startLoading
  simp only [State.setPump_comp]
  cases s.comp e.comp with
  | none => rfl
  | some y => simp only [State.ite_setPump, ← State.afterEntry_setPump]; rfl

theorem State.tryStart_setPump (s : State) (x : Pump) : (s.setPump x).tryStart = s.tryStart.setPump x := by
  unfold State.tryStart
  simp only [State.setPump_loader]
  cases s.loader.current with
  | none => rfl
  | some e => simp only [State.ite_setPump, ← State.startTest_setPump]

theorem State.advance_setPump (s : State) (x : Pump) : (s.setPump x).advance = s.advance.setPump x := by
  simp only [State.advance, State.tryStart_setPump, State.tryPromote_setPump]

theorem State.grant_setPump (s : State) (p : PointId) (x : Pump) : (s.setPump x).grant p = (s.grant p).setPump x := by
  unfold State.grant
  simp only [State.setPump_point]
  cases (s.point p).context with
  | none => rfl
  | some d =>
    cases (s.point p).state <;> try rfl
    dsimp only
    unfold State.grantFlow; rw [State.ite_setPump]; rfl

theorem State.grantAdmitted_setPump (s : State) (c : CompId) (x : Pump) :
    (s.setPump x).grantAdmitted c = (s.grantAdmitted c).setPump x := by
  unfold State.grantAdmitted
  simp only [State.ite_setPump, ← State.grant_setPump]; rfl

theorem State.pick_setPump (s : State) (x : Pump) : (s.setPump x).pick = s.pick.setPump x := by
  have e : (s.setPump x).choice = s.choice := rfl
  unfold State.pick
  rw [State.setPump_arbiter, e]
  cases s.arbiter.selector <;> try rfl
  cases s.choice with
  | none => rfl
  | some y =>
    dsimp only
    unfold State.grantTo; rw [State.ite_setPump, ← State.grantAdmitted_setPump]; rfl

theorem State.testRelease_setPump (s : State) (x : Pump) : (s.setPump x).testRelease = s.testRelease.setPump x := by
  unfold State.testRelease
  rw [State.setPump_arbiter]
  cases s.arbiter.selector <;> try rfl
  dsimp only; rw [State.ite_setPump]; rfl

theorem State.arbitrate_setPump (s : State) (x : Pump) : (s.setPump x).arbitrate = s.arbitrate.setPump x := by
  simp only [State.arbitrate, State.testRelease_setPump, State.pick_setPump]

theorem State.settle_setPump (s : State) (x : Pump) : (s.setPump x).settle = s.settle.setPump x := by
  simp only [State.settle, State.advance_setPump, State.arbitrate_setPump]

/-- The pump, following the step's own effect first, leaves the sequencer and the arbiter to what they do. -/
theorem State.followRun_settle (s : State) : ∃ x, s.followRun.settle = s.settle.setPump x := by
  unfold State.followRun
  repeat' split
  all_goals exact ⟨_, State.settle_setPump s _⟩

/-! ### An arbiter at rest (R97, R100) -/

/-- The arbiter has nothing to release and nothing to pick: it travels, or holds for a claim, or is idle without a
request. -/
def Arbiter.Rests (a : Arbiter) : Prop :=
  (∃ c, a.selector = .moving c) ∨ (∃ c, a.selector = .held c ∧ a.claims ≠ { a := .none, b := .none }) ∨
    ∃ q, a.selector = .idle q ∧ a.waiting = { a := none, b := none }

theorem Arbiter.claims_ne (x : Pair Claim) (p : PointId) (h : x.get p ≠ .none) : x ≠ { a := .none, b := .none } := by
  rintro rfl; cases p <;> simp [Pair.get] at h

theorem State.testRelease_rests (s : State) (h : s.arbiter.Rests) : s.testRelease = s := by
  unfold State.testRelease
  rcases h with ⟨c, h⟩ | ⟨c, h, k⟩ | ⟨q, h, -⟩ <;> rw [h]
  exact if_neg k

theorem State.pick_rests (s : State) (h : s.arbiter.Rests) : s.pick = s := by
  unfold State.pick
  rcases h with ⟨c, h⟩ | ⟨c, h, -⟩ | ⟨q, h, k⟩ <;> rw [h]
  simp [State.choice, State.eligibleRequest, Pair.get, k]

theorem State.arbitrate_rests (s : State) (h : s.arbiter.Rests) : s.arbitrate = s := by
  simp [State.arbitrate, State.testRelease_rests s h, State.pick_rests s h]

theorem State.settle_rests (s : State) (h : s.arbiter.Rests) :
    s.settle.arbiter = s.arbiter ∧ s.settle.points = s.points ∧ s.settle.couplers = s.couplers := by
  unfold State.settle
  rw [State.arbitrate_rests s.advance (by simpa using h), State.arbitrate_rests s.advance.advance (by simpa using h)]
  simp

/-- The pump and the console watch leave the arbiter, the points and the couplers to the sequencer and the arbiter. -/
theorem State.follow_settle (s old : State) :
    (s.follow old).arbiter = s.settle.arbiter ∧ (s.follow old).points = s.settle.points ∧
      (s.follow old).couplers = s.settle.couplers := by
  obtain ⟨x, e⟩ := s.followRun_settle
  unfold State.follow; dsimp only; rw [e]; split <;> simp

theorem State.follow_rests (s old : State) (h : s.arbiter.Rests) :
    (s.follow old).arbiter = s.arbiter ∧ (s.follow old).points = s.points ∧ (s.follow old).couplers = s.couplers := by
  obtain ⟨a, b, c⟩ := State.follow_settle s old
  obtain ⟨d, e, f⟩ := State.settle_rests s h
  exact ⟨a.trans d, b.trans e, c.trans f⟩

/-! ### A sequencer at rest (R135, R137) -/

/-- The sequencer has nothing to promote and nothing to test: no entry that could follow, or one that loads. -/
def Loader.Rests (l : Loader) : Prop :=
  (l.current = none ∧ (l.staged = [] ∨ l.state ≠ .opened)) ∨
    ∃ e, l.current = some e ∧ (e.state = .loading ∨ e.state = .settling)

theorem State.tryStart_rests (s : State) (h : s.loader.Rests) : s.tryStart = s := by
  unfold State.tryStart
  rcases h with ⟨h, -⟩ | ⟨e, h, k⟩ <;> rw [h]
  rcases k with k | k <;> simp [k]

theorem State.tryPromote_rests (s : State) (h : s.loader.Rests) : s.tryPromote = s := by
  unfold State.tryPromote
  rcases h with ⟨h, k⟩ | ⟨e, h, -⟩ <;> rw [h]
  · rcases k with k | k
    · rw [k]; cases s.loader.state <;> rfl
    · cases hs : s.loader.state <;> cases s.loader.staged <;> first | rfl | exact absurd hs k
  · cases s.loader.state <;> cases s.loader.staged <;> rfl

theorem State.advance_rests (s : State) (h : s.loader.Rests) : s.advance = s := by
  simp [State.advance, State.tryStart_rests s h, State.tryPromote_rests s h]

/-- Where the sequencer finds nothing more to do behind the arbiter, nothing that follows changes what it has made of the
plan, the stock, the journal, the channels and the notices. -/
theorem State.follow_fixed (s old : State) (h : s.advance.arbitrate.advance = s.advance.arbitrate) :
    (s.follow old).loader = s.advance.loader ∧ (s.follow old).stock = s.advance.stock ∧
      (s.follow old).journal = s.advance.journal ∧ (s.follow old).channels = s.advance.channels ∧
      (s.follow old).ports = s.advance.ports := by
  have e : s.settle.loader = s.advance.loader ∧ s.settle.stock = s.advance.stock ∧
      s.settle.journal = s.advance.journal ∧ s.settle.channels = s.advance.channels ∧
      s.settle.ports = s.advance.ports := by
    unfold State.settle
    rw [h]
    simp
  obtain ⟨x, k⟩ := s.followRun_settle
  unfold State.follow; dsimp only; rw [k]
  split <;> simpa using e

theorem State.follow_advance (s old : State) (h : s.advance.loader.Rests) :
    (s.follow old).loader = s.advance.loader ∧ (s.follow old).stock = s.advance.stock ∧
      (s.follow old).journal = s.advance.journal ∧ (s.follow old).channels = s.advance.channels ∧
      (s.follow old).ports = s.advance.ports :=
  State.follow_fixed s old (State.advance_rests _ (by simpa using h))

theorem State.follow_loader (s old : State) (h : s.loader.Rests) :
    (s.follow old).loader = s.loader ∧ (s.follow old).stock = s.stock ∧ (s.follow old).journal = s.journal ∧
      (s.follow old).channels = s.channels ∧ (s.follow old).ports = s.ports := by
  have e := State.advance_rests s h
  have k := State.follow_advance s old (by rw [e]; exact h)
  rwa [e] at k

/-! ### A promotion (R135, R137 to R139) -/

theorem State.FollowedBy.segmentOn {s t : State} (h : s.FollowedBy t) (c : CompId) : t.segmentOn c = s.segmentOn c := by
  have k : ∀ p, (t.point p).context = (s.point p).context := fun p => by rw [(h.points p).kept]
  have a := k .a
  have b := k .b
  simp only [State.point, Pair.get] at a b
  simp only [State.segmentOn, a, b]

/-- The head staged entry as the current one. -/
abbrev Staged.due (h : Staged) : Entry := { comp := h.comp, target := h.target, state := .due, context := none }

/-- A promotion that finds a slot (R135). -/
theorem State.promote_ok (s : State) (h : Staged) (rest : List Staged) (w : Compartment)
    (hw : s.comp h.comp = some w) (hj : s.journal.canReserve = true) :
    ((s.promote h rest).loader.current = some h.due ∧ (s.promote h rest).loader.staged = rest ∧
      (s.promote h rest).loader.closeAhead = s.loader.closeAhead ∧
      (s.promote h rest).loader.highLevel = s.loader.highLevel) ∧
    (s.promote h rest).comp h.comp = some { w with draining := true } := by
  unfold State.promote; rw [if_pos hj]; dsimp only
  split <;> simp [hw]

/-- Where the start test leaves the current entry as it is, so does all of `State.advance`. -/
theorem State.advance_fixed (s : State) (e : Entry) (h : s.loader.current = some e) (k : s.tryStart = s) :
    s.advance = s := by
  have p : s.tryPromote = s := by
    unfold State.tryPromote; rw [h]
    cases s.loader.state <;> cases s.loader.staged <;> rfl
  simp [State.advance, k, p]

theorem State.setEntryState_same (s : State) (e : Entry) (x : EntryState)
    (h : s.loader.current = some { e with state := x }) : s.setEntryState e x = s := by
  unfold State.setEntryState; rw [← h]; rfl

/-- The head staged entry of an OPEN plan without a current one is promoted by the blocks that follow. -/
theorem State.follow_promotes (s old : State) (h : Staged) (rest : List Staged) (w : Compartment)
    (ho : s.loader.state = .opened) (hn : s.loader.current = none) (hs : s.loader.staged = h :: rest)
    (hw : s.comp h.comp = some w) (hj : s.journal.canReserve = true) : s.Promotes (s.follow old) h rest w := by
  obtain ⟨⟨z1, z2, z3, z4⟩, zc⟩ := State.promote_ok s h rest w hw hj
  have zp : s.tryStart.tryPromote = s.promote h rest := by
    rw [show s.tryStart = s by unfold State.tryStart; rw [hn]]
    unfold State.tryPromote; rw [ho, hn, hs]
  have zg : ∀ c, (s.promote h rest).segmentOn c = s.segmentOn c := fun c => by simp [State.segmentOn]
  have za : (s.promote h rest).arbiter = s.arbiter := by simp
  have adv : ∀ e, (s.promote h rest).tryStart.loader.current = some e →
      (s.promote h rest).tryStart.tryStart = (s.promote h rest).tryStart → s.advance = (s.promote h rest).tryStart := by
    intro e h1 h2
    have p : (s.promote h rest).tryStart.tryPromote = (s.promote h rest).tryStart := by
      unfold State.tryPromote; rw [h1]
      cases (s.promote h rest).tryStart.loader.state <;> cases (s.promote h rest).tryStart.loader.staged <;> rfl
    unfold State.advance; rw [zp]; simp only [p, h2]
  generalize s.promote h rest = z at *
  have zt : z.tryStart = z.startTest h.due := by unfold State.tryStart; rw [z1]; rfl
  refine ⟨fun hd => ?_, fun hd hg => ?_, fun hd hg ha hu hc hl => ?_⟩
  · have t : ∀ x : State, x.loader.current = some h.due → x.comp h.comp = z.comp h.comp → x.tryStart = x := by
      intro x x1 xc
      unfold State.tryStart; rw [x1]; dsimp only; rw [if_pos (.inl rfl)]
      unfold State.startTest; rw [xc, zc]; dsimp only; rw [if_pos hd]
      exact State.setEntryState_same x _ _ x1
    have tz : z.tryStart = z := t z z1 rfl
    have hav := adv h.due (by rw [tz]; exact z1) (by rw [tz]; exact tz)
    rw [tz] at hav
    obtain ⟨a1, a2, -⟩ := State.follow_fixed s old (by
      rw [hav]; exact State.advance_fixed _ h.due (by simpa using z1) (t _ (by simpa using z1) (by simp)))
    refine ⟨by rw [a1, hav, z1], by rw [a1, hav, z2], ?_⟩
    show (s.follow old).stock.get h.comp = _; rw [a2, hav]; exact zc
  · have t : ∀ x : State, ∀ e : Entry, x.loader.current = some e → (e.state = .due ∨ e.state = .waiting) →
        e.comp = h.comp → x.comp h.comp = z.comp h.comp → x.segmentOn h.comp = true → x.tryStart = x.setEntryState e .waiting := by
      intro x e x1 xe xk xc xg
      unfold State.tryStart; rw [x1]; dsimp only; rw [if_pos xe]
      unfold State.startTest; rw [xk, xc, zc]; dsimp only; rw [if_neg hd, if_pos (.inr (by rw [xg]))]
    let f : Entry := { h.due with state := .waiting }
    have tz : z.tryStart = z.setEntryState h.due .waiting := t z h.due z1 (.inl rfl) rfl rfl ((zg _).trans hg)
    let v := z.setEntryState h.due .waiting
    have v1 : v.loader.current = some f := rfl
    have tv : v.tryStart = v := by
      rw [t v f v1 (.inr rfl) rfl rfl (by show z.segmentOn h.comp = true; rw [zg, hg])]
      exact State.setEntryState_same v f .waiting v1
    have hav := adv f (by rw [tz]; rfl) (by rw [tz]; exact tv)
    rw [tz] at hav
    have hk : v.arbitrate.advance = v.arbitrate := by
      have g1 : v.arbitrate.loader.current = some f := by simpa using v1
      refine State.advance_fixed _ f g1 ?_
      rw [t v.arbitrate f g1 (.inr rfl) rfl (by simp; rfl) ?_]
      · exact State.setEntryState_same _ f .waiting g1
      · rw [(State.arbitrate_followedBy v).segmentOn]; show z.segmentOn h.comp = true; rw [zg, hg]
    obtain ⟨a1, a2, -⟩ := State.follow_fixed s old (by rw [hav]; exact hk)
    refine ⟨by rw [a1, hav]; rfl, by rw [a1, hav]; exact z2, ?_⟩
    show (s.follow old).stock.get h.comp = _; rw [a2, hav]; exact zc
  · have zs : z.tryStart =
        z.startLoading h.due w.product (h.target.used w.ullage.toNat).1 (h.target.used w.ullage.toNat).2 := by
      rw [zt]; unfold State.startTest; dsimp only; rw [zc]; dsimp only; rw [if_neg hd, za, if_neg, if_neg]
      · rfl
      · show ¬ w.ullage < 100; omega
      · rw [ha, zg, hg]; simp
    have hvl : z.tryStart.loader.staged = rest ∧ z.tryStart.loader.inlets.get h.comp = true ∧
        z.tryStart.comp h.comp = some { w with draining := true, state := .loading, settle := none } ∧
        z.tryStart.channels.third.bound = true ∧
        ∃ e q, z.tryStart.loader.current = some e ∧ e.comp = h.comp ∧ e.target = h.target ∧ e.state = .loading ∧
          e.context = some q ∧ q.product = w.product ∧ q.used = (h.target.used w.ullage.toNat).1 ∧ q.net_uL = 0 := by
      rw [zs]; unfold State.startLoading; dsimp only
      rw [if_neg, if_neg]
      · refine ⟨by simp [z2], by simp, by simp [zc], ?_, _, _, rfl, rfl, rfl, rfl, rfl, rfl, rfl, rfl⟩
        simp [State.bindChannel, State.setChannel, Triple.setChannel, Channel.bind]
      · simp [z4, hl]
      · simp [z3]; omega
    obtain ⟨v2, vi, vc, vb, e, q, b1, b2, b3, b4, b5, b6, b7, b8⟩ := hvl
    have vr : z.tryStart.loader.Rests := .inr ⟨e, b1, .inl b4⟩
    have hav := adv e b1 (State.tryStart_rests _ vr)
    obtain ⟨a1, a2, a3, a4, a5⟩ := State.follow_advance s old (by rw [hav]; exact vr)
    rw [hav] at a1 a2 a4
    refine ⟨by rw [a1, v2], ?_, by rw [a1, vi], by rw [a4, vb], e, q, by rw [a1, b1], b2, b3, b4, b5, b6, b7, b8⟩
    exact (congrArg (fun q => q.get h.comp) a2).trans vc

/-! ### The plan (R136, R145, R147) -/

theorem State.clearStageEmpty_loader (s : State) :
    s.clearStageEmpty.loader = { s.loader with stageEmpty := false } := by
  unfold State.clearStageEmpty; split
  · rfl
  · rename_i h; simp only [Bool.not_eq_true] at h; rw [← h]

theorem State.clearStageEmpty_has (s : State) (o : PortId) (n : Notice) (h : n ≠ .loadStageEmpty) :
    (s.clearStageEmpty.port o).has n = (s.port o).has n := by
  unfold State.clearStageEmpty; split
  · rw [State.withdraw_port, Port.has_withdraw]; simp [h]
  · rfl

theorem State.closePlan_loader (s : State) :
    s.closePlan.loader =
      { s.loader with state := .none, docket := none, staged := [], paused := false, stageEmpty := false } := by
  simp [State.closePlan, State.clearStageEmpty_loader]

theorem State.afterEntry_loader (s : State) :
    s.afterEntry.loader =
      if s.loader.state = .closing then
        { s.loader with state := .none, docket := none, staged := [], paused := false, stageEmpty := false }
      else s.loader := by
  unfold State.afterEntry; split
  · exact State.closePlan_loader s
  · rfl

/-! ### A grant (R76, R98) -/

/-- A grant to a point in WAIT_SUCTION that has room before its limit takes it into FLOWING and nothing else at the
arbiter. -/
theorem State.grant_flows (s : State) (p : PointId) (d : Delivery) (hc : (s.point p).context = some d)
    (hs : (s.point p).state = .waitSuction) (hp : (s.point p).pressWait = none)
    (hl : cLof d.net_uL + (s.point p).closeAhead < d.limit) :
    s.Flows (s.grant p) p d ∧ (s.grant p).arbiter = (s.arbiter.withdraw p).flowClaim p := by
  have hw : d.within (s.point p).closeAhead = false := by simp [Delivery.within]; omega
  unfold State.grant; rw [hc, hs]; dsimp only
  unfold State.grantFlow
  simp only [State.setArbiter_point, State.setPoint_point_same, hw]
  rw [if_neg (by simp)]
  refine ⟨⟨?_, ⟨?_, ?_⟩, ?_, ?_, ?_⟩, ?_⟩
  · simp [State.flow, Delivery.stageFor, Delivery.within]
  · simp [State.flow]
  · simp [State.flow, Delivery.stageFor, Delivery.within]
  · simp [State.flow, hp]
  · cases p <;> simp [State.flow, Arbiter.flowClaim, Arbiter.withdraw, Pair.get, Pair.set]
  · simp [State.flow, hc]
  · simp [State.flow]

/-- A flowing point is left so by the blocks that follow. -/
theorem State.Flows.followed {s u t : State} {p : PointId} {d : Delivery} (h : s.Flows u p d) (hf : u.FollowedBy t)
    (ha : u.arbiter.admitted.get p = false) : s.Flows t p d := by
  have hs : (u.point p).state ≠ .waitSuction := by rw [h.state]; simp
  have e := (hf.points p).still hs
  obtain ⟨n1, -, n3, n4⟩ := hf.noRequest p hs h.claim.2.2 ha
  exact ⟨by rw [e, h.state], by rw [e]; exact h.valves, by rw [e]; exact h.started,
    ⟨by rw [n3]; exact h.claim.1, by rw [n4]; exact h.claim.2.1, n1⟩, by rw [e]; exact h.context⟩

/-! ### An authorisation (R53 to R57) -/

theorem State.authorise_ok {s : State} {p : PointId} {r : AuthRequest} {a : Account} {c : CompId} {l : Nat}
    {x : LimitSource} {k : Nat} (h : s.Authorises p r a c l x k) :
    s.authorise p r = .ok (s.openDelivery p r a c l x k) := by
  have hl := h.least
  rw [h.locked] at hl
  have hm : ¬ l < s.limits.minimum := Nat.not_lt.mpr h.minimum
  have : s.checkAuth p r = .ok (a, c, l, x, k) := by
    unfold State.checkAuth
    simp only [h.run, h.free, h.permitted, h.account, h.opened.1, h.opened.2, h.comp, h.slot, ← hl, h.locked]
    simp [hm]
  simp [State.authorise, this]

theorem State.chooseComp_none {s : State} {q : ProductId}
    (h : ∀ c x, s.comp c = some x → ¬ (x.state = .inService ∧ x.product = q)) : s.chooseComp q = none := by
  have e (c : CompId) : s.eligible c q = false := by
    cases hc : s.comp c with
    | none => simp [State.eligible, hc]
    | some x => have := h c x hc; simp only [State.eligible, hc, Option.any_some]; simpa using this
  simp [State.chooseComp, State.mostStock, e]

/-- What a refused authorisation answers. -/
theorem State.authorise_refused {s : State} {p : PointId} {r : AuthRequest} {x : Reason} {y : Option LimitSource}
    (h : s.Refuses p r x y) : s.authorise p r = .error { reason := x, source := y } := by
  have : s.checkAuth p r = .error { reason := x, source := y } := by
    unfold State.checkAuth
    cases h with
    | standby a => simp [a]
    | machineBusy a b => simp [a, b]
    | product a b c => simp [a, b, c]
    | closed a b c d =>
      cases h : findAccount s.accounts r.machine.account with
      | none => simp [a, b, c]
      | some z => simp [a, b, c, d z h]
    | stopped z a b c d e f => simp [a, b, c, d, e, f]
    | noStock z a b c d e f g => simp [a, b, c, d, e, f, State.chooseComp_none g]
    | journalFull z w a b c d e f g k => simp [a, b, c, d, e, f, g, k]
    | belowMinimum z w l q a b c d e f g k m n =>
      simp only [a, b, c, d, e, f, g, k, ← m]
      simp [n]
  simp [State.authorise, this]

theorem State.openDelivery_comp (s : State) (p : PointId) (r : AuthRequest) (a : Account) (c d : CompId) (l : Nat)
    (x : LimitSource) (k : Nat) :
    ((s.openDelivery p r a c l x k).comp d).map (fun y => (y.book, y.reserved)) =
      (s.comp d).map fun y => (y.book, if d = c then y.reserved + l else y.reserved) := by
  simp only [State.openDelivery, State.setCoupler_comp, State.setPoint_comp, State.bindChannel_frame,
    State.reserveSlot_frame, State.reorderFall_comp, State.stopSettle_comp, State.reserveOn_comp]
  by_cases hd : d = c
  · subst hd; simp [Function.comp_def]
  · simp [hd]

/-! ### The shift identity (R163, R168, R169) -/

theorem State.passMinute_ok (s : State) (h : s.clock.now.nextMinute.2 = false) :
    s.passMinute = s.setClock { s.clock with now := s.clock.now.nextMinute.1 } := by
  unfold State.passMinute; dsimp only; rw [h]; rfl

theorem State.passMinute_wrap (s : State) (h : s.clock.now.nextMinute.2 = true) :
    s.passMinute = (s.setClock { s.clock with now := s.clock.now.nextMinute.1 }).loseClock := by
  unfold State.passMinute; dsimp only; rw [h]; rfl

theorem State.reconcile_journal (s : State) (k : Trigger) (c : CompId) :
    (s.reconcile k c).journal.tally = s.journal.tally ∧
      ∃ l, (s.reconcile k c).journal.records = s.journal.records ++ l := by
  unfold State.reconcile; split
  · simp
  · split
    · unfold State.reconcileNoGauge; dsimp only; split <;> simp [State.setLastRec]
    · dsimp only; split
      · unfold State.storeSystem; split <;> simp [State.setLastRec]
      · simp [State.setLastRec]

/-- A rollover moves the clock's shift identity alone. -/
theorem State.rollover_clock (s : State) (n : ShiftId) : (s.rollover n).clock = { s.clock with shift := n } := by
  unfold State.rollover; dsimp only
  simp only [State.raise_clock, State.reconcileAll_frame]
  unfold State.shiftPrices State.closeTally; dsimp only
  split <;> (try unfold State.takeOver) <;> split <;> simp

theorem State.evaluateShift_clock (s : State) (h : s.clock.valid = true) :
    s.evaluateShift.clock = { s.clock with shift := shiftAt s.clock.shifts s.clock.now } := by
  unfold State.evaluateShift; split
  · rw [State.rollover_clock]
  · rename_i hd
    simp only [State.shiftDue, h, Bool.true_and, bne_iff_ne, ne_eq, Decidable.not_not] at hd
    rw [hd]

theorem State.evaluateShift_invalid (s : State) (h : s.clock.valid = false) : s.evaluateShift = s := by
  simp [State.evaluateShift, State.shiftDue, h]

/-! ### A compartment that no load entry names -/

/-- The step from `s` to `t` leaves `c` alone: no load entry comes to name it, and its record stays. -/
def State.Spares (s t : State) (c : CompId) : Prop := t.planNames c = false ∧ t.comp c = s.comp c

theorem State.Spares.refl {s : State} {c : CompId} (h : s.planNames c = false) : s.Spares s c := ⟨h, rfl⟩

theorem State.Spares.trans {s t u : State} {c : CompId} (h : s.Spares t c) (k : t.Spares u c) : s.Spares u c :=
  ⟨k.1, k.2.trans h.2⟩

/-- A state that differs in neither the plan's entries nor `c`'s record. -/
theorem State.Spares.of_eq {s t : State} {c : CompId} (h : s.planNames c = false)
    (h1 : t.loader.current = s.loader.current) (h2 : t.loader.staged = s.loader.staged) (h3 : t.comp c = s.comp c) :
    s.Spares t c := ⟨by simpa [State.planNames, h1, h2] using h, h3⟩

theorem State.afterEntry_spares (s : State) (c : CompId) (h : s.planNames c = false) : s.Spares s.afterEntry c := by
  unfold State.afterEntry
  split
  · refine ⟨?_, ?_⟩
    · unfold State.closePlan State.clearStageEmpty
      split <;> simp_all [State.planNames]
    · unfold State.closePlan State.clearStageEmpty
      split <;> simp
  · exact .refl h

theorem State.promote_spares (s : State) (head : Staged) (rest : List Staged) (c : CompId)
    (hs : s.loader.staged = head :: rest) (h : s.planNames c = false) : s.Spares (s.promote head rest) c := by
  have hc : head.comp ≠ c := by
    intro e
    simp [State.planNames, hs, e] at h
  have hr : (rest.any fun e => e.comp == c) = false := by
    simp only [State.planNames, hs, List.any_cons, Bool.or_eq_false_iff] at h
    exact h.2.2
  unfold State.promote
  split
  · dsimp only
    split <;> exact ⟨by simp [State.planNames, hr, hc], by simp [Ne.symm hc]⟩
  · split
    · exact .refl h
    · exact .of_eq h rfl rfl rfl

theorem State.tryPromote_spares (s : State) (c : CompId) (h : s.planNames c = false) : s.Spares s.tryPromote c := by
  unfold State.tryPromote
  split
  · rename_i hs
    exact State.promote_spares _ _ _ _ hs h
  · exact .refl h

theorem State.startTest_spares (s : State) (e : Entry) (c : CompId) (he : e.comp ≠ c) (h : s.planNames c = false) :
    s.Spares (s.startTest e) c := by
  have hr : (s.loader.staged.any fun e => e.comp == c) = false := by
    simp only [State.planNames, Bool.or_eq_false_iff] at h
    exact h.2
  have hn : c ≠ e.comp := fun k => he k.symm
  unfold State.startTest
  split
  · exact .refl h
  · split
    · exact ⟨by simp [State.setEntryState, State.planNames, hr, he], rfl⟩
    · split
      · exact ⟨by simp [State.setEntryState, State.planNames, hr, he], rfl⟩
      · split
        · refine State.Spares.trans ?_ (State.afterEntry_spares _ c ?_)
          · exact ⟨by simp [State.dropEntry, State.endEntry, State.planNames, hr],
              by simp [State.dropEntry, State.endEntry, hn]⟩
          · simp [State.dropEntry, State.endEntry, State.planNames, hr]
        · unfold State.startLoading State.settleLoad
          dsimp only
          split
          · exact ⟨by simp [State.planNames, hr, he], by simp [hn]⟩
          · split <;> exact ⟨by simp [State.planNames, hr, he], by simp [hn]⟩

theorem State.tryStart_spares (s : State) (c : CompId) (h : s.planNames c = false) : s.Spares s.tryStart c := by
  unfold State.tryStart
  split
  · rename_i e he
    split
    · refine State.startTest_spares _ _ _ (fun k => ?_) h
      simp [State.planNames, he, k] at h
    · exact .refl h
  · exact .refl h

theorem State.advance_spares (s : State) (c : CompId) (h : s.planNames c = false) : s.Spares s.advance c := by
  have k (t : State) (ht : s.Spares t c) : s.Spares t.tryStart.tryPromote c := by
    have a := State.tryStart_spares t c ht.1
    exact ht.trans (a.trans (State.tryPromote_spares _ c a.1))
  have m := k _ (k _ (k _ (k _ (k _ (.refl h)))))
  exact m.trans (State.tryStart_spares _ c m.1)

/-- A compartment that no load entry names is left as it was. -/
theorem State.follow_spares (s old : State) (c : CompId) (h : s.planNames c = false) : s.Spares (s.follow old) c := by
  have a (t : State) (ht : s.Spares t c) : s.Spares t.advance.arbitrate c := by
    have k := State.advance_spares t c ht.1
    exact ht.trans (k.trans (.of_eq k.1 (by simp) (by simp) (by simp)))
  have b (t : State) (ht : s.Spares t c) : s.Spares t.followRun c :=
    ht.trans (.of_eq ht.1 (by simp) (by simp) (by simp))
  have d := b _ (a _ (a _ (b _ (.refl h))))
  unfold State.follow
  refine d.trans (.of_eq d.1 ?_ ?_ ?_) <;> dsimp only <;> split <;> simp [State.settle]

/-! ### A compartment a delivery has a segment on (R137) -/

/-- The step from `s` to `t` starts no loading on `c`: the deliveries' segments on it stay, and so does its state. -/
def State.Occupies (s t : State) (c : CompId) : Prop :=
  t.segmentOn c = true ∧ (t.comp c).map (fun x => x.state) = (s.comp c).map fun x => x.state

theorem State.Occupies.trans {s t u : State} {c : CompId} (h : s.Occupies t c) (k : t.Occupies u c) : s.Occupies u c :=
  ⟨k.1, k.2.trans h.2⟩

/-- A state that differs in neither the points nor the stock. -/
theorem State.Occupies.of_eq {s t : State} {c : CompId} (h : s.segmentOn c = true) (h1 : t.points = s.points)
    (h2 : t.stock = s.stock) : s.Occupies t c := by
  refine ⟨?_, by simp [State.comp, h2]⟩
  simpa [State.segmentOn, h1] using h

theorem State.Occupies.of_modComp {s : State} {c : CompId} (d : CompId) (f : Compartment → Compartment)
    (h : s.segmentOn c = true) (hf : d = c → ∀ x, (f x).state = x.state) : s.Occupies (s.modComp d f) c := by
  refine ⟨h, ?_⟩
  by_cases e : c = d
  · subst e; simp [Function.comp_def, hf rfl]
  · simp [e]

theorem State.tryPromote_occupies (s : State) (c : CompId) (h : s.segmentOn c = true) : s.Occupies s.tryPromote c := by
  unfold State.tryPromote
  split
  · unfold State.promote
    split
    · dsimp only
      have a : s.Occupies s.reserveSlot c := .of_eq h (by simp) (by simp)
      generalize s.reserveSlot = t at *
      have b (l : Loader) : t.Occupies (t.setLoader l) c := .of_eq a.1 rfl rfl
      have k (l : Loader) (e : CompId) :
          s.Occupies ((t.setLoader l).modComp e fun x => { x with draining := true }) c :=
        a.trans ((b l).trans (.of_modComp e _ (b l).1 fun _ _ => rfl))
      split
      · exact (k _ _).trans (.of_eq (k _ _).1 rfl rfl)
      · exact k _ _
    · split
      · exact .of_eq h rfl rfl
      · exact .of_eq h rfl rfl
  · exact .of_eq h rfl rfl

theorem State.startTest_occupies (s : State) (e : Entry) (c : CompId) (h : s.segmentOn c = true) :
    s.Occupies (s.startTest e) c := by
  unfold State.startTest
  split
  · exact .of_eq h rfl rfl
  · split
    · exact .of_eq h rfl rfl
    · split
      · exact .of_eq h rfl rfl
      · rename_i k
        have hn : c ≠ e.comp := by rintro rfl; exact k (.inr h)
        split
        · refine State.Occupies.trans (t := s.dropEntry e .noUllage) ?_ ?_
          · exact ⟨by simpa [State.segmentOn] using h, by simp [State.dropEntry, State.endEntry, hn]⟩
          · exact .of_eq (by simpa [State.segmentOn] using h) (by simp) (by simp)
        · refine ⟨by simpa [State.segmentOn] using h, ?_⟩
          unfold State.startLoading State.settleLoad
          dsimp only
          split
          · simp [hn]
          · split <;> simp [hn]

theorem State.tryStart_occupies (s : State) (c : CompId) (h : s.segmentOn c = true) : s.Occupies s.tryStart c := by
  unfold State.tryStart
  split
  · split
    · exact State.startTest_occupies _ _ _ h
    · exact .of_eq h rfl rfl
  · exact .of_eq h rfl rfl

theorem State.advance_occupies (s : State) (c : CompId) (h : s.segmentOn c = true) : s.Occupies s.advance c := by
  have k (t : State) (ht : s.Occupies t c) : s.Occupies t.tryStart.tryPromote c := by
    have a := State.tryStart_occupies t c ht.1
    exact ht.trans (a.trans (State.tryPromote_occupies _ c a.1))
  have m := k _ (k _ (k _ (k _ (k _ (.of_eq h rfl rfl)))))
  exact m.trans (State.tryStart_occupies _ c m.1)

/-- A compartment with a segment on it keeps its state while the blocks follow: its entry stays WAITING (R137). -/
theorem State.follow_occupies (s old : State) (c : CompId) (h : s.segmentOn c = true) : s.Occupies (s.follow old) c := by
  have a (t : State) (ht : s.Occupies t c) : s.Occupies t.advance.arbitrate c := by
    have k := State.advance_occupies t c ht.1
    have f := (State.arbitrate_followedBy t.advance).segmentOn c
    exact ht.trans (k.trans ⟨by rw [f]; exact k.1, by simp⟩)
  have b (t : State) (ht : s.Occupies t c) : s.Occupies t.followRun c :=
    ht.trans (.of_eq ht.1 (by simp) (by simp))
  have d := b _ (a _ (a _ (b _ (.of_eq h rfl rfl))))
  unfold State.follow
  refine d.trans (.of_eq d.1 ?_ ?_) <;> dsimp only <;> split <;> simp [State.settle]

/-! ### The claim of a point that no grant reaches (R76, R100) -/

/-- The step from `s` to `t` reaches point `p` with no grant: its record and its claim stay. -/
def State.Leaves (s t : State) (p : PointId) : Prop :=
  t.point p = s.point p ∧ t.arbiter.claims.get p = s.arbiter.claims.get p

theorem State.Leaves.refl (s : State) (p : PointId) : s.Leaves s p := ⟨rfl, rfl⟩

theorem State.Leaves.trans {s t u : State} {p : PointId} (h : s.Leaves t p) (k : t.Leaves u p) : s.Leaves u p :=
  ⟨k.1.trans h.1, k.2.trans h.2⟩

theorem State.Leaves.of_eq {s t : State} {p : PointId} (h1 : t.points = s.points) (h2 : t.arbiter = s.arbiter) :
    s.Leaves t p := ⟨by simp [State.point, h1], by rw [h2]⟩

theorem State.grant_leaves (s : State) (p q : PointId) (h : (s.point p).state ≠ .waitSuction) :
    s.Leaves (s.grant q) p := by
  unfold State.grant
  split
  · rename_i hs
    have hn : p ≠ q := by rintro rfl; exact h hs
    unfold State.grantFlow State.finish State.flow State.stopGrace
    dsimp only
    split <;> simp [State.Leaves, Arbiter.withdraw, Arbiter.dropClaim, Arbiter.flowClaim, hn]
  · exact .refl _ _

theorem State.arbitrate_leaves (s : State) (p : PointId) (h : (s.point p).state ≠ .waitSuction) :
    s.Leaves s.arbitrate p := by
  have r (t : State) : t.Leaves t.testRelease p := by
    unfold State.testRelease; split
    · split <;> exact ⟨rfl, rfl⟩
    · exact .refl _ _
  have g (t : State) (c : CompId) (ht : (t.point p).state ≠ .waitSuction) : t.Leaves (t.grantAdmitted c) p := by
    unfold State.grantAdmitted
    dsimp only
    generalize hu : t.setArbiter { t.arbiter with
      selector := .held c, motor := false, travel := none, admitted := { a := false, b := false } } = u
    have a : t.Leaves u p := by subst hu; exact ⟨rfl, rfl⟩
    have b (v : State) (q : PointId) (k : t.Leaves v p) : t.Leaves (v.grant q) p :=
      k.trans (State.grant_leaves v p q (by rw [k.1]; exact ht))
    split <;> split <;> simp only [a, b]
  have k (t : State) (ht : (t.point p).state ≠ .waitSuction) : t.Leaves t.pick p := by
    unfold State.pick
    split
    · split
      · unfold State.grantTo
        dsimp only
        split
        · exact (show t.Leaves (t.setArbiter _) p from ⟨rfl, rfl⟩).trans (g _ _ ht)
        · exact ⟨rfl, rfl⟩
      · exact .refl _ _
    · exact .refl _ _
  have m (t : State) (ht : s.Leaves t p) : s.Leaves t.testRelease.pick p := by
    have a := ht.trans (r t)
    exact a.trans (k _ (by rw [a.1]; exact h))
  exact m _ (m _ (m _ (.refl _ _)))

/-- A point that does not wait for suction keeps its record and its claim while the blocks follow. -/
theorem State.follow_leaves (s old : State) (p : PointId) (h : (s.point p).state ≠ .waitSuction) :
    s.Leaves (s.follow old) p := by
  obtain ⟨a, b, -⟩ := State.follow_settle s old
  have m (t : State) (ht : s.Leaves t p) : s.Leaves t.advance.arbitrate p := by
    have k : t.Leaves t.advance p := .of_eq (by simp) (by simp)
    have l := ht.trans k
    exact l.trans (State.arbitrate_leaves _ p (by rw [l.1]; exact h))
  have d : s.Leaves s.settle p := m _ (m _ (.refl _ _))
  exact ⟨by rw [← d.1]; simp [State.point, b], by rw [a, d.2]⟩

end Sys2Proof.Machine
end

