-- ==== Sys2Proof/Laws/Recovery.lean ====
section
/-! SUPPORT. The recovery of interrupted work: what each of its steps leaves, and its end (R192, R193). -/

namespace Sys2Proof.Machine

open Sys2Proof

theorem Delivery.isVoid_restart (d : Delivery) : d.isVoid .restart = (cLof d.net_uL == 0) := by
  simp [Delivery.isVoid]

theorem State.close_other (s : State) (p q : PointId) (k : EndCause) (b : Bool) (h : q ≠ p) :
    (s.close p k b).point q = s.point q := by
  unfold State.close
  split
  · rfl
  · dsimp only
    split <;> simp [h, State.quietPoint, State.stopGrace]

theorem State.close_point (s : State) (p : PointId) (k : EndCause) (b : Bool) {d : Delivery}
    (hd : (s.point p).context = some d) :
    ((s.close p k b).point p).context = none ∧ ((s.close p k b).point p).state = .closed := by
  unfold State.close
  rw [hd]
  dsimp only
  split <;> simp [Point.closed]

theorem State.close_marks (s : State) (p : PointId) (k : EndCause) (b : Bool) (c : CompId) :
    ((s.close p k b).comp c).map (fun x => (x.state, x.draining)) = (s.comp c).map fun x => (x.state, x.draining) := by
  have hm (t : State) (e : CompId) (m v : Nat) :
      ((t.chargeBook e p m v).comp c).map (fun x => (x.state, x.draining)) =
        (t.comp c).map fun x => (x.state, x.draining) := by
    rw [State.chargeBook_comp]
    split
    · rename_i h; subst h; cases t.comp c <;> rfl
    · rfl
  have hs (t : State) (e : CompId) :
      ((t.startSettle e).comp c).map (fun x => (x.state, x.draining)) =
        (t.comp c).map fun x => (x.state, x.draining) := by
    rw [State.startSettle_comp]
    split
    · rename_i h; subst h; cases t.comp c <;> simp; split <;> simp
    · rfl
  unfold State.close
  split
  · rfl
  · rename_i d hd
    dsimp only
    rw [hs]
    have hr : (((s.quietPoint p).releaseDelivery p d).comp c).map (fun x => (x.state, x.draining)) =
        (s.comp c).map fun x => (x.state, x.draining) := by
      rw [State.releaseDelivery_comp]
      split
      · rename_i h; subst h
        simp [State.quietPoint, State.stopGrace]; rfl
      · simp [State.quietPoint, State.stopGrace]
    split
    · simpa using hr
    · rw [← hr]
      unfold State.chargeDelivery Delivery.charges
      dsimp only
      split <;> simp [hm]

/-- Step 1 of the recovery (R192). -/
theorem State.recoverDelivery_recovers (s : State) (p : PointId) : s.RecoversDelivery (s.recoverDelivery p) p := by
  unfold State.recoverDelivery
  refine ⟨fun h => by simp [State.close, h], fun d hd => ?_, fun d hd hn => ?_, fun d hd hn => ?_,
    State.close_other _ _ _ _ _ (by cases p <;> decide), fun o n h => ?_, State.close_marks _ _ _ _, by simp⟩
  · obtain ⟨h1, h2⟩ := State.close_point s p .restart true hd
    exact ⟨h2, h1, (State.close_books .restart true hd).2.2.1⟩
  · have hv : d.isVoid .restart = true := by simp [Delivery.isVoid_restart, hn]
    obtain ⟨-, h2, -, h4, -⟩ := State.close_books .restart true hd
    rw [hv] at h2
    obtain ⟨k1, k2, k3⟩ := h4 hv
    exact ⟨k1, k2, k3, h2 .operator rfl, h2 .office rfl⟩
  · have hv : d.isVoid .restart = false := by
      rw [Delivery.isVoid_restart]; simp; omega
    obtain ⟨-, h2, -, -, h5⟩ := State.close_books .restart true hd
    rw [hv] at h2
    obtain ⟨r, k1, k2, k3⟩ := h5 hv
    exact ⟨r, k1, k2, k3, h2 .operator rfl, h2 .office rfl⟩
  · cases hd : (s.point p).context with
    | none => simpa [State.close, hd] using h
    | some d => exact (State.close_books .restart true hd).1 o n h

theorem State.reorderNew_keeps (s : State) {o : PortId} {n : Notice} (c : CompId) (h : (s.port o).has n = true) :
    ((s.reorderNew c).port o).has n = true := by
  unfold State.reorderNew
  split
  · exact h
  · exact State.reorderFall_keeps _ _ h

/-- Step 2 of the recovery (R192). -/
theorem State.recoverEntry_recovers (s : State) : s.RecoversEntry s.recoverEntry.1 := by
  unfold State.recoverEntry
  cases he : s.loader.current with
  | none =>
    exact ⟨fun _ => rfl, fun e h => (by simp [he] at h), fun e x b h => (by simp [he] at h),
      fun e h => (by simp [he] at h), fun _ _ => rfl, fun _ _ h => h, rfl, rfl, rfl, rfl, rfl⟩
  | some e =>
    cases hx : e.context with
    | none =>
      dsimp only
      rw [hx]
      refine ⟨fun h => by simp [he] at h, fun f hf => ?_, fun f x b hf hc => ?_, fun f hf hc => ?_, fun c hc => ?_,
        fun o n h => by simpa [State.dropEntry, State.endEntry, State.returnSlot] using h, ?_⟩
      · simp [State.dropEntry, State.endEntry, State.returnSlot]
      · obtain rfl := Option.some.inj (he.symm.trans hf)
        rw [hx] at hc; cases hc
      · obtain rfl := Option.some.inj (he.symm.trans hf)
        simp [State.dropEntry, State.endEntry, State.returnSlot]
      · have hn := hc e he
        simp [State.dropEntry, State.endEntry, State.returnSlot, Ne.symm hn]
      · simp [State.dropEntry, State.endEntry, State.returnSlot]
    | some x =>
      dsimp only
      rw [hx]
      unfold State.closeReceipt
      dsimp only
      generalize hb : ((s.comp e.comp).elim 0 fun y => y.book) = book
      let r := s.newRecord (.receipt (receiptOf e x book (addCapped Config.bookMax book (cLof x.net_uL)) .restart true))
      refine ⟨fun h => by simp [he] at h, fun f hf => ?_, fun f y b hf hc hy => ?_, fun f hf hc => ?_, fun c hc => ?_,
        fun o n h => ?_, ?_⟩
      · simp [State.endEntry, State.receiveStock]
      · obtain rfl := Option.some.inj (he.symm.trans hf)
        obtain rfl := Option.some.inj (hx.symm.trans hc)
        rw [hb] at hy
        subst hy
        refine ⟨r, _, rfl, ?_, rfl, rfl, ?_, ?_, ?_, ?_⟩
        · simp [State.endEntry, State.receiveStock]; rfl
        · simp [State.endEntry]; rfl
        · simp [State.has_raise, Notice.ports, Triple.port]
        · simp [State.has_raise, Notice.ports, Triple.port]
        · simp only [State.endEntry, State.receiveStock, State.raise_comp, State.setLoader_comp]
          rw [State.startSettle_comp, if_pos rfl, State.reorderNew_comp, if_pos rfl]
          cases hk : s.comp e.comp with
          | none => simp [hk]
          | some z =>
            rw [hk] at hb
            simp only [Option.elim] at hb
            subst hb
            simp [hk, addCapped]
            split <;> simp
      · obtain rfl := Option.some.inj (he.symm.trans hf)
        rw [hx] at hc; cases hc
      · have hn := hc e he
        simp [State.endEntry, State.receiveStock, State.startSettle_comp, State.reorderNew_comp, Ne.symm hn]
      · refine State.raise_keeps _ _ ?_
        have k (b : RecordBody) : (((s.unbindChannel .load).storeReserved b).port o).has n = true :=
          State.storeReserved_keeps _ _ (by simpa using h)
        simpa [State.endEntry, State.receiveStock] using State.reorderNew_keeps _ e.comp (by simpa using k _)
      · simp [State.endEntry, State.receiveStock]

/-- Step 3 of the recovery (R192). -/
theorem State.closePlan_drops (s : State) (x : Power) : s.DropsPlan (s.closePlan.setPower x) := by
  unfold State.closePlan State.clearStageEmpty
  dsimp only
  split
  · refine ⟨by simp, fun o n hn h => ?_, by ext1 <;> simp⟩
    simp only [State.setPower_port, State.withdraw_port, Port.has_withdraw, State.setLoader_port]
    rw [h]; simpa using hn
  · exact ⟨by simp, fun o n _ h => h, by ext1 <;> simp⟩

/-- The recovery as far as a point (R192). -/
theorem State.recoverTo_recovers (s : State) (k : RecoveryPoint) : s.RecoversTo (s.recoverTo k) k := by
  have a := s.recoverDelivery_recovers .a
  have b := (s.recoverDelivery .a).recoverDelivery_recovers .b
  have e := ((s.recoverDelivery .a).recoverDelivery .b).recoverEntry_recovers
  cases k
  · rfl
  · exact a
  · exact ⟨_, a, b⟩
  · exact ⟨_, _, a, b, e⟩
  · exact ⟨_, _, _, a, b, e, State.closePlan_drops _ _⟩

/-! ### The end of the recovery (R193) -/

/-- Only records, notices, usages, marks of the stock and timers are added: no reservation, book, delivery or entry moves. -/
structure State.Adds (s t : State) : Prop where
  machines :
    ∀ n, (findMachine t.roster n).map (fun m => (m.reserved, m.lastHours)) =
      (findMachine s.roster n).map fun m => (m.reserved, m.lastHours)
  comps :
    ∀ c, (t.comp c).map (fun x => (x.book, x.reserved, x.state, x.draining)) =
      (s.comp c).map fun x => (x.book, x.reserved, x.state, x.draining)
  records : ∃ l, t.journal.records = s.journal.records ++ l
  notices : ∀ o n, (s.port o).has n = true → (t.port o).has n = true
  kept :
    t.accounts = s.accounts ∧ t.points = s.points ∧ t.loader = s.loader ∧ t.journal.reserved = s.journal.reserved

theorem State.Adds.refl (s : State) : s.Adds s :=
  ⟨fun _ => rfl, fun _ => rfl, ⟨[], by simp⟩, fun _ _ h => h, rfl, rfl, rfl, rfl⟩

theorem State.Adds.trans {s t u : State} (h : s.Adds t) (k : t.Adds u) : s.Adds u := by
  obtain ⟨l, hl⟩ := h.records
  obtain ⟨m, hm⟩ := k.records
  obtain ⟨a1, a2, a3, a4⟩ := h.kept
  obtain ⟨b1, b2, b3, b4⟩ := k.kept
  exact ⟨fun n => (k.machines n).trans (h.machines n), fun c => (k.comps c).trans (h.comps c),
    ⟨l ++ m, by rw [hm, hl, List.append_assoc]⟩, fun o n e => k.notices o n (h.notices o n e), b1.trans a1, b2.trans a2,
    b3.trans a3, b4.trans a4⟩

theorem State.raise_adds (s : State) (n : Notice) : s.Adds (s.raise n) :=
  ⟨fun _ => by simp, fun _ => by simp, ⟨[], by simp⟩, fun _ _ h => State.raise_keeps _ _ h, by simp⟩

theorem State.storeSystem_adds (s : State) (b : RecordBody) : s.Adds (s.storeSystem b) := by
  refine ⟨fun _ => by simp, fun _ => by simp, ?_, fun _ _ h => State.storeSystem_keeps _ _ h, by simp⟩
  unfold State.storeSystem
  split
  · exact ⟨_, State.store_slots s b |>.1⟩
  · exact ⟨[], by simp⟩

theorem State.modComp_adds (s : State) (c : CompId) (f : Compartment → Compartment)
    (h : ∀ x, (f x).book = x.book ∧ (f x).reserved = x.reserved ∧ (f x).state = x.state ∧ (f x).draining = x.draining) :
    s.Adds (s.modComp c f) := by
  refine ⟨fun _ => by simp, fun d => ?_, ⟨[], by simp⟩, fun _ _ h => by simpa using h, by simp⟩
  rw [State.modComp_comp]
  split
  · rename_i e; subst e; cases s.comp d <;> simp [h]
  · rfl

theorem State.reconcile_adds (s : State) (k : Trigger) (c : CompId) : s.Adds (s.reconcile k c) := by
  have last (t : State) (o : RecOutcome) (v : Option Int) : t.Adds (t.setLastRec c k o v) :=
    State.modComp_adds _ _ _ fun _ => ⟨rfl, rfl, rfl, rfl⟩
  unfold State.reconcile
  split
  · exact .refl s
  · split
    · unfold State.reconcileNoGauge
      dsimp only
      split
      · refine (last s .noGauge none).trans (State.Adds.trans ?_ (State.raise_adds _ _))
        exact State.modComp_adds _ _ _ fun _ => ⟨rfl, rfl, rfl, rfl⟩
      · exact last _ _ _
    · dsimp only
      split
      · refine State.Adds.trans ?_ (State.raise_adds _ _)
        refine State.Adds.trans ?_ (last _ _ _)
        exact (State.storeSystem_adds _ _).trans (State.modComp_adds _ _ _ fun _ => ⟨rfl, rfl, rfl, rfl⟩)
      · refine State.Adds.trans ?_ (last _ _ _)
        exact State.modComp_adds _ _ _ fun _ => ⟨rfl, rfl, rfl, rfl⟩

theorem State.reconcileAll_adds (s : State) (k : Trigger) : s.Adds (s.reconcileAll k) :=
  (State.reconcile_adds s k .n1).trans ((State.reconcile_adds _ k .n2).trans
    ((State.reconcile_adds _ k .n3).trans (State.reconcile_adds _ k .n4)))

theorem State.shiftPrices_adds (s : State) : s.Adds s.shiftPrices := by
  unfold State.shiftPrices
  split
  · unfold State.takeOver
    refine State.Adds.trans ?_ (State.raise_adds _ _)
    refine State.Adds.trans ?_ (State.storeSystem_adds _ _)
    exact ⟨fun _ => rfl, fun _ => rfl, ⟨[], by simp⟩, fun _ _ h => h, rfl, rfl, rfl, rfl⟩
  · exact .refl s

theorem State.closeTally_adds (s : State) (p n : ShiftId) : s.Adds (s.closeTally p n) := by
  unfold State.closeTally
  dsimp only
  split
  · refine ⟨fun _ => by simp, fun _ => by simp, ?_, fun o n h => ?_, by simp⟩
    · exact ⟨_, by simp; rfl⟩
    · exact State.testHighMark_keeps _ h
  · exact ⟨fun _ => rfl, fun _ => rfl, ⟨[], by simp⟩, fun _ _ h => h, rfl, rfl, rfl, rfl⟩

theorem State.rollover_adds (s : State) (n : ShiftId) : s.Adds (s.rollover n) := by
  unfold State.rollover
  dsimp only
  refine State.Adds.trans ?_ (State.raise_adds _ _)
  refine State.Adds.trans ?_ (State.reconcileAll_adds _ _)
  refine State.Adds.trans ?_ (State.shiftPrices_adds _)
  have h : s.Adds ((s.setClock { s.clock with shift := n }).closeTally s.clock.shift n) := by
    refine State.Adds.trans ?_ (State.closeTally_adds _ _ _)
    exact ⟨fun _ => rfl, fun _ => rfl, ⟨[], by simp⟩, fun _ _ h => h, rfl, rfl, rfl, rfl⟩
  refine h.trans ⟨fun k => ?_, fun _ => rfl, ⟨[], by simp⟩, fun _ _ h => h, rfl, rfl, rfl, rfl⟩
  show (findMachine (List.map _ _) k).map _ = _
  rw [findMachine_map _ (fun m : MachineRec => m.clearUsage s.clock.shift n)
    (fun m => by unfold MachineRec.clearUsage; split <;> rfl)]
  cases findMachine _ k with
  | none => rfl
  | some m =>
    simp only [Option.map_some, MachineRec.clearUsage]
    split <;> rfl

theorem State.evaluateShift_adds (s : State) : s.Adds s.evaluateShift := by
  unfold State.evaluateShift
  split
  · exact State.rollover_adds _ _
  · exact .refl s

/-- The end of the recovery (R193). -/
theorem State.startBlocks_starts (s : State) : s.StartsBlocks s.startBlocks := by
  have a : s.Adds (s.testHighMark.startAllSettle) := by
    refine ⟨fun _ => by simp [State.startAllSettle], fun c => ?_, ⟨[], by simp [State.startAllSettle]⟩,
      fun _ _ h => State.testHighMark_keeps _ h, by simp [State.startAllSettle]⟩
    cases hx : s.comp c <;> cases c <;> simp_all [State.startAllSettle, State.comp, Quad.map, Quad.get]
  have e := a.trans (State.evaluateShift_adds _)
  have h : s.Adds s.startBlocks := by
    unfold State.startBlocks State.setPowerState
    split <;>
      exact e.trans ⟨fun _ => rfl, fun _ => rfl, ⟨[], by simp [State.wakeUp, State.standBy]⟩, fun _ _ h => h, rfl, rfl,
        rfl, rfl⟩
  refine ⟨h.machines, h.comps, h.records, h.notices, fun hs => ?_, h.kept⟩
  have hd : (s.testHighMark.startAllSettle).shiftDue = false := by
    rcases hs with hs | hs <;> simp [State.shiftDue, State.startAllSettle, hs]
  have : s.startBlocks = (s.testHighMark.startAllSettle).setPowerState := by
    simp [State.startBlocks, State.evaluateShift, hd]
  rw [this]
  unfold State.setPowerState State.wakeUp State.standBy
  split <;> simp [State.startAllSettle]

end Sys2Proof.Machine
end

