-- ==== Sys2Proof/Machine/Frames.lean ====
section
/-! DEFINITION. Request frames: the bytes a master sends and the command they spell (R174, 10.7, 10.8). No step reads
bytes: a frame reaches the part as the row it spells (log entry 27). This file says which rows the bytes at a port
bring. -/

namespace Sys2Proof.Machine

open Sys2Proof

/-- A figure from its bytes, least significant first. -/
def natOf : List Byte → Nat
  | [] => 0
  | b :: rest => b.toNat + 256 * natOf rest

/-- Cut bytes into figures of the given sizes; none where they are not used up exactly. -/
def cut : List Nat → List Byte → Option (List Nat)
  | [], [] => some []
  | [], _ :: _ => none
  | n :: sizes, l => if l.length < n then none else (cut sizes (l.drop n)).map fun v => natOf (l.take n) :: v

/-- Pairs of figures of `n` bytes each, up to the end. -/
def cutPairs (n : Nat) : Nat → List Byte → Option (List (Nat × Nat))
  | 0, [] => some []
  | 0, _ :: _ => none
  | k + 1, l =>
    if l.length < 2 * n then none
    else (cutPairs n k (l.drop (2 * n))).map fun v => (natOf (l.take n), natOf ((l.drop n).take n)) :: v

def ones (n : Nat) : List Nat := List.replicate n 1

/-- Four prices. -/
def quadOf : List Nat → Quad Nat
  | [a, b, c, d] => { one := a, two := b, three := c, four := d }
  | _ => Quad.all 0

/-- 16 prices, product 1 tiers 1..4 first. -/
def tableOf (v : List Nat) : PriceTable :=
  { one := quadOf (v.take 4), two := quadOf ((v.drop 4).take 4), three := quadOf ((v.drop 8).take 4),
    four := quadOf ((v.drop 12).take 4) }

/-- A command of fixed size: its code, the sizes of its parameters, and the row they make. -/
structure CommandRow where
  code : Nat
  sizes : List Nat
  build : Req → List Nat → Option Instr

/-- The read commands (10.7, 10.8). -/
def readRows : List CommandRow :=
  [ { code := 0x01, sizes := [1], build := fun r v => match v with | [a] => some (.getStatus r a) | _ => none },
    { code := 0x02, sizes := [1, 8],
      build := fun r v => match v with | [a, b] => some (.getMachine r a (BitVec.ofNat 64 b)) | _ => none },
    { code := 0x03, sizes := [1], build := fun r v => match v with | [a] => some (.getAccount r a) | _ => none },
    { code := 0x04, sizes := [1], build := fun r v => match v with | [a] => some (.getStock r a) | _ => none },
    { code := 0x05, sizes := [4, 1],
      build := fun r v => match v with | [a, b] => some (.readJournal r (BitVec.ofNat 32 a) b) | _ => none },
    { code := 0x06, sizes := [], build := fun r _ => some (.getNotices r) },
    { code := 0x07, sizes := [], build := fun r _ => some (.getTime r) },
    { code := 0x08, sizes := [4, 1],
      build := fun r v => match v with | [a, b] => some (.setNoticeMask r a b) | _ => none },
    { code := 0x09, sizes := [], build := fun r _ => some (.requestAccountRole r) } ]

/-- The OPERATE commands, and those of OPERATE or ACCOUNT. -/
def operateRows : List CommandRow :=
  [ { code := 0x10, sizes := [1, 4, 1, 4],
      build := fun r v =>
        match v with
        | [a, b, f, h] => some (.identifyManual r a b { flag := f, value := h })
        | _ => none },
    { code := 0x11, sizes := [1, 1, 4],
      build := fun r v => match v with | [a, b, c] => some (.setPreset r a b c) | _ => none },
    { code := 0x12, sizes := [1], build := fun r v => match v with | [a] => some (.stopPoint r a) | _ => none },
    { code := 0x13, sizes := [1], build := fun r v => match v with | [a] => some (.stopRepeat r a) | _ => none },
    { code := 0x14, sizes := [1, 1, 1],
      build := fun r v => match v with | [a, b, c] => some (.setPointMode r a b c) | _ => none },
    { code := 0x15, sizes := [1], build := fun r v => match v with | [a] => some (.parkPoint r a) | _ => none },
    { code := 0x16, sizes := [1], build := fun r v => match v with | [a] => some (.unparkPoint r a) | _ => none },
    { code := 0x17, sizes := [], build := fun r _ => some (.clearPumpFault r) },
    { code := 0x20, sizes := 1 :: ones 12,
      build := fun r v =>
        match v with
        | f :: docket => some (.openLoadPlan r { flag := f, value := docket })
        | [] => none },
    { code := 0x21, sizes := [1, 4],
      build := fun r v => match v with | [a, b] => some (.appendLoadEntry r a b) | _ => none },
    { code := 0x22, sizes := [], build := fun r _ => some (.stopLoad r) },
    { code := 0x23, sizes := [], build := fun r _ => some (.closeLoadPlan r) },
    { code := 0x24, sizes := [1, 1],
      build := fun r v => match v with | [a, b] => some (.setCompartmentService r a b) | _ => none },
    { code := 0x25, sizes := [1], build := fun r v => match v with | [a] => some (.reconcile r a) | _ => none } ]

/-- The ACCOUNT commands of fixed size. -/
def accountRows : List CommandRow :=
  [ { code := 0x30, sizes := [4, 1, 8, 1, 4, 1, 4, 4, 1, 1, 1, 4],
      build := fun r v =>
        match v with
        | [n, f, t, q, cap, acc, sh, day, m, st, g, h] =>
          some
            (.putMachine r
              { number := n, tagId := { flag := f, value := BitVec.ofNat 64 t }, product := q, capacity := cap,
                account := acc, shiftAllowance := sh, dayAllowance := day, manualPermitted := m, state := st,
                lastHours := { flag := g, value := h } })
        | _ => none },
    { code := 0x31, sizes := [4], build := fun r v => match v with | [a] => some (.dropMachine r a) | _ => none },
    { code := 0x32, sizes := 1 :: (ones 8 ++ [8, 1, 1]),
      build := fun r v =>
        match v with
        | a :: rest =>
          match rest.drop 8 with
          | [credit, tier, closed] => some (.putAccount r a (rest.take 8) credit tier closed)
          | _ => none
        | [] => none },
    { code := 0x33, sizes := [1, 8, 1],
      build := fun r v => match v with | [a, b, c] => some (.creditAdjust r a b c) | _ => none },
    { code := 0x34, sizes := 1 :: (ones 4 ++ [2, 1]),
      build := fun r v =>
        match v with
        | a :: rest =>
          match rest.drop 4 with
          | [alpha, points] => some (.putProduct r a (rest.take 4) alpha points)
          | _ => none
        | [] => none },
    { code := 0x35, sizes := 1 :: List.replicate 16 4,
      build := fun r v => match v with | a :: prices => some (.stagePrices r a (tableOf prices)) | [] => none },
    { code := 0x36, sizes := [4, 4],
      build := fun r v => match v with | [a, b] => some (.setLimitSettings r a b) | _ => none },
    { code := 0x37, sizes := [1, 4],
      build := fun r v => match v with | [a, b] => some (.adjustStock r a b) | _ => none },
    { code := 0x38, sizes := [1, 4, 4],
      build := fun r v => match v with | [a, b, c] => some (.setStockLimits r a b c) | _ => none },
    { code := 0x39, sizes := [4],
      build := fun r v => match v with | [a] => some (.releaseThrough r (BitVec.ofNat 32 a)) | _ => none },
    { code := 0x3A, sizes := ones 6,
      build := fun r v =>
        match v with
        | [y, mo, d, h, mi, sec] => some (.setTime r (2000 + y) mo d h mi sec)
        | _ => none },
    { code := 0x3B, sizes := [], build := fun r _ => some (.trimClock r) },
    { code := 0x3D, sizes := [1, 1],
      build := fun r v => match v with | [a, b] => some (.setSuctionPolicy r a b) | _ => none },
    { code := 0x3E, sizes := [], build := fun r _ => some (.yieldAccountRole r) },
    { code := 0x3F, sizes := [], build := fun r _ => some (.denyAccountRole r) } ]

/-- The CALIBRATE commands of fixed size. -/
def calibrateRows : List CommandRow :=
  [ { code := 0x40, sizes := [1, 2],
      build := fun r v => match v with | [a, b] => some (.setKFactor r a b) | _ => none },
    { code := 0x41, sizes := [1, 4],
      build := fun r v => match v with | [a, b] => some (.setRatedFlow r a b) | _ => none },
    { code := 0x43, sizes := [1, 4, 4],
      build := fun r v => match v with | [a, b, c] => some (.setPointVolumes r a b c) | _ => none },
    { code := 0x44, sizes := [2, 2, 2, 2],
      build := fun r v => match v with | [a, b, c, d] => some (.setPointTimes r a b c d) | _ => none },
    { code := 0x45, sizes := [2, 2],
      build := fun r v => match v with | [a, b] => some (.setSuctionTimes r a b) | _ => none },
    { code := 0x46, sizes := [1, 1, 2, 2, 2],
      build := fun r v => match v with | [a, b, c, d, e] => some (.setPumpFault r a b c d e) | _ => none },
    { code := 0x47, sizes := [2, 2, 1],
      build := fun r v => match v with | [a, b, c] => some (.setPumpRun r a b c) | _ => none },
    { code := 0x48, sizes := [1, 1, 4, 1, 4, 4],
      build := fun r v =>
        match v with
        | [a, b, c, d, e, f] => some (.configureCompartment r a b c d e f)
        | _ => none },
    { code := 0x49, sizes := [1],
      build := fun r v => match v with | [a] => some (.removeCompartment r a) | _ => none },
    { code := 0x4B, sizes := [2],
      build := fun r v => match v with | [a] => some (.setStockSettle r a) | _ => none },
    { code := 0x4C, sizes := [4, 2],
      build := fun r v => match v with | [a, b] => some (.setLoadSettings r a b) | _ => none },
    { code := 0x4D, sizes := [2],
      build := fun r v => match v with | [a] => some (.setCouplingGrace r a) | _ => none },
    { code := 0x4E, sizes := [2, 1, 2],
      build := fun r v => match v with | [a, b, c] => some (.setPortSupervision r a b c) | _ => none },
    { code := 0x4F, sizes := [2], build := fun r v => match v with | [a] => some (.setWakeSettle r a) | _ => none } ]

def commandRows : List CommandRow := readRows ++ operateRows ++ accountRows ++ calibrateRows

/-- The codes of the three commands that carry a list (10.8). -/
def listCode (code : Nat) : Bool := code == 0x3C || code == 0x42 || code == 0x4A

/-- A command code is known (10.7). -/
def knownCode (code : Nat) : Bool := listCode code || commandRows.any fun x => x.code == code

/-- The commands that carry a list: the count byte rules the length, whatever its value (10.8). -/
def listCommand (r : Req) (code : Nat) (p : List Byte) : Option Instr :=
  if code = 0x3C then
    match p with
    | n :: rest => (cutPairs 1 n.toNat rest).map (.setShifts r)
    | [] => none
  else
    match p with
    | c :: n :: rest =>
      if code = 0x42 then (cutPairs 4 n.toNat rest).map (.setLinearisation r c.toNat)
      else (cutPairs 2 n.toNat rest).map (.setStrapping r c.toNat)
    | _ => none

/-- The command of a known code from its parameters; none where the length does not suit them (R174). -/
def commandOf (r : Req) (code : Nat) (p : List Byte) : Option Instr :=
  if listCode code then listCommand r code p
  else
    match commandRows.find? fun x => x.code == code with
    | some x => (cut x.sizes p).bind (x.build r)
    | none => none

/-- The row a frame spells, from its tag on: `payload` runs from the tag through the last parameter (R174). -/
def payloadRow (o : PortId) (payload : List Byte) : Instr :=
  match payload with
  | tag :: code :: p =>
    let r : Req := { port := o, tag := tag.toNat }
    if knownCode code.toNat then (commandOf r code.toNat p).getD (.badFrame o .wrongLength)
    else .unknownCommandCode r code.toNat
  | _ => .badFrame o .badLength

/-- The frame that begins with these bytes, which stand after its sync byte: the row it is at a READY port out of recovery,
and the bytes behind it. A bad length ends the frame at once; a frame that is not complete where the bytes stop is
abandoned with them (R174). -/
def frameOf (o : PortId) (bytes : List Byte) : Instr × List Byte :=
  match bytes with
  | lo :: hi :: rest =>
    let n := lo.toNat + 256 * hi.toNat
    if n < 2 ∨ 1024 < n then (.badFrame o .badLength, rest)
    else if rest.length < n + 2 then (.frameTimeout o, [])
    else if natOf ((rest.drop n).take 2) = (crc16 (lo :: hi :: rest.take n)).toNat then
      (payloadRow o (rest.take n), rest.drop (n + 2))
    else (.badFrame o .badCrc, rest.drop (n + 2))
  | _ => (.frameTimeout o, [])

def frameRow (o : PortId) (bytes : List Byte) : Instr := (frameOf o bytes).1

/-! ### The bytes that reach a port (R174) -/

/-- The sync byte, with which every frame begins (10.8). -/
def syncByte : Byte := 0xC3#8

/-- What follows the first sync byte. The bytes before it, which reach a port that waits for a frame, are dropped. -/
def afterSync : List Byte → Option (List Byte)
  | [] => none
  | b :: rest => if b = syncByte then some rest else afterSync rest

/-- The rows of at most so many frames. -/
def receive (o : PortId) : Nat → List Byte → List Instr
  | 0, _ => []
  | frames + 1, bytes =>
    match afterSync bytes with
    | none => []
    | some rest => (frameOf o rest).1 :: receive o frames (frameOf o rest).2

/-- The rows that the bytes reaching a port bring, in order, after which nothing follows for 100 ms. Each frame takes its
sync byte at least. -/
def received (o : PortId) (bytes : List Byte) : List Instr := receive o bytes.length bytes

end Sys2Proof.Machine
end

