-- ==== Sys2Proof/WellFormed.lean ====
section
/-! DEFINITION. Which commands a port or a line can bring: parameters within the bytes that carry them (10.8). A value a
byte can carry but its field has no code or range for is well-formed: the part answers it with BAD_PARAM. -/

namespace Sys2Proof

def fits (bytes n : Nat) : Bool := decide (n < 256 ^ bytes)

def Req.ok (r : Req) : Bool := fits 1 r.tag

/-- A code of `n` bytes. -/
def codeOk (n : Nat) (code : List Nat) : Bool := code.length == n && code.all (fits 1)

/-- A list with a count byte, whose items take `bytes` bytes for each figure. -/
def pairsOk (bytes : Nat) (l : List (Nat × Nat)) : Bool :=
  fits 1 l.length && l.all fun x => fits bytes x.1 && fits bytes x.2

def RawMachine.ok (m : RawMachine) : Bool :=
  fits 4 m.number && fits 1 m.tagId.flag && fits 1 m.product && fits 4 m.capacity && fits 1 m.account &&
    fits 4 m.shiftAllowance && fits 4 m.dayAllowance && fits 1 m.manualPermitted && fits 1 m.state &&
    fits 1 m.lastHours.flag && fits 4 m.lastHours.value

def Quad.allOk {α : Type} (f : α → Bool) (x : Quad α) : Bool := f x.one && f x.two && f x.three && f x.four

/-- The command codes of 10.7. -/
def isCommandCode (code : Nat) : Bool :=
  (decide (0x01 ≤ code) && decide (code ≤ 0x09)) || (decide (0x10 ≤ code) && decide (code ≤ 0x17)) ||
    (decide (0x20 ≤ code) && decide (code ≤ 0x25)) || (decide (0x30 ≤ code) && decide (code ≤ 0x4F))

/-- A command can be sent, or an event can come. -/
def Instr.wellFormed : Instr → Bool
  | .getStatus r a => r.ok && fits 1 a
  | .getMachine r a _ => r.ok && fits 1 a
  | .getAccount r a => r.ok && fits 1 a
  | .getStock r a => r.ok && fits 1 a
  | .readJournal r _ a => r.ok && fits 1 a
  | .getNotices r => r.ok
  | .getTime r => r.ok
  | .setNoticeMask r a b => r.ok && fits 4 a && fits 1 b
  | .requestAccountRole r => r.ok
  | .identifyManual r a b h => r.ok && fits 1 a && fits 4 b && fits 1 h.flag && fits 4 h.value
  | .setPreset r a b c => r.ok && fits 1 a && fits 1 b && fits 4 c
  | .stopPoint r a => r.ok && fits 1 a
  | .stopRepeat r a => r.ok && fits 1 a
  | .setPointMode r a b c => r.ok && fits 1 a && fits 1 b && fits 1 c
  | .parkPoint r a => r.ok && fits 1 a
  | .unparkPoint r a => r.ok && fits 1 a
  | .clearPumpFault r => r.ok
  | .openLoadPlan r d => r.ok && fits 1 d.flag && codeOk 12 d.value
  | .appendLoadEntry r a b => r.ok && fits 1 a && fits 4 b
  | .stopLoad r => r.ok
  | .closeLoadPlan r => r.ok
  | .setCompartmentService r a b => r.ok && fits 1 a && fits 1 b
  | .reconcile r a => r.ok && fits 1 a
  | .putMachine r m => r.ok && m.ok
  | .dropMachine r a => r.ok && fits 4 a
  | .putAccount r a code b c d => r.ok && fits 1 a && codeOk 8 code && fits 8 b && fits 1 c && fits 1 d
  | .creditAdjust r a b c => r.ok && fits 1 a && fits 8 b && fits 1 c
  | .putProduct r a code b c => r.ok && fits 1 a && codeOk 4 code && fits 2 b && fits 1 c
  | .stagePrices r a p => r.ok && fits 1 a && p.allOk fun t => t.allOk (fits 4)
  | .setLimitSettings r a b => r.ok && fits 4 a && fits 4 b
  | .adjustStock r a b => r.ok && fits 1 a && fits 4 b
  | .setStockLimits r a b c => r.ok && fits 1 a && fits 4 b && fits 4 c
  | .releaseThrough r _ => r.ok
  | .setTime r y mo d h mi s =>
    r.ok && decide (2000 ≤ y) && fits 1 (y - 2000) && fits 1 mo && fits 1 d && fits 1 h && fits 1 mi && fits 1 s
  | .trimClock r => r.ok
  | .setShifts r l => r.ok && pairsOk 1 l
  | .setSuctionPolicy r a b => r.ok && fits 1 a && fits 1 b
  | .yieldAccountRole r => r.ok
  | .denyAccountRole r => r.ok
  | .setKFactor r a b => r.ok && fits 1 a && fits 2 b
  | .setRatedFlow r a b => r.ok && fits 1 a && fits 4 b
  | .setLinearisation r a l => r.ok && fits 1 a && pairsOk 4 l
  | .setPointVolumes r a b c => r.ok && fits 1 a && fits 4 b && fits 4 c
  | .setPointTimes r a b c d => r.ok && fits 2 a && fits 2 b && fits 2 c && fits 2 d
  | .setSuctionTimes r a b => r.ok && fits 2 a && fits 2 b
  | .setPumpFault r a b c d e => r.ok && fits 1 a && fits 1 b && fits 2 c && fits 2 d && fits 2 e
  | .setPumpRun r a b c => r.ok && fits 2 a && fits 2 b && fits 1 c
  | .configureCompartment r a b c d e f =>
    r.ok && fits 1 a && fits 1 b && fits 4 c && fits 1 d && fits 4 e && fits 4 f
  | .removeCompartment r a => r.ok && fits 1 a
  | .setStrapping r a l => r.ok && fits 1 a && pairsOk 2 l
  | .setStockSettle r a => r.ok && fits 2 a
  | .setLoadSettings r a b => r.ok && fits 4 a && fits 2 b
  | .setCouplingGrace r a => r.ok && fits 2 a
  | .setPortSupervision r a b c => r.ok && fits 2 a && fits 1 b && fits 2 c
  | .setWakeSettle r a => r.ok && fits 2 a
  | .badFrame _ _ => true
  | .frameTimeout _ => true
  | .frameWhileAnswering _ f => match f with | .good tag code => fits 1 tag && fits 1 code | .bad _ => true
  | .frameDuringRecovery r code => r.ok && fits 1 code
  | .responseSent _ => true
  | .unknownCommandCode r code => r.ok && fits 1 code && !isCommandCode code
  | .meterPulse _ _ => true
  | .meterWindowEnd _ _ => true
  | .nozzleOffHook _ => true
  | .nozzleOnHook _ => true
  | .tagRead _ _ => true
  | .couplingGraceExpiry _ => true
  | .triggerPress _ => true
  | .triggerRelease _ => true
  | .authTimerExpiry _ => true
  | .pressWaitExpiry _ => true
  | .pumpFaultSuspendExpiry _ => true
  | .meterSettleExpiry _ => true
  | .selectorArrival => true
  | .suctionHoldExpiry _ => true
  | .pumpRampExpiry => true
  | .pumpSenseChange _ _ _ => true
  | .faultDeglitchExpiry k => match k with | .noFlow => false | .overcurrent => false | _ => true
  | .pumpOvercurrent => true
  | .noFlowTimerExpiry => true
  | .retryTimerExpiry => true
  | .cleanRunExpiry => true
  | .clearTimerExpiry => true
  | .consoleTimerExpiry => true
  | .stockSettleExpiry _ => true
  | .levelProbeReading _ _ => true
  | .highLevelSwitch _ _ => true
  | .loadNoFlowExpiry => true
  | .loadSettleExpiry => true
  | .clockMinute => true
  | .roleAnswerTimerExpiry => true
  | .roleLapse => true
  | .calibrationSwitchChange _ => true
  | .ignitionOff => true
  | .ignitionOn => true
  | .wakeSettleExpiry => true
  | .supplyFail _ => true
  | .resetPin => true
  | .powerOn => true
  | .resetExit _ => true

end Sys2Proof
end

