-- ==== Sys2Proof/Tests/Slice0.lean ====
section
/-! SUPPORT. The model's own tests: well-formedness, frames, figures worked by hand from the rules, one step of each family
of rows, and for each statement of Certificates/Slice0 states that meet its hypotheses. -/

namespace Sys2Proof.Tests

open Sys2Proof Sys2Proof.Machine

/-! ### Well-formed and ill-formed terms (10.8): one ill-formed term for each check -/

def r0 : Req := { port := .office, tag := 255 }

def rBad : Req := { port := .office, tag := 256 }

def spaces (n : Nat) : List Nat := List.replicate n 0x20

def machine0 : RawMachine :=
  { number := 1, tagId := ⟨0, 0⟩, product := 1, capacity := 1, account := 1, shiftAllowance := 0, dayAllowance := 0
    manualPermitted := 1, state := 0, lastHours := ⟨0, 0⟩ }

def wellFormed1 : List Instr :=
  [ .getStatus r0 0, .getMachine r0 0 0, .getAccount r0 0, .getStock r0 0, .readJournal r0 0 0, .getNotices r0,
    .getTime r0, .setNoticeMask r0 0 0, .requestAccountRole r0, .identifyManual r0 0 0 ⟨0, 0⟩,
    .setPreset r0 0 0 0, .stopPoint r0 0, .stopRepeat r0 0, .setPointMode r0 0 0 0, .parkPoint r0 0,
    .unparkPoint r0 0, .clearPumpFault r0, .openLoadPlan r0 ⟨0, spaces 12⟩, .appendLoadEntry r0 0 0,
    .stopLoad r0, .closeLoadPlan r0, .setCompartmentService r0 0 0, .reconcile r0 0, .putMachine r0 machine0,
    .dropMachine r0 0, .putAccount r0 0 (spaces 8) 0 0 0, .creditAdjust r0 0 0 0,
    .putProduct r0 0 (spaces 4) 0 0, .stagePrices r0 0 (Quad.all (Quad.all 1)), .setLimitSettings r0 0 0,
    .adjustStock r0 0 0, .setStockLimits r0 0 0 0, .releaseThrough r0 0, .setTime r0 2026 0 0 0 0 0,
    .trimClock r0, .setShifts r0 [(0, 0)], .setSuctionPolicy r0 0 0, .yieldAccountRole r0, .denyAccountRole r0,
    .setKFactor r0 0 0 ]

def wellFormed2 : List Instr :=
  [ .setRatedFlow r0 0 0, .setLinearisation r0 0 [(0, 0)], .setPointVolumes r0 0 0 0,
    .setPointTimes r0 0 0 0 0, .setSuctionTimes r0 0 0, .setPumpFault r0 0 0 0 0 0, .setPumpRun r0 0 0 0,
    .configureCompartment r0 0 0 0 0 0 0, .removeCompartment r0 0, .setStrapping r0 0 [(0, 0)],
    .setStockSettle r0 0, .setLoadSettings r0 0 0, .setCouplingGrace r0 0, .setPortSupervision r0 0 0 0,
    .setWakeSettle r0 0, .badFrame .office .badCrc, .frameTimeout .office,
    .frameWhileAnswering .office (.good 255 255), .frameWhileAnswering .office (.bad .badCrc),
    .frameDuringRecovery r0 255, .responseSent .office, .unknownCommandCode r0 0, .meterPulse .load .none,
    .meterWindowEnd .load none, .nozzleOffHook .a, .nozzleOnHook .a, .tagRead .a none, .couplingGraceExpiry .a,
    .triggerPress .a, .triggerRelease .a, .authTimerExpiry .a, .pressWaitExpiry .a, .pumpFaultSuspendExpiry .a,
    .meterSettleExpiry .a, .selectorArrival, .suctionHoldExpiry .a, .pumpRampExpiry,
    .pumpSenseChange 0 0 .within, .faultDeglitchExpiry .stall, .pumpOvercurrent ]

def wellFormed3 : List Instr :=
  [ .noFlowTimerExpiry, .retryTimerExpiry, .cleanRunExpiry, .clearTimerExpiry, .consoleTimerExpiry,
    .stockSettleExpiry .n1, .levelProbeReading .n1 none, .highLevelSwitch .n1 true, .loadNoFlowExpiry,
    .loadSettleExpiry, .clockMinute, .roleAnswerTimerExpiry, .roleLapse, .calibrationSwitchChange true,
    .ignitionOff, .ignitionOn, .wakeSettleExpiry, .supplyFail ⟨none, none, none⟩, .resetPin, .powerOn,
    .resetExit ⟨true, none⟩ ]

theorem test_wellFormed1 : wellFormed1.all (fun i => i.wellFormed) = true := by decide +kernel

theorem test_wellFormed2 : wellFormed2.all (fun i => i.wellFormed) = true := by decide +kernel

theorem test_wellFormed3 : wellFormed3.all (fun i => i.wellFormed) = true := by decide +kernel

def illFormed1 : List Instr :=
  [ .getStatus rBad 0, .getStatus r0 256, .getMachine rBad 0 0, .getMachine r0 256 0, .getAccount rBad 0,
    .getAccount r0 256, .getStock rBad 0, .getStock r0 256, .readJournal rBad 0 0, .readJournal r0 0 256,
    .getNotices rBad, .getTime rBad, .setNoticeMask rBad 0 0, .setNoticeMask r0 4294967296 0,
    .setNoticeMask r0 0 256, .requestAccountRole rBad, .identifyManual rBad 0 0 ⟨0, 0⟩,
    .identifyManual r0 256 0 ⟨0, 0⟩, .identifyManual r0 0 4294967296 ⟨0, 0⟩, .identifyManual r0 0 0 ⟨256, 0⟩,
    .identifyManual r0 0 0 ⟨0, 4294967296⟩, .setPreset rBad 0 0 0, .setPreset r0 256 0 0,
    .setPreset r0 0 256 0, .setPreset r0 0 0 4294967296, .stopPoint rBad 0, .stopPoint r0 256,
    .stopRepeat rBad 0, .stopRepeat r0 256, .setPointMode rBad 0 0 0, .setPointMode r0 256 0 0,
    .setPointMode r0 0 256 0, .setPointMode r0 0 0 256, .parkPoint rBad 0, .parkPoint r0 256,
    .unparkPoint rBad 0, .unparkPoint r0 256, .clearPumpFault rBad, .openLoadPlan rBad ⟨0, spaces 12⟩,
    .openLoadPlan r0 ⟨256, spaces 12⟩ ]

def illFormed2 : List Instr :=
  [ .openLoadPlan r0 ⟨0, spaces 11⟩, .openLoadPlan r0 ⟨0, 256 :: spaces 11⟩, .appendLoadEntry rBad 0 0,
    .appendLoadEntry r0 256 0, .appendLoadEntry r0 0 4294967296, .stopLoad rBad, .closeLoadPlan rBad,
    .setCompartmentService rBad 0 0, .setCompartmentService r0 256 0, .setCompartmentService r0 0 256,
    .reconcile rBad 0, .reconcile r0 256, .putMachine rBad machine0,
    .putMachine r0 { machine0 with number := 4294967296 }, .putMachine r0 { machine0 with tagId := ⟨256, 0⟩ },
    .putMachine r0 { machine0 with product := 256 }, .putMachine r0 { machine0 with capacity := 4294967296 },
    .putMachine r0 { machine0 with account := 256 },
    .putMachine r0 { machine0 with shiftAllowance := 4294967296 },
    .putMachine r0 { machine0 with dayAllowance := 4294967296 },
    .putMachine r0 { machine0 with manualPermitted := 256 }, .putMachine r0 { machine0 with state := 256 },
    .putMachine r0 { machine0 with lastHours := ⟨256, 0⟩ },
    .putMachine r0 { machine0 with lastHours := ⟨0, 4294967296⟩ }, .dropMachine rBad 0,
    .dropMachine r0 4294967296, .putAccount rBad 0 (spaces 8) 0 0 0, .putAccount r0 256 (spaces 8) 0 0 0,
    .putAccount r0 0 (spaces 9) 0 0 0, .putAccount r0 0 (256 :: spaces 7) 0 0 0,
    .putAccount r0 0 (spaces 8) 18446744073709551616 0 0, .putAccount r0 0 (spaces 8) 0 256 0,
    .putAccount r0 0 (spaces 8) 0 0 256, .creditAdjust rBad 0 0 0, .creditAdjust r0 256 0 0,
    .creditAdjust r0 0 18446744073709551616 0, .creditAdjust r0 0 0 256, .putProduct rBad 0 (spaces 4) 0 0,
    .putProduct r0 256 (spaces 4) 0 0, .putProduct r0 0 (spaces 3) 0 0 ]

def illFormed3 : List Instr :=
  [ .putProduct r0 0 (256 :: spaces 3) 0 0, .putProduct r0 0 (spaces 4) 65536 0,
    .putProduct r0 0 (spaces 4) 0 256, .stagePrices rBad 0 (Quad.all (Quad.all 1)),
    .stagePrices r0 256 (Quad.all (Quad.all 1)),
    .stagePrices r0 0 { Quad.all (Quad.all 1) with one := { Quad.all 1 with one := 4294967296 } },
    .stagePrices r0 0 { Quad.all (Quad.all 1) with four := { Quad.all 1 with four := 4294967296 } },
    .setLimitSettings rBad 0 0, .setLimitSettings r0 4294967296 0, .setLimitSettings r0 0 4294967296,
    .adjustStock rBad 0 0, .adjustStock r0 256 0, .adjustStock r0 0 4294967296, .setStockLimits rBad 0 0 0,
    .setStockLimits r0 256 0 0, .setStockLimits r0 0 4294967296 0, .setStockLimits r0 0 0 4294967296,
    .releaseThrough rBad 0, .setTime rBad 2026 0 0 0 0 0, .setTime r0 1999 0 0 0 0 0,
    .setTime r0 2256 0 0 0 0 0, .setTime r0 2026 256 0 0 0 0, .setTime r0 2026 0 256 0 0 0,
    .setTime r0 2026 0 0 256 0 0, .setTime r0 2026 0 0 0 256 0, .setTime r0 2026 0 0 0 0 256, .trimClock rBad,
    .setShifts rBad [(0, 0)], .setShifts r0 [(256, 0)], .setShifts r0 [(0, 256)],
    .setShifts r0 (List.replicate 256 (0, 0)), .setSuctionPolicy rBad 0 0, .setSuctionPolicy r0 256 0,
    .setSuctionPolicy r0 0 256, .yieldAccountRole rBad, .denyAccountRole rBad, .setKFactor rBad 0 0,
    .setKFactor r0 256 0, .setKFactor r0 0 65536, .setRatedFlow rBad 0 0 ]

def illFormed4 : List Instr :=
  [ .setRatedFlow r0 256 0, .setRatedFlow r0 0 4294967296, .setLinearisation rBad 0 [(0, 0)],
    .setLinearisation r0 256 [(0, 0)], .setLinearisation r0 0 [(4294967296, 0)],
    .setLinearisation r0 0 [(0, 4294967296)], .setLinearisation r0 0 (List.replicate 256 (0, 0)),
    .setPointVolumes rBad 0 0 0, .setPointVolumes r0 256 0 0, .setPointVolumes r0 0 4294967296 0,
    .setPointVolumes r0 0 0 4294967296, .setPointTimes rBad 0 0 0 0, .setPointTimes r0 65536 0 0 0,
    .setPointTimes r0 0 65536 0 0, .setPointTimes r0 0 0 65536 0, .setPointTimes r0 0 0 0 65536,
    .setSuctionTimes rBad 0 0, .setSuctionTimes r0 65536 0, .setSuctionTimes r0 0 65536,
    .setPumpFault rBad 0 0 0 0 0, .setPumpFault r0 256 0 0 0 0, .setPumpFault r0 0 256 0 0 0,
    .setPumpFault r0 0 0 65536 0 0, .setPumpFault r0 0 0 0 65536 0, .setPumpFault r0 0 0 0 0 65536,
    .setPumpRun rBad 0 0 0, .setPumpRun r0 65536 0 0, .setPumpRun r0 0 65536 0, .setPumpRun r0 0 0 256,
    .configureCompartment rBad 0 0 0 0 0 0, .configureCompartment r0 256 0 0 0 0 0,
    .configureCompartment r0 0 256 0 0 0 0, .configureCompartment r0 0 0 4294967296 0 0 0,
    .configureCompartment r0 0 0 0 256 0 0, .configureCompartment r0 0 0 0 0 4294967296 0,
    .configureCompartment r0 0 0 0 0 0 4294967296, .removeCompartment rBad 0, .removeCompartment r0 256,
    .setStrapping rBad 0 [(0, 0)], .setStrapping r0 256 [(0, 0)] ]

def illFormed5 : List Instr :=
  [ .setStrapping r0 0 [(65536, 0)], .setStrapping r0 0 [(0, 65536)],
    .setStrapping r0 0 (List.replicate 256 (0, 0)), .setStockSettle rBad 0, .setStockSettle r0 65536,
    .setLoadSettings rBad 0 0, .setLoadSettings r0 4294967296 0, .setLoadSettings r0 0 65536,
    .setCouplingGrace rBad 0, .setCouplingGrace r0 65536, .setPortSupervision rBad 0 0 0,
    .setPortSupervision r0 65536 0 0, .setPortSupervision r0 0 256 0, .setPortSupervision r0 0 0 65536,
    .setWakeSettle rBad 0, .setWakeSettle r0 65536, .frameWhileAnswering .office (.good 256 0),
    .frameWhileAnswering .office (.good 0 256), .frameDuringRecovery rBad 0, .frameDuringRecovery r0 256,
    .unknownCommandCode rBad 0, .unknownCommandCode r0 256, .unknownCommandCode r0 0x09,
    .unknownCommandCode r0 0x17, .unknownCommandCode r0 0x25, .unknownCommandCode r0 0x30,
    .faultDeglitchExpiry .noFlow, .faultDeglitchExpiry .overcurrent ]

theorem test_illFormed1 : illFormed1.any (fun i => i.wellFormed) = false := by decide +kernel

theorem test_illFormed2 : illFormed2.any (fun i => i.wellFormed) = false := by decide +kernel

theorem test_illFormed3 : illFormed3.any (fun i => i.wellFormed) = false := by decide +kernel

theorem test_illFormed4 : illFormed4.any (fun i => i.wellFormed) = false := by decide +kernel

theorem test_illFormed5 : illFormed5.any (fun i => i.wellFormed) = false := by decide +kernel

/-! ### Frames written out byte by byte (R174, 10.8) -/

theorem test_frame_get_machine :
    frameRow .operator
      [0x0B, 0x00, 0x11, 0x02, 0x01, 0xEF, 0xCD, 0xAB, 0x89, 0x67, 0x45, 0x23, 0x01, 0xDA, 0x74] =
      .getMachine ⟨.operator, 0x11⟩ 1 0x0123456789ABCDEF := by decide +kernel

theorem test_frame_identify_manual :
    frameRow .operator
      [0x0C, 0x00, 0x12, 0x10, 0x01, 0x40, 0xE2, 0x01, 0x00, 0x01, 0x31, 0xD4, 0x00, 0x00, 0x19, 0xE5] =
      .identifyManual ⟨.operator, 0x12⟩ 1 123456 ⟨1, 54321⟩ := by decide +kernel

theorem test_frame_append_load_entry :
    frameRow .operator
      [0x07, 0x00, 0x13, 0x21, 0x04, 0xFF, 0xFF, 0xFF, 0xFF, 0x41, 0x26] =
      .appendLoadEntry ⟨.operator, 0x13⟩ 4 0xFFFFFFFF := by decide +kernel

theorem test_frame_credit_adjust :
    frameRow .office
      [0x0C, 0x00, 0x14, 0x33, 0x40, 0xFF, 0xE7, 0x76, 0x48, 0x17, 0x00, 0x00, 0x00, 0x01, 0x22, 0x7A] =
      .creditAdjust ⟨.office, 0x14⟩ 64 99999999999 1 := by decide +kernel

theorem test_frame_set_time :
    frameRow .office
      [0x08, 0x00, 0x15, 0x3A, 0x1A, 0x02, 0x1C, 0x17, 0x3B, 0x3A, 0xAE, 0x70] =
      .setTime ⟨.office, 0x15⟩ 2026 2 28 23 59 58 := by decide +kernel

theorem test_frame_set_shifts :
    frameRow .office
      [0x07, 0x00, 0x16, 0x3C, 0x02, 0x06, 0x00, 0x12, 0x1E, 0x1C, 0xEE] =
      .setShifts ⟨.office, 0x16⟩ [(6, 0), (18, 30)] := by decide +kernel

theorem test_frame_set_linearisation :
    frameRow .service
      [0x14, 0x00, 0x17, 0x42, 0x02, 0x02, 0xE8, 0x03, 0x00, 0x00, 0x10, 0x4A, 0x0F, 0x00, 0xD0, 0x07, 0x00, 0x00,
       0x70, 0x3A, 0x0F, 0x00, 0x7F, 0xB2] =
      .setLinearisation ⟨.service, 0x17⟩ 2 [(1000, 1002000), (2000, 998000)] := by decide +kernel

theorem test_frame_set_pump_fault :
    frameRow .service
      [0x0A, 0x00, 0x18, 0x46, 0x01, 0x01, 0x0A, 0x00, 0x7D, 0x00, 0x1E, 0x00, 0x08, 0x60] =
      .setPumpFault ⟨.service, 0x18⟩ 1 1 10 125 30 := by decide +kernel

theorem test_frame_unknown_code :
    frameRow .service
      [0x02, 0x00, 0x19, 0x50, 0xB6, 0x8A] =
      .unknownCommandCode ⟨.service, 0x19⟩ 0x50 := by decide +kernel

theorem test_frame_wrong_length :
    frameRow .service
      [0x03, 0x00, 0x1A, 0x06, 0x00, 0xDA, 0xD1] =
      .badFrame .service .wrongLength := by decide +kernel

theorem test_frame_bad_crc : frameRow .office [0x02, 0x00, 0x1B, 0x06, 0xE7,
 0xD7] = .badFrame .office .badCrc := by decide +kernel

theorem test_frame_short : frameRow .office [0x02, 0x00, 0x1B] = .frameTimeout .office := by decide

theorem test_frame_length_one : frameRow .office [0x01, 0x00, 0x1B] = .badFrame .office .badLength := by decide

theorem test_frame_length_1025 : frameRow .office [0x01, 0x04] = .badFrame .office .badLength := by decide

/-- Bytes before a sync byte are dropped; a bad length ends its frame at once, and the port waits again (R174). -/
theorem test_bytes_before_the_sync_byte_are_dropped :
    received .service
        [0x00, 0x55, 0xC3, 0x02, 0x00, 0x19, 0x50, 0xB6, 0x8A, 0xFF, 0xC3, 0x01, 0x00, 0x1B, 0xC3, 0x02] =
      [.unknownCommandCode ⟨.service, 0x19⟩ 0x50, .badFrame .service .badLength, .frameTimeout .service] := by
  decide +kernel

/-- CRC-16/CCITT-FALSE of the nine digits 1 to 9 (R174), the published check value of that CRC. -/
theorem test_crc_check_value :
    crc16 [0x31, 0x32, 0x33, 0x34, 0x35, 0x36, 0x37, 0x38, 0x39] = 0x29B1#16 := by decide +kernel


/-! ### Figures worked by hand from the rules -/

/-- 1,460 transitions at K = 2,500: 1,401 dL/min, MF 1,000,396 ppm, VCF 986,388 ppm at 31.4 °C (R5 to R11). -/
theorem test_window_worked :
    (Channel.window
        { Channel.factory 1500 with
          forward := 1460, k := 2500, table := [(1000, 1002000), (2000, 998000)], bound := true, alpha := some 830 }
        (some 314)).2 =
      { gross := 584231, net := 576278, t10 := 314, rate := 1401, grown := 58, flags := Flags.clear } := by
  decide +kernel

/-- Debt 7 against 5 forward and 2 reverse: 3 more transitions repaid, 4 left, nothing usable (R5). -/
theorem test_debt_is_repaid : settleDebt 5 2 7 = (0, 4) := by decide

theorem test_reverse_makes_debt : settleDebt 2 5 7 = (0, 10) := by decide

theorem test_count_holds_at_top :
    ((Channel.count { Channel.factory 1500 with forward := 65535 } .forward).forward,
      (Channel.count { Channel.factory 1500 with reverse := 65534 } .reverse).reverse) = (65535, 65535) := by decide

/-- α × (T10 − 150) / 10 of 0.5, −0.5, 0.4 and 13,612 (R10). -/
theorem test_correction_factor :
    [correctionFactor 1 155, correctionFactor 1 145, correctionFactor 1 154, correctionFactor 830 314] =
      [999999, 1000001, 1000000, 986388] := by decide

/-- Below the first point, on a point, between two, above the last (R7). -/
theorem test_meter_factor :
    [0, 1000, 1500, 1401, 2000, 9999].map (meterFactor [(1000, 1002000), (2000, 998000)]) =
      [1002000, 1002000, 1000000, 1000396, 998000, 998000] := by decide

/-- A tie goes to the greater factor: 1,000,000.5 ppm half way between two neighbours (R7). -/
theorem test_meter_factor_tie : meterFactor [(1, 1000000), (3, 1000001)] 2 = 1000001 := by decide

/-- 41,237 cL at 1,879 cents per litre is 77,484.323 cents; a half rounds up; a reservation rounds up (R24, R57). -/
theorem test_money :
    [billAmount 41237 1879, billAmount 1 500, billAmount 1 499, reservationFor 41237 1879, reservationFor 1000 1,
      volumeFor 77485 1879] = [77484, 1, 0, 77485, 1, 41237] := by decide

/-- Ties of the mean temperature go away from zero; no gross volume gives 15.0 °C (R14). -/
theorem test_mean_temp : [meanTemp 5 2, meanTemp (-5) 2, meanTemp 4 3, meanTemp 9 0] = [3, -3, 1, 150] := by decide

/-- 1,500 mm half way from 8,000 L to 20,000 L; both ends; beyond them the reading is clamped (R120). -/
theorem test_gauge_gross :
    [1500, 1000, 2000, 999, 2001].map (gaugeGross [(1000, 8000), (2000, 20000)]) =
      [(1400000, false), (800000, false), (2000000, false), (800000, true), (2000000, true)] := by decide

/-- 21:59 belongs to the shift of 18:30; 05:59 to the last shift of the day before (R168). -/
theorem test_shift_identity :
    [shiftAt [(6, 0), (18, 30)] { date := ⟨2026, 3, 1⟩, hour := 21, minute := 59, second := 0, tenth := 0 },
      shiftAt [(6, 0), (18, 30)] { date := ⟨2026, 3, 1⟩, hour := 5, minute := 59, second := 0, tenth := 0 }] =
      [⟨⟨2026, 3, 1⟩, 2⟩, ⟨⟨2026, 2, 28⟩, 2⟩] := by decide

/-- 29 February in a leap year, and the calendar's end (R163). -/
theorem test_calendar :
    (monthLength 2024 2, monthLength 2026 2, Date.next ⟨2024, 2, 29⟩, (Date.next ⟨2099, 12, 31⟩).2) =
      (29, 28, (⟨2024, 3, 1⟩, false), true) := by decide

/-! ### States for single steps, and for the hypotheses of the statements -/

/-- The state a row leaves. -/
def after (i : Instr) (s : State) : State :=
  match exec i s with
  | .next t => t
  | .fault _ => s
  | .refused _ => s

/-- A command of the OPERATOR, OFFICE and SERVICE port. -/
def rO : Req := { port := .operator, tag := 7 }

def rF : Req := { port := .office, tag := 7 }

def rS : Req := { port := .service, tag := 7 }

/-- What a command's port sends. -/
def reply (i : Instr) (s : State) (r : Req) : Option (Status × Option Reason) :=
  ((after i s).port r.port).sending.map fun x => (x.status, x.reason)

def machine7 : MachineRec :=
  { number := 7, tagId := some 0xAB, product := .n1, capacity := 50000, account := 1, shiftAllowance := 40000
    dayAllowance := 30000, shiftUsage := 1000, dayUsage := 5000, reserved := 0, lastHours := none
    manualPermitted := true, state := .active }

def account1 : Account :=
  { number := 1, code := spaces 8, credit := 1000000, spent := 500000, reserved := 0, tier := .n2, closed := false
    stopped := false }

def comp1 : Compartment := { Compartment.factory with state := .inService, book := 500000, settle := none }

/-- The factory part in RUN with fuel, a product, an account, a machine and both nozzles off hook, the calibration switch
closed. -/
def fuel : State :=
  { State.reset with
    products := { Quad.all none with one := some { code := spaces 4, alpha := 830, points := ⟨true, true⟩ } }
    accounts := [account1]
    roster := [machine7]
    stock := { Quad.all none with one := some comp1 }
    couplers := { a := { Coupler.factory with offHook := true }, b := { Coupler.factory with offHook := true } }
    roles := { State.reset.roles with calibration := true }
    power := { State.reset.power with state := .run, ignition := true }
    clock := { State.reset.clock with now := { DateTime.epoch with hour := 12 }, valid := true } }

/-- An authorisation of machine 7 at point A: the day allowance leaves 25,000 cL. -/
def delivery : Delivery :=
  { machine := 7, ident := .tag 0xAB, account := 1, product := .n1, limit := 25000, source := .dayAllowance
    price := 1000, reservation := 25000, preset := none, hours := none, start := DateTime.epoch
    startInvalid := false, gross_uL := 0, net_uL := 0, tempSum := 0, earlier := none
    current := { comp := .n1, net_uL := 0, remaining := 25000 }, flags := Flags.clear, fill := 0, repeatCount := 1
    minimum := 100 }

/-- The account and the compartment as they stand behind `delivery`. -/
def opened : State :=
  { fuel with
    accounts := [{ account1 with reserved := 25000 }]
    roster := [{ machine7 with reserved := 25000 }]
    stock := { fuel.stock with one := some { comp1 with reserved := 25000 } }
    journal := { fuel.journal with reserved := 1 }
    channels := { fuel.channels with first := { fuel.channels.first with bound := true, alpha := some 830 } }
    couplers := { fuel.couplers with a := { fuel.couplers.a with coupling := .coupled 0xAB 0 } } }

/-- Point A in `state` with `delivery`. -/
def atState (state : PointState) : State :=
  { opened with
    points :=
      { opened.points with
        a := { Point.factory with state := state, context := some delivery, mode := .holdToRun, trigger := state.wantsFlow } } }

/-- Point A flowing from compartment 1 with its pump running. -/
def flowing : State :=
  let s := atState (.flowing .fast)
  { s with
    points := { s.points with a := { s.points.a with fastValve := true, slowValve := true, flowStarted := true } }
    arbiter := { s.arbiter with selector := .held .n1, claims := { a := .flowing, b := .none }, lastGranted := some .a }
    pump := { s.pump with state := .running, drive := true, speed := 100, cleanRun := some 300 }
    watch := { s.watch with timer := some 20 } }

/-- The current entry of a plan that loads compartment 2. -/
def entry : Entry :=
  { comp := .n2, target := .fill, state := .loading
    context :=
      some
        { product := .n1, used := 100000, clamped := false, docket := none, start := DateTime.epoch
          startInvalid := false, gross_uL := 0, net_uL := 400000000, tempSum := 0, flowBegun := true
          flags := Flags.clear, pendingEnd := none } }

/-- A plan LOADING compartment 2, its inlet valve open. -/
def loading : State :=
  { fuel with
    stock := { fuel.stock with two := some { comp1 with state := .loading, book := 100000 } }
    loader :=
      { fuel.loader with
        state := .opened, current := some entry, stageEmpty := true, noFlow := some 600
        inlets := { Quad.all false with two := true } }
    channels := { fuel.channels with third := { fuel.channels.third with bound := true, alpha := some 830 } }
    journal := { fuel.journal with reserved := 1 } }

/-- The same entry SETTLING. -/
def settling : State :=
  { loading with
    loader :=
      { loading.loader with
        current := some { entry with
          state := .settling, context := entry.context.map fun x => { x with pendingEnd := some .target } }
        noFlow := none, settle := some 20, inlets := Quad.all false, state := .closing } }

/-- Point A of `s` with `f` done to it. -/
def modA (s : State) (f : Point → Point) : State := s.setPoint .a (f s.points.a)

def modPump (s : State) (f : Pump → Pump) : State := s.setPump (f s.pump)

def modArb (s : State) (f : Arbiter → Arbiter) : State := s.setArbiter (f s.arbiter)

def modC (s : State) (f : Coupler → Coupler) : State := s.setCoupler .a (f s.couplers.a)

/-- A part whose port is ANSWERING. -/
def answering (s : State) (o : PortId) : State := s.answer o (Reply.ok.response 1 1)

/-! ### Witnesses: states that meet the hypotheses of the statements, clause by clause -/

/-- Every timer of point A, the arbiter, the pump, compartment 1 and the sequencer, and the others, at its last tenth, 59.9 s
into a minute, with a role request of a lapsed holder. -/
def lastTenth : State :=
  { flowing with
    points :=
      { flowing.points with
        a := { flowing.points.a with
          authTimer := some 1, pressWait := some 1, pumpSuspend := some 1, meterSettle := some 1 } }
    couplers := { flowing.couplers with a := { flowing.couplers.a with grace := some 1 } }
    arbiter := { flowing.arbiter with travel := some 1, hold := { a := some 1, b := none } }
    pump :=
      { flowing.pump with
        deglitch := PerFault.all (some 1), noFlow := some 1, cleanRun := some 1, ramp := some 1, retry := some 1
        clear := some 1 }
    stock := { flowing.stock with one := flowing.stock.one.map fun x => { x with settle := some 1 } }
    loader := { flowing.loader with noFlow := some 1, settle := some 1 }
    ports := { flowing.ports with second := { flowing.ports.second with silence := 2999 } }
    roles := { flowing.roles with requester := some .service, answer := some 1 }
    power := { flowing.power with wake := some 1 }
    watch := { flowing.watch with timer := some 1 }
    clock := { flowing.clock with now := { flowing.clock.now with second := 59, tenth := 9 } } }

theorem test_witness_EmptyQueueIsATenth :
    State.reset.pending = [] ∧ State.reset.inReset = false ∧
      ¬ (State.reset.clock.now.second = 59 ∧ State.reset.clock.now.tenth = 9) ∧
      State.reset.enterReset.pending = [] ∧ State.reset.enterReset.inReset = true ∧
      lastTenth.pending = [] ∧ lastTenth.inReset = false ∧
      (lastTenth.clock.now.second = 59 ∧ lastTenth.clock.now.tenth = 9) ∧
      lastTenth.tick.pending =
        [.authTimerExpiry .a, .pressWaitExpiry .a, .pumpFaultSuspendExpiry .a, .meterSettleExpiry .a,
          .couplingGraceExpiry .a, .selectorArrival, .suctionHoldExpiry .a, .pumpRampExpiry,
          .faultDeglitchExpiry .stall, .faultDeglitchExpiry .dryRun, .faultDeglitchExpiry .supplyLow,
          .faultDeglitchExpiry .supplyHigh, .noFlowTimerExpiry, .retryTimerExpiry, .cleanRunExpiry,
          .clearTimerExpiry, .consoleTimerExpiry, .stockSettleExpiry .n1, .loadNoFlowExpiry, .loadSettleExpiry,
          .roleAnswerTimerExpiry, .wakeSettleExpiry, .roleLapse, .clockMinute] := by decide

theorem test_witness_ErrorsChangeNothing :
    framing (.setKFactor rS 0 99) = some (rS, 0x40, .calibrate) ∧ fuel.takes rS .calibrate ∧
      reply (.setKFactor rS 0 99) fuel rS = some (.badParam, none) ∧
      framing (.stopLoad rO) = some (rO, 0x22, .operateOrAccount) ∧ fuel.takes rO .operateOrAccount ∧
      reply (.stopLoad rO) fuel rO = some (.wrongState, none) := by decide

theorem test_witness_WrongRoleHasNoAction :
    framing (.setWakeSettle rS 5) = some (rS, 0x4F, .calibrate) ∧ (State.reset.port .service).sending = none ∧
      State.reset.inReset = false ∧ State.reset.mayUse .service .calibrate = false ∧
      framing (.setTime rO 2026 1 1 0 0 0) = some (rO, 0x3A, .account) ∧
      (State.reset.port .operator).sending = none ∧ State.reset.mayUse .operator .account = false := by decide

theorem test_witness_BusyIsAnswered :
    framing (.getTime rO) = some (rO, 0x07, .anyPort) ∧
      ((answering fuel .operator).port .operator).sending.isSome = true ∧
      ((answering fuel .operator).port .operator).extra = none ∧
      (((answering fuel .operator).queueExtra .operator badFrameResponse).port .operator).sending.isSome = true ∧
      (((answering fuel .operator).queueExtra .operator badFrameResponse).port .operator).extra.isSome = true ∧
      (fuel.enterReset.port .operator).sending = none ∧ fuel.enterReset.inReset = true := by decide

/-- The outputs' properties hold of a part that pumps fuel, and a pulse is a step from it. -/
theorem test_witness_outputs :
    flowing.ValvesAgree ∧ flowing.SelectorAgrees ∧ flowing.PumpSafe ∧
      step { flowing with pending := [.meterPulse .a .forward] } =
        .next (flowing.setChannel .a { flowing.channels.first with forward := 1 }) := by
  refine ⟨?_, ⟨by constructor <;> nofun, by constructor <;> nofun⟩, ⟨by constructor <;> decide, by decide, nofun⟩, rfl⟩
  constructor <;> constructor <;> decide

/-- The selector's properties hold of a part that loads, and of one whose selector moves. -/
theorem test_witness_selector :
    loading.InletsSafe ∧
      (modArb fuel fun a => { a with selector := .moving .n1, motor := true, travel := some 5 }).SelectorAgrees := by
  refine ⟨fun c => ?_, ⟨⟨fun _ => ⟨.n1, rfl⟩, fun _ => rfl⟩, ⟨fun _ => ⟨.n1, rfl⟩, fun _ => rfl⟩⟩⟩
  cases c <;> refine ⟨nofun, ?_⟩ <;> intro h <;> first | exact absurd h (by decide) | exact ⟨_, rfl, rfl⟩

/-- A part that loads compartment 2, which its current entry names. -/
theorem test_witness_loads : loading.LoadsAgree := by
  refine ⟨nofun, fun e h => ?_, fun c x h => ?_⟩
  · cases h; decide
  · cases c <;> cases h
    · exact ⟨nofun, nofun⟩
    · exact ⟨fun _ => ⟨entry, rfl, rfl, rfl⟩, nofun⟩

theorem test_witness_AttentionFollowsNotices : loading.LinesAgree := by
  intro o; cases o <;> (unfold Port.lineAgrees; decide)

/-- The tables, the journal, the slots and the reservations of a part with an open delivery. -/
theorem test_witness_books :
    flowing.RosterOrdered ∧ flowing.AccountsOrdered ∧ flowing.SlotsAgree ∧ (flowing.journal.contiguous ∧ flowing.AmountsAgree) := by
  refine ⟨⟨by decide, by decide⟩, by unfold State.AccountsOrdered; decide, ⟨⟨fun p => ?_, ?_, ?_⟩, by decide, by decide⟩, ?_, ?_⟩
  · cases p <;> decide
  · intro p h; exact absurd h (by decide)
  · intro h; rfl
  · intro i r h
    have e : ([] : List Record)[i]? = some r := h
    simp at e
  · intro x h
    have e : x ∈ ([] : List Record) := h
    simp at e

theorem test_witness_ReservationsStayExact : flowing.BooksAgree where
  work := ⟨fun p => by cases p <;> decide, fun _ h => absurd h (by decide), fun _ => rfl⟩
  roster := ⟨by decide, by decide⟩
  accounts := by unfold State.AccountsOrdered; decide
  distinct := by intro d e _ h; cases h
  backing := by
    intro p d h
    cases p
    · cases h; exact ⟨rfl, rfl, rfl, by decide⟩
    · cases h
  reserved := ⟨by decide, by decide, fun c x h => by cases c <;> cases h; decide⟩

/-- A journal of two records, the older a delivery. -/
def recorded : State := after (.authTimerExpiry .a) (((fuel.store (.accountReset 1 (spaces 8) 0 0 0 0))).store
  (.delivery (deliveryRecordOf .a { delivery with net_uL := 412370000, price := 1879 } .limit false false)))

theorem test_witness_JournalStaysContiguous :
    recorded.journal.records.map (fun x => x.seq) = [1#32, 2#32] ∧ recorded.journal.oldest = 1#32 := by
  decide +kernel

theorem test_witness_TotalisersOnlyCountWindows :
    exec (.meterPulse .a .forward) flowing =
      .next (flowing.setChannel .a { flowing.channels.first with forward := 1 }) := rfl

theorem test_witness_FramesAreHeardAndAnswered :
    (fuel.port .operator).sending = none ∧ (fuel.port .office).sending = none ∧
      ((answering fuel .operator).port .operator).sending.isSome = true ∧
      ((answering fuel .operator).port .operator).extra = none ∧
      (((answering fuel .operator).queueExtra .operator badFrameResponse).port .operator).extra.isSome = true ∧
      fuel.enterReset.inReset = true ∧ (fuel.enterReset.port .operator).sending = none ∧
      (answering fuel.enterReset .operator).inReset = true ∧
      ((answering fuel.enterReset .operator).port rO.port).sending.isSome = true ∧
      ((answering fuel.enterReset .operator).port rO.port).extra = none ∧
      fuel.takes rO .anyPort ∧ fuel.inReset = false ∧ after (.frameDuringRecovery rO 1) fuel = fuel ∧
      after (.frameWhileAnswering .operator (.good 7 1)) fuel = fuel ∧
      reply (.unknownCommandCode rO 0x7F) fuel.enterReset rO = some (.busy, none) ∧
      ((atState (.suspended .consoleSilent)).point .a).state = .suspended .consoleSilent := by decide

theorem test_witness_ReadsAnswerAndChangeNothing :
    fuel.takes rF .anyPort ∧ ((fuel.frameReceived .office).sectionFlds 9).isSome = true ∧
      findMachine fuel.roster 7 = some machine7 ∧ findMachine fuel.roster 999999 = none ∧
      nextMachine fuel.roster 6 = some machine7 ∧ (∀ x ∈ fuel.roster, x.number ≤ 7) ∧ machine7.tagId = some 0xAB ∧
      (∀ x ∈ fuel.roster, x.tagId ≠ some 0xAC) ∧ (fuel.frameReceived .office).roster = fuel.roster ∧
      findAccount fuel.accounts 1 = some account1 ∧ findAccount fuel.accounts 64 = none ∧
      fuel.comp .n1 = some comp1 ∧ num4Of 4 = some .n4 ∧ fuel.comp .n4 = none ∧
      ((1#32 : SeqNo) - recorded.journal.oldest).toNat < recorded.journal.occupied ∧
      recorded.takes rF .anyPort ∧
      recorded.journal.occupied ≤ ((3#32 : SeqNo) - recorded.journal.oldest).toNat := by decide +kernel

theorem test_reads_of_nothing :
    [reply (.getStatus rF 10) fuel rF, reply (.getMachine rF 0 0) fuel rF, reply (.getMachine rF 0 8) fuel rF,
        reply (.getMachine rF 1 7) fuel rF, reply (.getMachine rF 1 1000000) fuel rF,
        reply (.getMachine rF 1 0x100000000) fuel rF, reply (.getMachine rF 2 0xAC) fuel rF,
        reply (.getMachine rF 3 7) fuel rF, reply (.getAccount rF 65) fuel rF, reply (.getAccount rF 64) fuel rF,
        reply (.getStock rF 5) fuel rF, reply (.getStock rF 4) fuel rF, reply (.readJournal rF 1 9) fuel rF,
        reply (.readJournal rF 1 8) fuel rF] =
      [some (.badParam, none), some (.badParam, none), some (.notFound, none), some (.notFound, none),
        some (.badParam, none), some (.ok, none), some (.notFound, none), some (.badParam, none),
        some (.badParam, none), some (.notFound, none), some (.badParam, none), some (.notFound, none),
        some (.badParam, none), some (.notFound, none)] := by decide +kernel

theorem test_witness_NoticesAreReturnedAndCleared :
    loading.takes rO .anyPort ∧ (2 ^ 25 - 1 < 2 ^ 25) ∧
      (after (.getNotices rO) loading).ports.first.notices = 0 ∧
      (after (.setNoticeMask rO (2 ^ 25) 1) loading).ports.first.mask = BitVec.allOnes 25 ∧
      reply (.setNoticeMask rO (2 ^ 25) 1) loading rO = some (.badParam, none) := by decide

/-- A request of the SERVICE port, its switch open, pending at the office. -/
def requested : State :=
  { fuel with roles := { holder := .office, requester := some .service, answer := some 600, calibration := false } }

theorem test_witness_RoleRequestIsDecided :
    fuel.takes rF .anyPort ∧ fuel.roles.holder = .office ∧ fuel.takes rS .anyPort ∧ fuel.roles.calibration = true ∧
      fuel.takes rO .anyPort ∧ (fuel.port .office).silence < fuel.watch.lapse ∧ fuel.roles.requester = none ∧
      requested.takes rO .anyPort ∧ requested.roles.requester.isSome = true ∧
      fuel.watch.lapse ≤ ((fuel.setPort .office { fuel.ports.second with silence := 3000 }).port .office).silence := by
  decide

theorem test_witness_RoleRequestEnds :
    requested.takes rF .account ∧ requested.roles.requester = some .service ∧ fuel.takes rF .account ∧
      fuel.roles.requester = none ∧ requested.roles.answer.isSome = true ∧
      ¬ (requested.roles.holder = .service ∧ requested.roles.calibration = true) ∧ requested.inReset = false ∧
      requested.roles.calibration = false ∧
      (let s := requested.setRoles { requested.roles with holder := .service, requester := none, calibration := true };
        s.inReset = false ∧ s.roles.calibration = true ∧ s.roles.holder = .service) ∧
      State.reset.roles.requester ≠ some .service ∧ State.reset.roles.holder ≠ .service := by decide

/-- Machine 7 by hand at point A of `fuel`: the day allowance is the least term, 25,000 cL at 1,000 cents per litre. -/
theorem test_witness_ManualIdentificationOpens :
    let u := fuel.frameReceived .operator
    let q : AuthRequest := { machine := machine7, ident := .manual, hours := none, level := none, fill := 0 }
    (fuel.takes rO .operate ∧ readOpt 0 (fun h => decide (h ≤ 9999999)) (⟨0, 0⟩ : RawOpt Nat) = some none ∧
      (u.point .a).parked = false ∧ (u.point .a).state = .closed ∧ (u.coupler .a).offHook = true ∧
      (u.coupler .a).coupling.away = true ∧ findMachine u.roster 7 = some machine7 ∧
      machine7.manualPermitted = true ∧ machine7.state = .active ∧ (u.point .a).firstFill = 0 ∧
      ((after (.identifyManual rO 0 7 ⟨0, 0⟩) fuel).points.a.context.map fun d => (d.limit, d.source)) =
        some (20000, .manualCap)) ∧
      u.Authorises .a q account1 .n1 20000 .manualCap 1000 :=
  ⟨by decide, by constructor <;> decide⟩

theorem test_witness_ManualIdentificationRefused :
    let closed (f : Point → Point) : State := modA fuel f
    fuel.takes rO .operate ∧ (closed fun x => { x with parked := true }).takes rO .operate ∧
      ((closed fun x => { x with state := .authorised }).point .a).state ≠ .closed ∧
      ((modC fuel fun x => { x with offHook := false }).coupler .a).offHook = false ∧
      ((modC fuel fun x => { x with coupling := .settling1 1 }).coupler .a).coupling.away = false ∧
      findMachine fuel.roster 999999 = none ∧ pointOf 2 = none ∧
      reply (.identifyManual rO 2 7 ⟨0, 0⟩) fuel rO = some (.badParam, none) ∧
      [reply (.identifyManual rO 0 0 ⟨0, 0⟩) fuel rO, reply (.identifyManual rO 0 1000000 ⟨0, 0⟩) fuel rO,
          reply (.identifyManual rO 0 7 ⟨0, 0⟩) (closed fun x => { x with parked := true }) rO,
          reply (.identifyManual rO 0 7 ⟨0, 0⟩) (closed fun x => { x with state := .authorised }) rO,
          reply (.identifyManual rO 0 7 ⟨0, 0⟩) (modC fuel fun x => { x with offHook := false }) rO,
          reply (.identifyManual rO 0 7 ⟨0, 0⟩) (modC fuel fun x => { x with coupling := .settling1 1 }) rO,
          reply (.identifyManual rO 0 999999 ⟨0, 0⟩) fuel rO] =
        [some (.badParam, none), some (.badParam, none), some (.refused, some .pointParked), some (.wrongState, none),
          some (.refused, some .nozzleOnHook), some (.refused, some .tagPresent), some (.notFound, none)] := by
  decide

/-- The last checks of R41 and those of R53, in their order. -/
theorem test_witness_ManualIdentificationRefused_machine :
    let ask (s : State) : Option (Status × Option Reason) := reply (.identifyManual rO 0 7 ⟨0, 0⟩) s rO
    let withMachine (f : MachineRec → MachineRec) : State := fuel.setRoster [f machine7]
    let withAccount (f : Account → Account) : State := fuel.setAccounts [f account1]
    let full : State := fuel.setJournal { fuel.journal with reserved := 2040 }
    [ask (withMachine fun m => { m with manualPermitted := false }),
        ask (withMachine fun m => { m with state := .suspended }),
        ask (fuel.setPower { fuel.power with state := .standby }),
        reply (.identifyManual rO 1 7 ⟨0, 0⟩) (atState .authorised) rO,
        ask { fuel with products := Quad.all none }, ask (fuel.setAccounts []),
        ask (withAccount fun a => { a with closed := true, stopped := true }),
        ask (withAccount fun a => { a with stopped := true }), ask (fuel.setComp .n1 none), ask full,
        ask (withMachine fun m => { m with dayUsage := 29901 })] =
      [some (.refused, some .manualNotPermitted), some (.refused, some .machineSuspended),
        some (.refused, some .standby), some (.refused, some .machineBusy), some (.refused, some .productNotAtPoint),
        some (.refused, some .accountClosed), some (.refused, some .accountClosed),
        some (.refused, some .accountStopped), some (.refused, some .noStock), some (.refused, some .journalFull),
        some (.refused, some .belowMinimum)] ∧
      fuel.chooseComp machine7.product = some .n1 ∧ full.journal.canReserve = false ∧
      ((after (.identifyManual rO 0 7 ⟨0, 0⟩) full).port .operator).has .journalFull = true ∧
      (after (.identifyManual rO 0 7 ⟨0, 0⟩) (withMachine fun m => { m with dayUsage := 29901 })).couplers.a.outcome.map
          (fun x => x.source) = some (some .dayAllowance) := by decide

/-- Two reads of tag 0xAB at point A. -/
def secondRead : State := modC fuel fun x => { x with coupling := .settling2 0xAB }

def tagAB : TagReply := { tag := 0xAB, hours := some 54321, level := some 55 }

theorem test_witness_TagIdentifies :
    let q : AuthRequest :=
      { machine := machine7, ident := .tag 0xAB, hours := some 54321, level := some 55, fill := 0 }
    let asleep : State := { secondRead with power := { secondRead.power with state := .standby } }
    let barred := secondRead.setRoster [{ machine7 with state := .suspended }]
    let outcome (t : State) : Option (Status × Option Reason) := t.couplers.a.outcome.map fun x => (x.status, x.reason)
    (secondRead.inReset = false ∧ (secondRead.coupler .a).offHook = true ∧
      (secondRead.coupler .a).coupling = .settling2 tagAB.tag ∧ (secondRead.point .a).context = none ∧
      (secondRead.point .a).state = .closed ∧ (secondRead.point .a).parked = false ∧
      (secondRead.point .a).mode ≠ .repeatFill ∧ findTag secondRead.roster 0xAB = some machine7 ∧
      (TagReply.read tagAB).hours = some 54321 ∧ (TagReply.read tagAB).level = some 55 ∧
      findTag (secondRead.setRoster []).roster 0xAB = none ∧ machine7.state = .active ∧
      findTag barred.roster 0xAB = some { machine7 with state := .suspended } ∧
      [asleep, barred].map (fun v => outcome (after (.tagRead .a (some tagAB)) v)) =
        [some (.refused, some .standby), some (.refused, some .machineSuspended)] ∧
      ((modA secondRead fun x => { x with mode := .repeatFill }).point .a).mode = .repeatFill) ∧
      secondRead.Authorises .a q account1 .n1 22500 .tank 1000 ∧ asleep.Refuses .a q .standby none :=
  ⟨by decide, by constructor <;> decide, .standby (by decide)⟩

theorem test_witness_ReadsMoveTheCoupling :
    fuel.inReset = false ∧ (fuel.coupler .a).offHook = true ∧ (fuel.point .a).context = none ∧
      (fuel.coupler .a).coupling = .uncoupled ∧
      ([Coupling.settling1 0xAB, .settling2 0xAC, .coupled 0xAB 1, .coupled 0xAB 2, .lost 0xAB].map fun k =>
          (after (.tagRead .a none) (modC fuel fun x => { x with coupling := k })).couplers.a.coupling) =
        [.uncoupled, .uncoupled, .coupled 0xAB 2, .lost 0xAB, .lost 0xAB] ∧
      ([Coupling.uncoupled, .settling1 0xAB, .settling1 0xAC, .settling2 0xAC, .coupled 0xAB 1, .coupled 0xAC 0,
            .lost 0xAB].map fun k =>
          (after (.tagRead .a (some tagAB)) (modC fuel fun x => { x with coupling := k })).couplers.a.coupling) =
        [.settling1 0xAB, .settling2 0xAB, .settling1 0xAB, .settling1 0xAB, .coupled 0xAB 0, .settling1 0xAB,
          .settling1 0xAB] := by decide

theorem test_witness_CouplingIsSupervised :
    let lost := modC flowing fun x => { x with coupling := .coupled 0xAB 2 }
    let back := modC (atState (.suspended .couplingLost)) fun x => { x with coupling := .settling2 0xAB, grace := some 5 }
    flowing.inReset = false ∧ (flowing.coupler .a).offHook = true ∧ (flowing.point .a).context = some delivery ∧
      delivery.ident = .tag 0xAB ∧ (lost.coupler .a).coupling = .coupled 0xAB 2 ∧
      (lost.point .a).state.wantsFlow = true ∧ (back.coupler .a).coupling = .settling2 0xAB ∧
      (back.coupler .a).grace.isSome = true ∧ (back.point .a).state = .suspended .couplingLost ∧
      (back.point .a).context = some delivery ∧ (0xAC : TagId) ≠ 0xAB := by decide

theorem test_witness_PresetIsSet :
    let u := (atState .authorised).frameReceived .operator
    fuel.takes rO .operate ∧ (fuel.point .a).context = none ∧ presetOf 0 0 = some none ∧
      presetOf 1 2000000 = some (some (.volume 2000000)) ∧ presetOf 3 1 = none ∧ presetOf 1 2000001 = none ∧
      (atState .authorised).takes rO .operate ∧ (u.point .a).context = some delivery ∧
      delivery.limit ≤ (Preset.volume 25000).volumeAt delivery.price ∧
      (Preset.volume 24999).volumeAt delivery.price < delivery.limit ∧
      presetOf 1 24999 = some (some (.volume 24999)) ∧
      ((flowing.frameReceived .operator).point .a).state.unfinished = true ∧ flowing.takes rO .operate ∧
      (Preset.amount 20).volumeAt delivery.price ≤ cLof delivery.net_uL + (flowing.point .a).closeAhead := by decide

/-- 24,999 cL at 1,000 cents per litre reserves 24,999 cents of the account and of the compartment. -/
theorem test_preset_lowers_the_limit :
    let t := after (.setPreset rO 0 1 24999) (atState .authorised)
    (t.points.a.context.map fun d => (d.limit, d.source, d.reservation, d.current.remaining),
        t.roster.map (fun m => m.reserved), t.accounts.map (fun a => a.reserved),
        t.stock.one.map fun x => x.reserved) =
      (some (24999, .preset, 24999, 24999), [24999], [24999], some 24999) := by decide

theorem test_witness_PointFinishes :
    flowing.takes rO .operate ∧ (flowing.point .a).state.unfinished = true ∧
      ((atState .finishing).point .a).state = .finishing ∧ (atState .finishing).takes rO .operate ∧
      (fuel.point .a).state = .closed ∧ fuel.takes rO .operate ∧ (flowing.coupler .a).offHook = true ∧
      (fuel.coupler .a).offHook = true ∧ flowing.power.state = .run ∧
      (after (.nozzleOnHook .a) flowing).points.a.pendingEnd = some .nozzleHung ∧
      (after .ignitionOff flowing).points.a.pendingEnd = some .ignitionOff := by decide

theorem test_witness_PointItemsAreSet :
    let repeating := modA (atState .authorised) fun x => { x with mode := .repeatFill }
    repeating.takes rO .operate ∧ (repeating.point .a).state ≠ .closed ∧ (repeating.point .a).mode = .repeatFill ∧
      fuel.takes rO .operate ∧ (fuel.point .a).state = .closed ∧ modeOf 2 = some .repeatFill ∧
      (after (.setPointMode rO 0 2 99) fuel).points.a.repeatCount = 99 ∧
      reply (.setPointMode rO 0 2 100) fuel rO = some (.badParam, none) ∧
      reply (.parkPoint rO 0) repeating rO = some (.wrongState, none) := by decide

/-- Point A in FINISHING after the first of two fills of 500 cL, its trigger held. -/
def refilling : State :=
  modA (atState .finishing) fun x =>
    { x with meterSettle := some 1, pendingEnd := some .preset, preset := some (.volume 500), mode := .repeatFill
             context := some { delivery with ident := .manual, fill := 1, repeatCount := 2, net_uL := 500 * 10000 } }

theorem test_witness_TimersCloseDeliveries :
    let x := modA flowing fun x =>
      { x with authTimer := some 1, pressWait := some 1, pumpSuspend := some 1, meterSettle := some 1
               pendingEnd := some .operatorStop }
    (x.point .a).context = some delivery ∧ (x.point .a).authTimer.isSome = true ∧
      (x.point .a).pressWait.isSome = true ∧ (x.point .a).pumpSuspend.isSome = true ∧
      ((modC x fun c => { c with grace := some 1 }).coupler .a).grace.isSome = true ∧
      (x.point .a).meterSettle.isSome = true ∧ (x.point .a).pendingEnd = some .operatorStop ∧
      (modC refilling fun c => { c with offHook := false }).rearms .a delivery .preset = false := by decide

/-- A fill that meets R92: the next one is authorised with its PRESET limit, refused in STANDBY, and refused where the
machine has been dropped. -/
theorem test_witness_TimersCloseDeliveries_rearm :
    let again (v : State) : State :=
      (v.close .a .preset false).setPoint .a
        { (v.close .a .preset false).point .a with preset := (v.point .a).preset }
    let asleep : State := { refilling with power := { refilling.power with state := .standby } }
    let dropped := refilling.setRoster []
    let m : MachineRec := { machine7 with shiftUsage := machine7.shiftUsage + 500, dayUsage := machine7.dayUsage + 500 }
    let r : AuthRequest := { machine := m, ident := .manual, hours := none, level := none, fill := 2 }
    let shown (v : State) :=
      let t := after (.meterSettleExpiry .a) v
      (t.points.a.state, t.points.a.fill, t.points.a.preset, (t.port .operator).has .authRefused)
    ((refilling.point .a).meterSettle.isSome = true ∧ (refilling.point .a).pendingEnd = some .preset ∧
      (refilling.point .a).seriesEnds = false ∧ (refilling.point .a).mode = .repeatFill ∧
      (refilling.coupler .a).offHook = true ∧
      findMachine (refilling.close .a .preset false).roster 7 = some m ∧
      findMachine (asleep.close .a .preset false).roster 7 = some m ∧
      findMachine (dropped.close .a .preset false).roster 7 = none ∧
      [refilling, asleep, dropped].map shown =
        [(.authorised, 2, some (.volume 500), false), (.closed, 0, none, true), (.closed, 0, none, true)]) ∧
      (again refilling).Authorises .a r { account1 with spent := account1.spent + 500 } .n1 500 .preset 1000 ∧
      (again asleep).Refuses .a r .standby none :=
  ⟨by decide +kernel, by constructor <;> decide +kernel, .standby (by decide +kernel)⟩

/-- A delivery of 41,237 cL for 41,237 cents, closed as its account reaches its credit limit exactly or one cent below it, on a
book one centilitre short or exact (R47, R63, R123). -/
theorem test_close_charges :
    let ready (credit book : Nat) : State :=
      let s := modA flowing fun x =>
        { x with pressWait := some 1, context := some { delivery with net_uL := 412370000 } }
      { s with
        accounts := [{ account1 with reserved := 25000, credit := credit, spent := 500000 }]
        stock := { s.stock with one := some { comp1 with reserved := 25000, book := book } } }
    let short := after (.pressWaitExpiry .a) (ready 541237 41236)
    let exactly := after (.pressWaitExpiry .a) (ready 541238 41237)
    short.accounts.map (fun a => (a.spent, a.reserved, a.stopped)) = [(541237, 0, true)] ∧
      (short.port .office).has .creditStop = true ∧ (short.port .service).has .stockVariance = true ∧
      short.journal.records.map (fun r => r.seq) = [1#32, 2#32] ∧
      (short.journal.records.map fun r => r.body).head? = some (.bookNegative .n1 .n1 .a 7 41236 41237 1) ∧
      exactly.accounts.map (fun a => (a.spent, a.stopped)) = [(541237, false)] ∧
      (exactly.port .office).has .stockVariance = false ∧
      [short, exactly].map (fun t => (t.comp .n1).map fun x => (x.book, x.reserved, x.variance)) =
        [some (0, 0, true), some (0, 0, false)] ∧
      (exactly.journal.tally.nets.one, exactly.journal.tally.counts.one) = (41237, 1) := by decide +kernel

/-- Point A AUTHORISED with its nozzle's trigger released, at compartment 1. -/
def armed : State := modA (atState .authorised) fun x => { x with trigger := false, authTimer := some 1200 }

theorem test_witness_PressAsksForFlow :
    let near := modA armed fun x => { x with context := some { delivery with limit := 20 } }
    let moved := modArb armed fun a => { a with selector := .moving .n2, motor := true, travel := some 5 }
    let busy := modArb armed fun a => { a with selector := .held .n2, claims := { a := .none, b := .flowing } }
    let here := modArb armed fun a => { a with selector := .idle (some .n1) }
    armed.inReset = false ∧ (armed.point .a).trigger = false ∧ (armed.point .a).context = some delivery ∧
      (armed.point .a).state.waitsForPress = true ∧ armed.unblocked .a = true ∧
      ((near.point .a).context.all fun d => decide (d.limit ≤ cLof d.net_uL + (near.point .a).closeAhead)) = true ∧
      near.unblocked .a = true ∧ cLof delivery.net_uL + (armed.point .a).closeAhead < delivery.limit ∧
      (modArb armed fun a => { a with selector := .held .n1 }).arbiter.selector = .held delivery.current.comp ∧
      armed.barred .n1 = false ∧ moved.arbiter.selector = .moving .n2 ∧
      (busy.arbiter.selector = .held .n2 ∧ ¬ (busy.arbiter.claims.a = .none ∧ busy.arbiter.claims.b = .none)) ∧
      armed.loader.state = .none ∧ armed.loader.current = none ∧ armed.arbiter.waiting.b = none ∧
      here.arbiter.selector = .idle (some delivery.current.comp) ∧ armed.arbiter.selector = .idle none ∧
      (fuel.point .a).state.waitsForPress = false ∧
      [moved, busy, here, armed].map (fun s => (after (.triggerPress .a) s).points.a.state) =
        [.waitSuction, .waitSuction, .flowing .fast, .waitSuction] := by decide

theorem test_witness_FlowIsSuspended :
    flowing.inReset = false ∧ (flowing.point .a).trigger = true ∧ (flowing.point .a).mode = .holdToRun ∧
      (flowing.point .a).state.wantsFlow = true ∧ flowing.watch.overtaken = 0 ∧ flowing.watch.timer.isSome = true ∧
      flowing.watch.mode = .stop ∧ flowing.watchActive = true ∧
      ((modA flowing fun x => { x with mode := .autoStop }).point .a).mode ≠ .holdToRun ∧
      (flowing.setWatch { flowing.watch with mode := .report }).watch.mode = .report ∧
      (flowing.point .b).state.wantsFlow = false ∧
      (after .consoleTimerExpiry flowing).points.a.state = .suspended .consoleSilent ∧
      (flowing.setWatch { flowing.watch with overtaken := 1 }).watch.overtaken ≠ 0 ∧
      ({ flowing with pending := [.badFrame .operator .badCrc, .consoleTimerExpiry] } : State).watchActive = true ∧
      (flowing.point .a).state ≠ .suspended .consoleSilent := by decide

/-- The frame first, then the expiry it has overtaken (R186): no point is suspended and the count is spent. -/
theorem test_frame_first :
    let s := after (.badFrame .operator .badCrc) { flowing with pending := [.consoleTimerExpiry] }
    let u := after .consoleTimerExpiry { s with pending := [] }
    u.points.a.state = .flowing .fast ∧ u.watch.timer = some 20 ∧ u.watch.overtaken = 0 ∧
      (u.port .office).has .consoleSilent = false := by decide

/-- A window of 1,460 transitions at K = 1,000 for the point that flows. -/
def counted : State := flowing.setChannel .a { flowing.channels.first with forward := 1460 }

theorem test_witness_PulsesAndWindowsAreMetered :
    counted.inReset = false ∧ fuel.enterReset.inReset = true ∧ (counted.channel .a).bound = true ∧
      (counted.point .a).context = some delivery ∧ loading.loader.current = some entry ∧
      entry.context.isSome = true ∧ (loading.channel .load).bound = true ∧ (fuel.channel .b).bound = false ∧
      ((after (.meterWindowEnd .a (some 150)) counted).points.a.context.map fun d => d.gross_uL) = some 1460000 ∧
      ((after (.meterWindowEnd .b none) (fuel.setChannel .b { fuel.channels.second with forward := 510 })).port
          .office).has .idleFlow = true := by decide

/-- The temperature at the ends of the probe's range and beside them, with a held reading and without one, and the flags of a
saturated count and of a window that begins a debt (R3, R5, R9). -/
theorem test_window_temperature_and_flags :
    let warm := { Channel.factory 1500 with held := some 200 }
    let result (x : Channel) (probe : Option Int) : Int × Flags := ((x.window probe).2.t10, (x.window probe).2.flags)
    [some (-400), some 700, some 701, some (-401), none].map (result warm) =
        [(-400, Flags.clear), (700, Flags.clear), (200, { Flags.clear with tempHeld := true }),
          (200, { Flags.clear with tempHeld := true }), (200, { Flags.clear with tempHeld := true })] ∧
      result (Channel.factory 1500) none = (150, { Flags.clear with tempDefault := true }) ∧
      [some (-400), none].map (fun probe => ((after (.meterWindowEnd .a probe) fuel).channel .a).held) =
        [some (-400), none] ∧
      result { warm with reverse := 1 } (some 150) = (150, { Flags.clear with backflow := true }) ∧
      result { warm with reverse := 1, debt := 1 } (some 150) = (150, Flags.clear) ∧
      result { warm with reverse := 65535, forward := 65535 } (some 150) =
        (150, { Flags.clear with overspeed := true }) ∧
      [625, 626].map (fun n => (result { warm with forward := n } (some 150)).2.overspeed) = [false, true] := by decide

theorem test_witness_FlowMeetsItsLimit :
    counted.inReset = false ∧ (counted.point .a).state = .flowing .fast ∧ (counted.point .a).context = some delivery ∧
      (counted.channel (channelFor .a)).bound = true ∧
      ([166, 646, 647].map fun limit =>
          (after (.meterWindowEnd .a (some 150))
            (modA counted fun x => { x with context := some { delivery with limit := limit } })).points.a.state) =
        [.finishing, .flowing .slow, .flowing .fast] := by decide

/-- A window of channel LOAD with `n` transitions under the LOADING entry at 40,000 cL, its used target `used`. -/
def filling (n used : Nat) (begun : Bool) (noFlow : Timer) : State :=
  { loading with
    channels := { loading.channels with third := { loading.channels.third with forward := n } }
    loader :=
      { loading.loader with
        noFlow := noFlow
        current := some { entry with
          context := entry.context.map fun x => { x with used := used, flowBegun := begun } } } }

/-- The target reached exactly and missed by one centilitre at the close-ahead of 50 cL, and the no-flow timer of R140. -/
theorem test_witness_FlowMeetsItsLimit_load :
    let ends (s : State) : Option (EntryState × Bool) × Timer :=
      let t := after (.meterWindowEnd .load (some 150)) s
      (t.loader.current.bind fun e => e.context.map fun x => (e.state, x.flowBegun), t.loader.noFlow)
    loading.inReset = false ∧ (filling 0 40050 true none).loader.current.isSome = true ∧
      (filling 0 40050 true none).channels.third.bound = true ∧
      [filling 0 40050 true none, filling 0 40051 true none, filling 0 40051 true (some 7),
          filling 0 40051 false none, filling 1 40052 false none, filling 1 40052 true (some 7)].map ends =
        [(some (.settling, true), none), (some (.loading, true), some 600), (some (.loading, true), some 7),
          (some (.loading, false), none), (some (.loading, true), none), (some (.loading, true), none)] ∧
      (after (.meterWindowEnd .load (some 150)) (filling 0 40050 true none)).loader.inlets.two = false := by decide

theorem test_witness_WindowsLoseNothing :
    fuel.inReset = false ∧ (fuel.channel .a).reverse < 65535 ∧
      ((after (.meterPulse .a .forward) (fuel.setChannel .a { Channel.factory 1500 with forward := 65534 })).channel
          .a).forward = 65535 ∧
      0 < (Channel.factory 1500).k ∧
      (Channel.factory 1500).debt + (Channel.factory 1500).reverse ≤ 4294967295 := by decide

theorem test_witness_CorrectionIsRounded :
    (2000 ≤ 2000 ∧ (-400 : Int) ≤ -400 ∧ (-400 : Int) ≤ 700) ∧
      (correctionFactor 2000 (-400), correctionFactor 2000 700, correctionFactor 0 700) = (1110000, 890000, 1000000) ∧
      ([(1000, 1002000), (1003, 998000), (2000, 998000)] : List (Nat × Nat)).Pairwise (fun x y => x.1 < y.1) ∧
      ([999, 1000, 1001, 1002, 1003, 2000, 2001].map
          (meterFactor [(1000, 1002000), (1003, 998000), (2000, 998000)])) =
        [1002000, 1002000, 1000667, 999333, 998000, 998000, 998000] ∧
      [0, 5, 9].map (meterFactor [(5, 950000)]) = [950000, 950000, 950000] ∧ meterFactor [] 5 = 1000000 := by decide

/-- Point A admitted to compartment 1 while the selector travels there. -/
def travelling : State :=
  modArb (modA (atState .waitSuction) fun x => { x with trigger := true }) fun a =>
    { a with selector := .moving .n1, motor := true, travel := some 1, waiting := { a := some .n1, b := none }
             admitted := { a := true, b := false } }

/-- Point A holding compartment 1 after its flow, its hold timer running. -/
def holding : State :=
  modArb (atState (.suspended .triggerReleased)) fun a =>
    { a with selector := .held .n1, claims := { a := .held, b := .none }, hold := { a := some 1, b := none } }

theorem test_witness_SelectorArrivesAndReleases :
    let empty := modArb fuel fun a => { a with selector := .moving .n1, motor := true, travel := some 1 }
    let shared := modArb holding fun a => { a with claims := { a := .held, b := .flowing } }
    travelling.arbiter.selector = .moving .n1 ∧ travelling.arbiter.admitted.get .a = true ∧
      (travelling.point .a).state = .waitSuction ∧ (travelling.point .a).context = some delivery ∧
      cLof delivery.net_uL + (travelling.point .a).closeAhead < delivery.limit ∧
      (travelling.point .a).pressWait = none ∧ empty.arbiter.selector = .moving .n1 ∧
      empty.arbiter.admitted = { a := false, b := false } ∧ empty.arbiter.waiting = { a := none, b := none } ∧
      (holding.arbiter.hold.get .a).isSome = true ∧ holding.arbiter.waiting = { a := none, b := none } ∧
      holding.arbiter.selector = .held .n1 ∧ holding.arbiter.claims.get .b = .none ∧
      (shared.arbiter.hold.get .a).isSome = true ∧ shared.arbiter.claims.get .b ≠ .none ∧
      (after .selectorArrival travelling).points.a.state = .flowing .fast := by decide

/-- The selector at compartment 1 with both points waiting, A for `a` and B for `b`, where nothing more holds it. -/
def contested (a b : CompId) (policy : Policy) (last : Option PointId) : State :=
  let d (c : CompId) := { delivery with current := { delivery.current with comp := c } }
  let asks (c : CompId) : Point := { Point.factory with state := .waitSuction, context := some (d c), trigger := true }
  { fuel with
    points := { a := asks a, b := asks b }
    stock := { Quad.all none with one := some comp1, two := some comp1, three := some comp1 }
    arbiter :=
      { fuel.arbiter with
        selector := .moving .n1, motor := true, travel := some 1, waiting := { a := some a, b := some b }
        policy := policy, lastGranted := last } }

/-- The table of R97 for two requests, two for one compartment, one barred, and a winner where the selector stands. -/
theorem test_witness_SelectorArrivesAndReleases_pick :
    let pick (s : State) : Selector × Option PointId :=
      ((after .selectorArrival s).arbiter.selector, (after .selectorArrival s).arbiter.lastGranted)
    let held := { contested .n2 .n3 .fixed none with
      arbiter := { (contested .n2 .n3 .fixed none).arbiter with
        selector := .held .n1, motor := false, travel := none, claims := { a := .held, b := .none }
        hold := { a := some 1, b := none } } }
    let s := contested .n2 .n3 .fixed none
    s.arbiter.selector = .moving .n1 ∧ s.arbiter.admitted = { a := false, b := false } ∧ s.loader.state = .none ∧
      s.loader.current = none ∧ s.arbiter.waiting.get .a = some .n2 ∧ s.barred .n2 = false ∧ s.barred .n3 = false ∧
      held.arbiter.selector = .held .n1 ∧ (held.arbiter.hold.get .a).isSome = true ∧
      held.arbiter.claims.get .b = .none ∧
      [pick (contested .n2 .n3 .fixed none), pick (contested .n2 .n3 (.lowest .a) none),
          pick (contested .n2 .n3 (.lowest .b) none), pick (contested .n2 .n3 .rotate none),
          pick (contested .n2 .n3 .rotate (some .a)), pick (contested .n2 .n4 (.lowest .a) none)] =
        [(.moving .n2, some .a), (.moving .n3, some .b), (.moving .n2, some .a), (.moving .n2, some .a),
          (.moving .n3, some .b), (.moving .n2, some .a)] ∧
      (after (.suctionHoldExpiry .a) held).arbiter.selector = .moving .n2 ∧
      ((after .selectorArrival (contested .n2 .n2 .fixed none)).arbiter.admitted) = { a := true, b := true } ∧
      (contested .n1 .n3 .fixed none).points.a.pressWait = none ∧
      (after .selectorArrival (contested .n1 .n3 .fixed none)).points.a.state = .flowing .fast ∧
      (after .selectorArrival (contested .n1 .n3 .fixed none)).points.b.state = .waitSuction := by decide

theorem test_witness_PumpEventsAct :
    let ramping := modPump flowing fun x => { x with state := .starting, ramp := some 1 }
    let stalled := { flowing.pump with speed := 10, current := 200, supply := .within }
    ramping.pump.state = .starting ∧ ramping.pump.ramp.isSome = true ∧ flowing.pump.cleanRun.isSome = true ∧
      flowing.inReset = false ∧ (flowing.pump.faults.get .stall).action ≠ .off ∧
      flowing.pump.state.tests .stall = true ∧ Pump.condition stalled .stall = true ∧
      flowing.pump.deglitch.get .stall = none ∧ flowing.pump.reported.get .stall = false ∧
      ¬ (flowing.pump.present .stall = true ∧ flowing.pump.state = .latched) ∧
      ¬ (flowing.pump.state.tests .dryRun = true ∧ Pump.condition stalled .dryRun = true) := by decide

/-- The clear timer of R109 and the no-flow timer of R106: 0 dL/min, or the last rate of the window, against a minimum of
`least` dL/min. -/
theorem test_witness_PumpEventsAct_timers :
    let latched (supply : SupplySense) (clear : Timer) := modPump flowing fun x =>
      { x with state := .latched, drive := false, latched := some (.supplyLow, true), supply := supply, clear := clear }
    let senses (supply : SupplySense) (s : State) : Timer := (after (.pumpSenseChange 0 0 supply) s).pump.clear
    let slow (least : Nat) (timer : Timer) (mark : Bool) := modPump counted fun x =>
      { x with
        noFlow := timer, reported := { x.reported with noFlow := mark }
        faults := { x.faults with noFlow := { x.faults.noFlow with action := .report, first := least, second := 50 } } }
    let ends (s : State) : Timer × Bool :=
      let t := after (.meterWindowEnd .a (some 150)) s
      (t.pump.noFlow, t.pump.reported.noFlow)
    let ramped := after .pumpRampExpiry (modPump (slow 1 none false) fun x => { x with state := .starting, ramp := some 1 })
    (latched .below none).pump.state = .latched ∧ (latched .below none).pump.latched = some (.supplyLow, true) ∧
      [senses .within (latched .below none), senses .within (latched .within (some 3)),
          senses .above (latched .within (some 3)), senses .within (latched .above none)] =
        [some 5, some 3, none, some 5] ∧
      counted.flowingOnHeld .a = true ∧ (slow 3505 none false).pump.faults.noFlow.action ≠ .off ∧
      [ends (slow 3505 none false), ends (slow 3505 (some 7) false), ends (slow 3505 none true),
          ends (slow 3504 (some 7) true)] = [(some 50, false), (some 7, false), (none, true), (none, false)] ∧
      ramped.pump.noFlow = some 50 := by decide

theorem test_witness_PumpFaultsAct :
    let s := modPump flowing fun x =>
      { x with deglitch := { x.deglitch with stall := some 1, supplyLow := some 1 }, noFlow := some 1
               faults := { x.faults with noFlow := { x.faults.noFlow with action := .retry } } }
    (s.pump.deglitch.get .stall).isSome = true ∧ FaultKind.stall ≠ .dryRun ∧
      (s.pump.faults.get .stall).action = .latch ∧ (s.pump.deglitch.get .supplyLow).isSome = true ∧
      (s.pump.faults.get .supplyLow).action = .autoClear ∧ s.pump.state ≠ .latched ∧ s.pump.noFlow.isSome = true ∧
      (s.pump.faults.get .noFlow).action = .retry ∧ s.pump.mayRetry = true ∧
      (s.pump.state = .starting ∨ s.pump.state = .running) ∧ (s.pump.faults.get .overcurrent).action = .latch ∧
      (s.point .a).state.wantsFlow = true ∧ (s.point .b).state.wantsFlow = false ∧
      [Instr.faultDeglitchExpiry .stall, .faultDeglitchExpiry .supplyLow, .noFlowTimerExpiry, .pumpOvercurrent].map
          (fun i => (after i s).pump.state) = [.latched, .latched, .retryWait, .latched] := by decide

/-- REPORT with its mark clear and set, RETRY at the retry limit and below it, and a fault of a pump that is LATCHED (R108,
R110). -/
theorem test_witness_PumpFaultsAct_report :
    let s (mark : Bool) (count : Nat) : State := modPump { flowing with ports := fuel.ports } fun x =>
      { x with
        deglitch := { x.deglitch with stall := some 1 }, noFlow := some 1, retryCount := count
        reported := { x.reported with noFlow := mark }
        faults :=
          { x.faults with
            noFlow := { x.faults.noFlow with action := .report }, stall := { x.faults.stall with action := .retry } } }
    let quiet := after .noFlowTimerExpiry (s true 0)
    let told := after .noFlowTimerExpiry (s false 0)
    let full := after (.faultDeglitchExpiry .stall) (s false 3)
    ((s true 0).pump.faults.get .noFlow).action = .report ∧ (s true 0).pump.reported.get .noFlow = true ∧
      (s false 0).pump.reported.get .noFlow = false ∧ (s false 0).pump.noFlow.isSome = true ∧
      (told.pump.state, told.pump.lastFault, told.pump.reported.noFlow, told.pump.noFlow) =
        (.running, some (.noFlow, .report), true, none) ∧
      [told, quiet].map (fun t => (t.port .operator).has .pumpFault) = [true, false] ∧
      quiet.pump.lastFault = some (.noFlow, .report) ∧ (s false 3).pump.retryLimit = some 3 ∧
      (full.pump.state, full.pump.latched, full.pump.retryCount) = (.latched, some (.stall, false), 3) ∧
      (after (.faultDeglitchExpiry .stall) (s false 2)).pump.state = .retryWait := by decide

/-- A STALL with RETRY or LATCH whose NO_FLOW and SUPPLY_LOW timers have run out with it, and whose DRY_RUN's has too: the
two are kept and taken second, the DRY_RUN is dropped (R105). -/
theorem test_witness_PumpFaultsAct_second :
    let s (first noFlow : FaultAction) : State := modPump flowing fun x =>
      { x with
        deglitch := { x.deglitch with stall := some 0, dryRun := some 0, supplyLow := some 0, supplyHigh := some 7 }
        noFlow := some 0
        faults :=
          { x.faults with
            stall := { x.faults.stall with action := first }, noFlow := { x.faults.noFlow with action := noFlow } } }
    let wait := after (.faultDeglitchExpiry .stall) (s .retry .latch)
    let held := after (.faultDeglitchExpiry .stall) (s .latch .retry)
    let second := after .noFlowTimerExpiry wait
    let low := after (.faultDeglitchExpiry .supplyLow) held
    (wait.pump.state, wait.pump.noFlow, wait.pump.deglitch.dryRun) = (.retryWait, some 0, none) ∧
      (second.pump.state, second.pump.latched, second.pump.lastFault) =
        (.latched, some (.noFlow, false), some (.noFlow, .latch)) ∧
      (held.pump.state, held.pump.noFlow, held.pump.deglitch.supplyLow, held.pump.deglitch.supplyHigh) =
        (.latched, some 0, some 0, none) ∧
      (low.pump.lastFault, low.pump.lowPresent, low.pump.latched) =
        (some (.supplyLow, .latch), true, some (.stall, false)) ∧
      (after .noFlowTimerExpiry held).pump =
        { held.pump with lastFault := some (.noFlow, .retry), noFlow := none } := by decide

/-- OVERCURRENT behind a RETRY latches the pump; behind a LATCH it is the last fault, and the latched cause stays (R105); a
pump that is STOPPED drops it. -/
theorem test_overcurrent_taken_second :
    let wait := modPump flowing fun x => { x with state := .retryWait, drive := false, retry := some 50 }
    let held := modPump flowing fun x => { x with state := .latched, drive := false, latched := some (.stall, false) }
    (after .pumpOvercurrent wait).pump.latched = some (.overcurrent, false) ∧
      (after .pumpOvercurrent wait).pump.state = .latched ∧ (wait.pump.faults.get .overcurrent).action = .latch ∧
      (after .pumpOvercurrent held).pump.latched = some (.stall, false) ∧
      (after .pumpOvercurrent held).pump.lastFault = some (.overcurrent, .latch) ∧
      after .pumpOvercurrent fuel = fuel := by decide

/-- Point A stops as the last flowing point, which releases compartment 1 to the waiting point B: the pump stops and starts
again with its ramp (R103). -/
theorem test_pump_follows_each_change :
    let s := modArb flowing fun a => { a with waiting := { a := none, b := some .n1 } }
    let t := after (.stopPoint rO 0)
      (s.setPoint .b
        { Point.factory with
          state := .waitSuction, trigger := true
          context := some { delivery with machine := 8, current := { delivery.current with comp := .n1 } } })
    (t.points.a.state, t.points.b.state, t.arbiter.selector, t.pump.state, t.pump.ramp, t.pump.cleanRun) =
      (.finishing, .flowing .fast, .held .n1, .starting, some 15, none) := by decide

theorem test_witness_PumpIsReleased :
    let s := atState (.suspended .pumpFault)
    let wait := modPump s fun x => { x with state := .retryWait, retry := some 1, retryCount := 1 }
    let latched := modPump s fun x =>
      { x with state := .latched, clear := some 1, latched := some (.supplyLow, true), retryCount := 1 }
    wait.pump.state = .retryWait ∧ wait.pump.retry.isSome = true ∧ latched.pump.state = .latched ∧
      latched.pump.clear.isSome = true ∧ latched.takes rO .operate ∧ latched.pump.supply = .within ∧
      (modPump latched fun x => { x with supply := .below }).pump.supply ≠ .within ∧ s.pump.state ≠ .latched ∧
      s.takes rO .operate ∧ (s.point .a).state = .suspended .pumpFault := by decide

/-- Compartment 1 near empty under the delivery of point A, compartment 2 full of the same product. -/
def drying : State :=
  modPump { flowing with stock := { flowing.stock with one := some { comp1 with book := 2500, reserved := 25000 }, two := some comp1 } }
    fun x => { x with deglitch := { x.deglitch with dryRun := some 1 } }

/-- The dry run of `drying` with another action, delivery and stock of compartment 2. -/
def dried (action : FaultAction) (d : Delivery) (book : Nat) : State :=
  modPump
    (modA { drying with stock := { drying.stock with two := some { comp1 with book := book } } }
      fun x => { x with context := some d, closeAhead := 200 })
    fun x => { x with faults := { x.faults with dryRun := { x.faults.dryRun with action := action } } }

theorem test_witness_DryRunSwitchesOrEnds :
    let alone := drying.setComp .n2 none
    drying.pump.deglitch.dryRun.isSome = true ∧ drying.pump.faults.dryRun.action = .retry ∧
      drying.pump.mayRetry = true ∧ drying.arbiter.selector = .held .n1 ∧
      drying.comp .n1 = some { comp1 with book := 2500, reserved := 25000 } ∧
      (drying.point .a).context = some delivery ∧ delivery.current.comp = .n1 ∧ delivery.earlier = none ∧
      (drying.point .a).state.unfinished = true ∧ (drying.point (PointId.other .a)).context = none ∧
      drying.drawnDown .n1 ≤ comp1.heel + comp1.margin ∧
      drying.mostStock (drying.isTarget .n1 .n1) = some .n2 ∧
      delivery.minimum ≤ delivery.limit - cLof delivery.current.net_uL ∧
      delivery.limit - cLof delivery.current.net_uL ≤ drying.availableOn .n2 ∧
      alone.mostStock (alone.isTarget .n1 .n1) = none ∧
      (modPump drying fun x => { x with retryCount := 3 }).pump.mayRetry = false ∧ drying.pump.state ≠ .latched ∧
      comp1.heel + comp1.margin <
        (drying.setComp .n1 (some { comp1 with book := 2501, reserved := 25000 })).drawnDown .n1 ∧
      (after (.faultDeglitchExpiry .dryRun) alone).points.a.pendingEnd = some .stockEmpty := by decide +kernel

/-- The actions LATCH and REPORT; a lowering by STOCK, its end below the minimum delivery and inside the close-ahead; a
remainder below the minimum; and a second segment. -/
theorem test_witness_DryRunSwitchesOrEnds_ends :
    let late := { delivery with net_uL := 248000000, current := { delivery.current with net_uL := 248000000 } }
    let last := { delivery with net_uL := 249500000, current := { delivery.current with net_uL := 249500000 } }
    let twice := { delivery with earlier := some { comp := .n3, net_uL := 0, remaining := 0 } }
    let ended (action : FaultAction) (d : Delivery) (room : Nat) : State :=
      after (.faultDeglitchExpiry .dryRun) (dried action d (comp1.heel + room))
    let all :=
      [ended .latch delivery 25000, ended .report delivery 10000, ended .retry delivery 99, ended .retry late 100,
        ended .retry last 500, ended .retry twice 25000]
    all.map (fun t => t.pump.state) = [.latched, .stopped, .retryWait, .retryWait, .retryWait, .retryWait] ∧
      all.map (fun t => (t.points.a.state, t.points.a.pendingEnd)) =
        [(.suspended .pumpFault, none), (.suspended .suctionLost, none), (.finishing, some .stockEmpty),
          (.finishing, some .limit), (.finishing, some .stockEmpty), (.finishing, some .stockEmpty)] ∧
      all.map (fun t => t.points.a.context.map fun d => (d.limit, d.source, d.current.comp)) =
        [some (25000, .dayAllowance, .n2), some (10000, .stock, .n2), some (99, .stock, .n1),
          some (24900, .stock, .n2), some (25000, .dayAllowance, .n1), some (25000, .dayAllowance, .n1)] ∧
      all.map (fun t => t.roster.map fun m => m.reserved) = [[25000], [10000], [99], [24900], [25000], [25000]] := by
  decide +kernel

/-- A minimum delivery set while the delivery is open does not reach its switch (R61). -/
theorem test_switch_keeps_minimum :
    (after (.faultDeglitchExpiry .dryRun) { drying with limits := { drying.limits with minimum := 30000 } }).points.a.state =
      .suspended .pumpFault := by decide +kernel

theorem test_witness_LimitIsTheLeastTerm :
    limitOf
        (limitTerms (some (.amount 20000)) { machine := machine7, ident := .manual, hours := none, level := some 60, fill := 0 }
          account1 1000 473000 20000) = (20000, .preset) := by decide

/-- A plan whose current entry is DUE on compartment 2, which is out of service. -/
def due : State :=
  { loading with
    stock := { fuel.stock with two := some { comp1 with state := .outOfService, draining := true } }
    loader :=
      { fuel.loader with
        state := .opened, current := some { comp := .n2, target := .fill, state := .due, context := none } }
    channels := fuel.channels }

/-- A staged entry behind the current one of `s`. -/
def stagedBehind (s : State) (c : CompId) : State :=
  s.setLoader { s.loader with state := .opened, staged := [{ comp := c, target := .volume 5000 }] }

theorem test_witness_LoadPlanCommandsAct :
    let planned := fuel.setLoader { fuel.loader with state := .opened }
    let out := { planned with stock := { planned.stock with one := some { comp1 with state := .outOfService } } }
    let full := loading.setLoader { loading.loader with staged := List.replicate 4 { comp := .n1, target := .fill } }
    fuel.takes rO .operateOrAccount ∧
      readOpt (List.replicate 12 0) (printableCode 12) (⟨1, spaces 12⟩ : RawOpt (List Nat)) = some (some (spaces 12)) ∧
      fuel.loader.state = .none ∧ fuel.power.state ≠ .wakeSettle ∧ loading.loader.state ≠ .none ∧
      planned.takes rO .operateOrAccount ∧ planned.loader.state = .opened ∧ planned.loader.current = none ∧
      loading.takes rO .operateOrAccount ∧ loading.loader.state = .opened ∧ loading.loader.current = some entry ∧
      entry.state = .loading ∧ entry.context.isSome = true ∧ fuel.loader.state ≠ .opened ∧ num4Of 1 = some .n1 ∧
      targetOf 0 = some .fill ∧ (loading.comp .n1).isSome = true ∧ loading.loader.staged.length < 4 ∧
      planned.comp .n1 = some comp1 ∧ planned.loader.staged = [] ∧ planned.journal.canReserve = true ∧
      out.comp .n1 = some { comp1 with state := .outOfService } ∧ comp1.state ≠ .outOfService ∧
      planned.arbiter.selector.holds .n1 = false ∧ planned.segmentOn .n1 = false ∧ (100 : Int) ≤ comp1.ullage ∧
      planned.loader.closeAhead < (Target.fill.used comp1.ullage.toNat).1 ∧
      planned.loader.highLevel.get .n1 = false ∧ full.takes rO .operateOrAccount ∧ full.loader.state = .opened ∧
      4 ≤ full.loader.staged.length ∧ (full.comp .n1).isSome = true ∧
      (after (.appendLoadEntry rO 1 0) planned).loader.inlets.one = true ∧
      reply (.appendLoadEntry rO 1 0) full rO = some (.full, none) := by decide +kernel

/-- The clauses on a SETTLING entry and on a DUE one. -/
theorem test_witness_LoadPlanCommandsAct_ends :
    let settles := settling.setLoader { settling.loader with state := .opened }
    settles.takes rO .operateOrAccount ∧ settles.loader.state = .opened ∧
      (settles.loader.current.map fun e => e.state) = some .settling ∧
      (after (.closeLoadPlan rO) settles).loader.state = .closing ∧ due.takes rO .operateOrAccount ∧
      due.loader.state = .opened ∧ (due.loader.current.map fun e => e.state) = some .due ∧
      (after (.closeLoadPlan rO) due).loader.state = .none ∧ (after (.closeLoadPlan rO) due).journal.reserved = 0 := by
  decide

theorem test_witness_LoadingIsStopped :
    loading.takes rO .operateOrAccount ∧ loading.loader.current = some entry ∧ entry.state = .loading ∧
      entry.context.isSome = true ∧ settling.takes rO .operateOrAccount ∧
      (settling.loader.current.map fun e => e.state) = some .settling ∧ fuel.takes rO .operateOrAccount ∧
      fuel.loader.current = none ∧ loading.loader.noFlow.isSome = true ∧ loading.inReset = false ∧
      loading.loader.highLevel.get entry.comp = false ∧
      [Instr.stopLoad rO, .loadNoFlowExpiry, .highLevelSwitch .n2 true].map (fun i =>
          (after i loading).loader.current.bind fun e => e.context.bind fun x => x.pendingEnd) =
        [some .operatorStop, some .supplyStopped, some .highLevel] := by decide

/-- STOP_LOAD on a DUE entry: alone, and with an entry for compartment 1 or 2 behind it. -/
theorem test_witness_LoadingIsStopped_due :
    due.takes rO .operateOrAccount ∧ (due.loader.current.map fun e => e.state) = some .due ∧
      due.loader.staged = [] ∧ due.journal.canReserve = true ∧ (stagedBehind due .n1).comp .n1 = some comp1 ∧
      comp1.state ≠ .outOfService ∧ due.segmentOn .n1 = false ∧ due.arbiter.selector.holds .n1 = false ∧
      (100 : Int) ≤ comp1.ullage ∧ due.loader.closeAhead < ((Target.volume 5000).used comp1.ullage.toNat).1 ∧
      due.loader.highLevel.get .n1 = false ∧
      [due, stagedBehind due .n1, stagedBehind due .n2].map (fun s =>
          (after (.stopLoad rO) s).loader.current.map fun e => (e.comp, e.state)) =
        [none, some (.n1, .loading), some (.n2, .due)] ∧
      (after (.stopLoad rO) due).loader.lastResult = some { seq := none, comp := .n2, cause := .operatorStop } ∧
      (stagedBehind (atState .authorised) .n1).segmentOn .n1 = true := by decide

theorem test_witness_ReceiptClosesTheEntry :
    settling.loader.settle.isSome = true ∧ (settling.loader.current.map fun e => e.comp) = some .n2 ∧
      (settling.loader.current.bind fun e => e.context.bind fun x => x.pendingEnd) = some .target ∧
      settling.loader.staged = [] ∧ (settling.comp .n2).isSome = true ∧
      ((after .loadSettleExpiry settling).comp .n2).map (fun x => (x.book, x.state)) =
        some (140000, .inService) := by decide

/-- The receipt with an entry behind it, for another compartment and for the same one. -/
theorem test_witness_ReceiptClosesTheEntry_staged :
    (stagedBehind settling .n1).loader.state = .opened ∧ 0 < settling.journal.reserved ∧
      settling.journal.canReserve = true ∧
      (settling.setJournal { settling.journal with reserved := 2040 }).journal.canReserve = false ∧
      [stagedBehind settling .n1, stagedBehind settling .n2].map (fun s =>
          (after .loadSettleExpiry s).loader.current.map fun e => (e.comp, e.state)) =
        [some (.n1, .loading), some (.n2, .loading)] ∧
      (after .loadSettleExpiry
          (stagedBehind (settling.setJournal { settling.journal with reserved := 2040 }) .n1)).loader.paused =
        true := by decide

theorem test_witness_StockCommandsAct :
    let u := fuel.frameReceived .operator
    let closed := fuel.setComp .n1 (some { comp1 with state := .outOfService })
    let full := { fuel with journal := { fuel.journal with reserved := 2048 } }
    num4Of 1 = some .n1 ∧ u.comp .n1 = some comp1 ∧ fuel.takes rO .operateOrAccount ∧ comp1.state = .inService ∧
      fuel.takes rF .account ∧ closed.takes rO .operateOrAccount ∧
      (closed.comp .n1).map (fun x => x.state) = some .outOfService ∧
      (loading.comp .n2).map (fun x => x.state) = some .loading ∧ loading.takes rO .operateOrAccount ∧
      comp1.state ≠ .loading ∧ 99999999 ≤ 99999999 ∧ fuel.segmentOn .n1 = false ∧ fuel.journal.hasRoom = true ∧
      flowing.segmentOn .n1 = true ∧ flowing.takes rF .account ∧ full.journal.hasRoom = false ∧
      full.takes rF .account ∧ 4000000 ≤ 4000000 ∧ 1000000 ≤ 1000000 ∧
      (after (.adjustStock rF 1 99999999) fuel).journal.records.map (fun x => x.body) =
        [.stockAdjust .n1 .n1 500000 99999999 none] ∧
      reply (.adjustStock rF 1 0) flowing rF = some (.busy, none) ∧
      reply (.adjustStock rF 1 0) full rF = some (.full, none) ∧
      ([CompState.inService, .outOfService, .empty].map fun k =>
          ((after (.adjustStock rF 1 0) (fuel.setComp .n1 (some { comp1 with state := k }))).comp .n1).map fun x =>
            x.state) = [some .inService, some .outOfService, some .inService] ∧
      (let waits := (due.setComp .n2 (some { comp1 with state := .empty, draining := true }))
       waits.planNames .n2 = true ∧ waits.takes rF .account ∧ waits.segmentOn .n2 = false ∧
         ((after (.adjustStock rF 2 0) waits).comp .n2).map (fun x => x.state) = some .loading) := by decide

/-- The gauge at 2,000 mm and 15.0 °C stands at 500,000 cL, the book of compartment 1. -/
def gauged : State := { fuel with probes := { fuel.probes with one := some { level := 2000, temp := 150 } } }

theorem test_witness_StockIsReconciled :
    let off (book : Nat) := gauged.setComp .n1 (some { comp1 with book := book, settle := some 1 })
    gauged.takes rO .operateOrAccount ∧ gauged.comp .n1 = some comp1 ∧ fuel.gauge .n1 = none ∧
      fuel.takes rO .operateOrAccount ∧ ((gauged.gauge .n1).map fun g => g.net) = some 500000 ∧
      ((off 502000).comp .n1).any (fun x => x.settle.isSome) = true ∧
      [off 502000, off 502001].map (fun s => ((after (.stockSettleExpiry .n1) s).comp .n1).map fun x => x.variance) =
        [some false, some true] ∧
      (off 502001).journal.hasRoom = true ∧
      ({ off 502001 with journal := { gauged.journal with reserved := 2048 } } : State).journal.hasRoom = false ∧
      ([false, true].map fun mark =>
          ((after (.reconcile rO 1) (fuel.setComp .n1 (some { comp1 with gaugeNoted := mark }))).port .office).has
            .gaugeInvalid) = [true, false] ∧
      ProbeReading.valid { level := 4000, temp := 700 } = true ∧
      ProbeReading.valid { level := 4001, temp := 700 } = false := by decide

/-- Two compartments out of service, unused and empty. -/
def unused : State :=
  { fuel with
    stock :=
      { Quad.all none with
        one := some { comp1 with state := .outOfService, book := 0 }
        two := some { comp1 with state := .outOfService, book := 0 } } }

theorem test_witness_CompartmentsAreConfigured :
    unused.takes rS .calibrate ∧ num4Of 4 = some .n4 ∧ unused.comp .n4 = none ∧
      ((unused.comp .n1).map fun x => (x.state, x.product, x.book)) = some (.outOfService, .n1, 0) ∧
      unused.segmentOn .n1 = false ∧ unused.planNames .n1 = false ∧ (unused.comp .n2).isSome = true ∧
      comp1.state ≠ .outOfService ∧ fuel.takes rS .calibrate ∧ fuel.comp .n2 = none ∧ fuel.comp .n3 = none ∧
      fuel.comp .n4 = none ∧
      ([(0, 0), (4000, 40000)] : List (Nat × Nat)).Pairwise (fun a b => a.1 < b.1 ∧ a.2 < b.2) ∧
      reply (.configureCompartment rS 4 1 10000 80 0 0) unused rS = some (.ok, none) ∧
      reply (.configureCompartment rS 4 1 4000000 98 100000 50000) unused rS = some (.ok, none) ∧
      reply (.configureCompartment rS 1 1 10000 80 0 0) fuel rS = some (.busy, none) ∧
      reply (.removeCompartment rS 1) unused rS = some (.ok, none) ∧
      reply (.removeCompartment rS 1) fuel rS = some (.refused, some .lastCompartment) := by decide

def raw8 : RawMachine :=
  { number := 8, tagId := ⟨1, 0xAC⟩, product := 1, capacity := 2000000, account := 1, shiftAllowance := 0
    dayAllowance := 0, manualPermitted := 1, state := 0, lastHours := ⟨0, 0⟩ }

theorem test_witness_RosterIsWritten :
    fuel.takes rF .account ∧
      ((readMachine raw8).map fun m => (m.number, m.product, m.account, m.tagId)) = some (8, .n1, 1, some 0xAC) ∧
      (fuel.product .n1).isSome = true ∧ (findAccount fuel.accounts 1).isSome = true ∧
      fuel.tagInUse (some 0xAC) 8 = false ∧ fuel.roster.length < 512 ∧ fuel.tagInUse (some 0xAB) 8 = true ∧
      ¬ (1 ≤ 0 ∧ 0 ≤ 999999) ∧ ¬ (1 ≤ 1000000 ∧ 1000000 ≤ 999999) ∧ findMachine fuel.roster 999999 = none ∧
      (findMachine flowing.roster 7).isSome = true ∧ flowing.machineOpen 7 = true ∧ flowing.takes rF .account ∧
      (findMachine fuel.roster 7).isSome = true ∧ fuel.machineOpen 7 = false ∧
      (after (.putMachine rF raw8) fuel).roster.map (fun m => m.number) = [7, 8] ∧
      reply (.putMachine rF { raw8 with tagId := ⟨1, 0xAB⟩ }) fuel rF = some (.refused, some .tagInUse) ∧
      (after (.dropMachine rF 7) fuel).roster = [] := by decide

theorem test_witness_AccountsAreWritten :
    let full := { fuel with journal := { fuel.journal with reserved := 2048 } }
    fuel.takes rF .account ∧ printableCode 8 (spaces 8) = true ∧ num4Of 4 = some .n4 ∧
      findAccount fuel.accounts 64 = none ∧ findAccount fuel.accounts 1 = some account1 ∧
      full.takes rF .account ∧ full.journal.hasRoom = false ∧ fuel.journal.hasRoom = true ∧
      (after (.putAccount rF 64 (spaces 8) 99999999999 4 1) fuel).accounts.map (fun a => a.number) = [1, 64] ∧
      (after (.creditAdjust rF 1 500000 0) fuel).accounts.map (fun a => (a.spent, a.stopped)) = [(500000, true)] ∧
      (after (.creditAdjust rF 1 500000 1) fuel).accounts.map (fun a => (a.spent, a.stopped)) = [(0, false)] := by
  decide

theorem test_witness_OfficeSettingsAreWritten :
    let full := { fuel with journal := { fuel.journal with reserved := 2048 } }
    fuel.takes rF .account ∧ printableCode 4 (spaces 4) = true ∧ permittedOf 3 = some ⟨true, true⟩ ∧
      full.journal.hasRoom = false ∧ full.takes rF .account ∧ policyOf 1 1 = some (.lowest .b) ∧
      policyOf 2 9 = some .rotate ∧ policyOf 1 2 = none ∧
      (after (.stagePrices rF 0 (Quad.all (Quad.all 9999999))) fuel).prices.staged = none ∧
      (after (.stagePrices rF 1 (Quad.all (Quad.all 1))) fuel).prices.staged =
        some (Quad.all (Quad.all 1), .atShift) := by decide

theorem test_witness_JournalIsReleased :
    recorded.takes rF .account ∧ ((1#32 : SeqNo) - recorded.journal.oldest).toNat = 0 ∧
      ((2#32 : SeqNo) - recorded.journal.oldest).toNat = 1 ∧ recorded.journal.occupied = 2 ∧
      ((0#32 : SeqNo) - recorded.journal.oldest).toNat = 4294967295 ∧
      ((3#32 : SeqNo) - recorded.journal.oldest).toNat = 2 ∧
      ((2147483649#32 : SeqNo) - recorded.journal.oldest).toNat = 2147483648 ∧
      recorded.loader.state = .none ∧ recorded.loader.current = none ∧
      (after (.releaseThrough rF 1#32) recorded).journal.records.map (fun x => x.seq) = [2#32] ∧
      (after (.releaseThrough rF 0#32) recorded).journal.records.length = 2 ∧
      reply (.releaseThrough rF 3#32) recorded rF = some (.badParam, none) := by decide +kernel

/-- `s` at a time of day. -/
def atTime (s : State) (date : Date) (hour minute second : Nat) : State :=
  s.setClock { s.clock with now := { date := date, hour := hour, minute := minute, second := second, tenth := 3 } }

theorem test_witness_ClockIsKept :
    let late := atTime fuel ⟨2026, 2, 28⟩ 23 59 30
    let last := atTime fuel ⟨2099, 12, 31⟩ 23 59 59
    fuel.takes rF .account ∧ 28 ≤ monthLength 2026 2 ∧ monthLength 2026 2 < 29 ∧
      State.reset.takes rF .account ∧ State.reset.clock.valid = false ∧ fuel.clock.valid = true ∧
      fuel.clock.now.second ≤ 29 ∧ late.takes rF .account ∧ 29 < late.clock.now.second ∧
      late.clock.now.nextMinute.2 = false ∧ late.inReset = false ∧ last.clock.now.nextMinute.2 = true ∧
      ([(0, 0), (12, 0), (23, 59)] : List (Nat × Nat)).Pairwise (fun x y => x.1 * 60 + x.2 < y.1 * 60 + y.2) ∧
      (after (.trimClock rF) late).clock.now =
        { date := ⟨2026, 3, 1⟩, hour := 0, minute := 0, second := 0, tenth := 0 } ∧
      (after .clockMinute last).clock.valid = false ∧
      reply (.setTime rF 2026 2 29 0 0 0) fuel rF = some (.badParam, none) := by decide

theorem test_witness_ShiftsRollOver :
    let s := atTime fuel ⟨2026, 2, 28⟩ 23 59 59
    let full := { s with journal := { s.journal with reserved := 2048 } }
    let staged := { s with prices := { s.prices with staged := some (Quad.all (Quad.all 1), .atShift) } }
    s.inReset = false ∧ s.clock.valid = true ∧ s.clock.now.nextMinute.2 = false ∧
      shiftAt s.clock.shifts s.clock.now.nextMinute.1 = ⟨⟨2026, 3, 1⟩, 1⟩ ∧
      (⟨⟨2026, 3, 1⟩, 1⟩ : ShiftId) ≠ s.clock.shift ∧ s.journal.hasRoom = true ∧ full.journal.hasRoom = false ∧
      s.prices.staged = none ∧
      (after .clockMinute staged).prices.current = Quad.all (Quad.all 1) ∧
      (after .clockMinute s).roster.map (fun m => (m.shiftUsage, m.dayUsage)) = [(0, 0)] := by decide

theorem test_witness_MeterCalibrationIsWritten :
    let bound := flowing
    fuel.takes rS .calibrate ∧ bound.takes rS .calibrate ∧ channelOf 0 = some .a ∧ (bound.channel .a).bound = true ∧
      (fuel.channel .a).bound = false ∧
      ([99, 100, 20000, 20001].map fun k => reply (.setKFactor rS 0 k) fuel rS) =
        [some (.badParam, none), some (.ok, none), some (.ok, none), some (.badParam, none)] ∧
      reply (.setKFactor rS 0 100) bound rS = some (.busy, none) ∧
      reply (.setLinearisation rS 0 [(1, 950000), (20000, 1050000)]) fuel rS = some (.ok, none) ∧
      reply (.setLinearisation rS 0 [(2, 950000), (2, 1050000)]) fuel rS = some (.badParam, none) ∧
      reply (.setLinearisation rS 0 []) bound rS = some (.busy, none) := by decide

theorem test_witness_ServiceSettingsAreWritten :
    fuel.takes rS .calibrate ∧ channelOf 2 = some .load ∧ pointOf 1 = some .b ∧ (fuel.point .b).state = .closed ∧
      faultKindOf 1 = some .dryRun ∧ faultActionOf 3 = some .off ∧ faultActionOf 0 = some .latch ∧
      (faultSettingOf .dryRun .off 10 110 1).isSome = true ∧ (faultSettingOf .dryRun .latch 10 150 2000).isSome = true ∧
      fuel.loader.filling = false ∧ consoleModeOf 1 = some .stop ∧ fuel.roles.requester = none ∧
      fuel.watchActive = false ∧ flowing.watchActive = true ∧ flowing.takes rS .calibrate ∧
      ¬ (601 % 10 = 0 ∧ 10 ≤ 601 ∧ 601 ≤ 600) ∧
      [reply (.setPointTimes rS 100 50 5 100) fuel rS, reply (.setPointTimes rS 6000 6000 100 6000) fuel rS,
          reply (.setPointTimes rS 101 50 5 100) fuel rS, reply (.setWakeSettle rS 5) fuel rS,
          reply (.setWakeSettle rS 101) fuel rS, reply (.setPumpRun rS 2 10 0) fuel rS,
          reply (.setPumpRun rS 50 600 10) fuel rS] =
        [some (.ok, none), some (.ok, none), some (.badParam, none), some (.ok, none), some (.badParam, none),
          some (.ok, none), some (.ok, none)] := by decide

/-- SET_PORT_SUPERVISION with OFF while the watch is active, and a lapse that a pending request meets at once, exactly and by one
tenth not; SET_PUMP_FAULT with OFF stops the no-flow timer with NO_FLOW alone (R104, R180, R186). -/
theorem test_witness_ServiceSettingsAreWritten_off :
    let asked (silence : Nat) : State :=
      { flowing with
        roles := { flowing.roles with requester := some .operator, answer := some 9 }
        ports := { flowing.ports with second := { flowing.ports.second with silence := silence } } }
    let timed := modPump flowing fun x => { x with noFlow := some 9, deglitch := { x.deglitch with stall := some 9 } }
    let off (k : Nat) : State := after (.setPumpFault rS k 3 0 40 100) timed
    (asked 300).takes rS .calibrate ∧ (asked 300).roles.requester = some .operator ∧
      (asked 300).roles.holder ≠ .service ∧ ((asked 300).frameReceived .service).watchActive = true ∧
      [300, 299].map (fun n => (after (.setPortSupervision rS 5 1 300) (asked n)).roles.holder) = [.operator, .office] ∧
      (let t := after (.setPortSupervision rS 0 1 36000) (asked 300)
       (t.watch.timeout, t.watch.timer, t.watch.lapse, t.roles.holder) = (none, none, 36000, .office)) ∧
      (after (.setPortSupervision rS 100 0 300) flowing).watch.timer = some 20 ∧
      faultKindOf 2 = some .noFlow ∧ faultActionOf 3 = some .off ∧ (faultSettingOf .noFlow .off 0 40 100).isSome = true ∧
      (off 2).pump.noFlow = none ∧ (off 2).pump.deglitch.stall = some 9 ∧
      (after (.setPumpFault rS 0 3 5 180 0) timed).pump.noFlow = some 9 := by decide

theorem test_witness_IgnitionMovesThePower :
    let waking := after .ignitionOn State.reset
    State.reset.power.state = .standby ∧ waking.power.state = .wakeSettle ∧ waking.power.wake = some 20 ∧
      fuel.power.state = .run ∧ (waking.point .a).state.unfinished = false ∧
      (waking.point .b).state.unfinished = false ∧ (after .wakeSettleExpiry waking).power.state = .run ∧
      (after .ignitionOff waking).power.state = .standby := by decide

/-- A part in reset with a delivery and a load entry open. -/
def interrupted : State :=
  after (.supplyFail ⟨none, none, none⟩)
    { flowing with
      loader := loading.loader, stock := { flowing.stock with two := loading.stock.two }
      journal := { flowing.journal with reserved := 2 }
      points := { flowing.points with a := { flowing.points.a with context := some { delivery with net_uL := 412370000 } } } }

theorem test_witness_LeavingResetRecovers :
    State.reset.inReset = false ∧ interrupted.inReset = true ∧ (interrupted.point .a).context.isSome = true ∧
      (interrupted.point .b).context = none ∧ interrupted.power.ignition = true ∧
      State.reset.enterReset.power.ignition = false ∧
      (let t := after (.resetExit ⟨true, none⟩) interrupted
       (t.power.lastReset, t.power.closedDeliveries, t.power.closedEntries, t.power.state) =
         (.supplyFail, 1, 1, .wakeSettle) ∧
         t.journal.records.length = 2 ∧ t.journal.reserved = 0 ∧ t.roster.map (fun m => m.reserved) = [0]) := by
  decide +kernel

/-- The part in reset with its work open has the invariants that leave nothing reserved behind the recovery. -/
theorem test_witness_LeavingResetRecovers_books : interrupted.SlotsAgree ∧ interrupted.LoadsAgree ∧
    interrupted.BooksAgree := by
  have work : interrupted.WorkAgrees :=
    ⟨fun p h => absurd h (by decide), fun p _ => by cases p <;> rfl, fun h => absurd h (by decide)⟩
  refine ⟨⟨work, by decide +kernel, by decide +kernel⟩, ⟨nofun, fun e h => ?_, fun c x h => ?_⟩,
    ⟨work, ⟨by decide, by decide⟩, by unfold State.AccountsOrdered; decide, fun d e _ h => ?_, fun p d h => ?_,
      ⟨by decide +kernel, by decide +kernel, fun c x h => ?_⟩⟩⟩
  · cases h; decide
  · cases c <;> cases h
    · exact ⟨nofun, nofun⟩
    · exact ⟨fun _ => ⟨entry, rfl, rfl, rfl⟩, nofun⟩
  · cases h
  · cases p
    · cases h; exact ⟨rfl, rfl, rfl, by decide⟩
    · cases h
  · cases c <;> cases h <;> decide +kernel

/-- The records of the recovery, RESTART and RECOVERED, and the notices behind RESTARTED (R192). -/
theorem test_recovery_records :
    let t := after (.resetExit ⟨true, none⟩) interrupted
    (t.journal.records.map fun r =>
        match r.body with
        | .delivery x => (x.cause, x.recovered, x.net, x.amount)
        | .receipt x => (x.cause, x.recovered, x.net, x.bookAfter)
        | _ => (.operatorStop, false, 0, 0)) =
        [(.restart, true, 41237, 41237), (.restart, true, 40000, 140000)] ∧
      (t.port .office).has .restarted = true ∧ (t.port .office).has .deliveryClosed = true ∧
      (t.port .operator).has .loadDone = true ∧ t.accounts.map (fun a => (a.spent, a.reserved)) = [(541237, 0)] ∧
      (t.comp .n1).map (fun x => (x.book, x.reserved)) = some (458763, 0) ∧
      (t.comp .n2).map (fun x => (x.state, x.draining)) = some (.inService, false) := by decide +kernel

/-- A reset that falls in behind the close of point A leaves the load entry for the next recovery (R192). -/
theorem test_recovery_is_cut :
    let t := after (.resetExit ⟨true, some .pointA⟩) interrupted
    (t.inReset, t.points.a.context, t.loader.current.isSome, t.journal.records.length, t.journal.reserved) =
        (true, none, true, 1, 1) ∧
      (let u := after (.resetExit ⟨true, none⟩) (after .resetPin t)
       (u.power.lastReset, u.power.closedDeliveries, u.power.closedEntries, u.journal.records.length,
          u.journal.reserved) = (.resetPin, 0, 1, 2, 0)) := by decide +kernel

/-- The pin counts while the supply is good alone, and a supply fail in a pin reset is reported as such (R191). -/
theorem test_reset_kinds :
    let leave (rows : List Instr) : ResetKind :=
      (rows.foldl (fun s i => after i s) State.reset).power.lastReset
    let fail : Instr := .supplyFail ⟨none, none, none⟩
    let exit : Instr := .resetExit ⟨true, none⟩
    [leave [.resetPin, exit], leave [fail, exit], leave [fail, .resetPin, exit], leave [fail, .powerOn, .resetPin, exit],
        leave [.resetPin, fail, exit], leave [.powerOn, exit]] =
      [.resetPin, .supplyFail, .supplyFail, .resetPin, .supplyFail, .powerOn] := by decide +kernel

/-- A pump supply that is low as the part leaves reset starts its deglitch timer (R105). -/
theorem test_supply_tested_at_reset_exit :
    (after (.resetExit ⟨true, none⟩)
        (after (.pumpSenseChange 0 0 .below) (after .resetPin State.reset))).pump.deglitch.supplyLow = some 5 := by
  decide +kernel

theorem test_witness_ResetKeepsTheRetained :
    State.reset.power.supplyOut = false ∧ interrupted.power.supplyOut = true ∧
      (after .resetPin interrupted).power.pinSeen = false := by decide

/-- The factory part's first reset leaves the state of `State.reset` (R191 to R193). -/
theorem test_reset_is_power_on : after (.resetExit ⟨false, none⟩) (after .powerOn State.reset) = State.reset := by
  decide +kernel

end Sys2Proof.Tests
end

/-! SUPPORT AND CERTIFICATES. Meter channels and the arithmetic of volumes: the ledger of the part (the totalisers, and
the delivery records that bill amiss), what every row leaves of it, and the statements on the totalisers, the amounts
and the meter settings (R13, R20, R22, R24). -/

namespace Sys2Proof.Machine

open Sys2Proof

section ledger

variable (s : State)

/-! ### The ledger: what the totalisers show, and the delivery records that bill amiss (R13, R24) -/

/-- A channel's totalisers and their carries. -/
structure Totals where
  gross : Nat
  grossCarry : Nat
  net : Nat
  netCarry : Nat

def Channel.totals (x : Channel) : Totals :=
  { gross := x.grossTotal, grossCarry := x.grossCarry, net := x.netTotal, netCarry := x.netCarry }

/-- The body of a record bills its net volume at its locked price, where it is a delivery's (R24). -/
def RecordBody.billed : RecordBody → Bool
  | .delivery r => r.amount == billAmount r.net r.price
  | _ => true

/-- The delivery records that do not bill their net volume at their locked price. -/
def Journal.misbilled (j : Journal) : List Record := j.records.filter fun x => !x.body.billed

/-- What every row but a window's end and a release of records keeps. -/
structure Ledger where
  totals : ChannelId → Totals
  misbilled : List Record

def State.ledger : Ledger :=
  { totals := fun c => (s.channel c).totals, misbilled := s.journal.misbilled }

theorem Channel.keepsTotals_iff (x y : Channel) : x.KeepsTotals y ↔ y.totals = x.totals := by
  simp [Channel.KeepsTotals, Channel.totals]

theorem State.amountsAgree_iff : s.AmountsAgree ↔ s.journal.misbilled = [] := by
  have one (x : Record) :
      (∀ r, x.body = .delivery r → r.amount = (r.net * r.price + 500) / 1000) ↔ x.body.billed = true := by
    cases h : x.body <;> simp [RecordBody.billed, billAmount]
  simp [State.AmountsAgree, Journal.misbilled, one]

/-! ### Updates of the state -/

theorem State.ledger_congr {s t : State} (hc : t.channels = s.channels) (hr : t.journal.records = s.journal.records) :
    t.ledger = s.ledger := by
  simp [State.ledger, State.channel, Journal.misbilled, hc, hr]

@[simp] theorem State.setPoint_ledger (p : PointId) (x : Point) : (s.setPoint p x).ledger = s.ledger := rfl
@[simp] theorem State.setCoupler_ledger (p : PointId) (x : Coupler) : (s.setCoupler p x).ledger = s.ledger := rfl
@[simp] theorem State.setPort_ledger (o : PortId) (x : Port) : (s.setPort o x).ledger = s.ledger := rfl
@[simp] theorem State.setComp_ledger (c : CompId) (x : Option Compartment) : (s.setComp c x).ledger = s.ledger := rfl
@[simp] theorem State.setArbiter_ledger (x : Arbiter) : (s.setArbiter x).ledger = s.ledger := rfl
@[simp] theorem State.setPump_ledger (x : Pump) : (s.setPump x).ledger = s.ledger := rfl
@[simp] theorem State.setLoader_ledger (x : Loader) : (s.setLoader x).ledger = s.ledger := rfl
@[simp] theorem State.setWatch_ledger (x : Watch) : (s.setWatch x).ledger = s.ledger := rfl
@[simp] theorem State.setRoles_ledger (x : Roles) : (s.setRoles x).ledger = s.ledger := rfl
@[simp] theorem State.setClock_ledger (x : Clock) : (s.setClock x).ledger = s.ledger := rfl
@[simp] theorem State.setPower_ledger (x : Power) : (s.setPower x).ledger = s.ledger := rfl
@[simp] theorem State.setRoster_ledger (x : List MachineRec) : (s.setRoster x).ledger = s.ledger := rfl
@[simp] theorem State.setAccounts_ledger (x : List Account) : (s.setAccounts x).ledger = s.ledger := rfl
@[simp] theorem State.modComp_ledger (c : CompId) (f : Compartment → Compartment) :
    (s.modComp c f).ledger = s.ledger := rfl
@[simp] theorem State.modMachine_ledger (n : Nat) (f : MachineRec → MachineRec) :
    (s.modMachine n f).ledger = s.ledger := rfl
@[simp] theorem State.modAccount_ledger (n : Nat) (f : Account → Account) :
    (s.modAccount n f).ledger = s.ledger := rfl
@[simp] theorem State.raiseOn_ledger (o : PortId) (n : Notice) : (s.raiseOn o n).ledger = s.ledger := rfl
@[simp] theorem State.raise_ledger (n : Notice) : (s.raise n).ledger = s.ledger := rfl
@[simp] theorem State.answer_ledger (o : PortId) (x : Response) : (s.answer o x).ledger = s.ledger := rfl

@[simp] theorem State.setJournal_ledger (x : Journal) (h : x.records = s.journal.records) :
    (s.setJournal x).ledger = s.ledger := State.ledger_congr rfl h

theorem State.setChannel_ledger (c : ChannelId) (x : Channel) (h : x.totals = (s.channel c).totals) :
    (s.setChannel c x).ledger = s.ledger := by
  have e (d : ChannelId) : ((s.setChannel c x).channel d).totals = (s.channel d).totals := by
    rw [State.setChannel_channel]
    split
    · next hd => rw [h, hd]
    · rfl
  simp [State.ledger, e]

/-! ### The journal's writes (R152 to R158) -/

@[simp] theorem RecordBody.billed_of_other (b : RecordBody) (h : ∀ r, b ≠ .delivery r) : b.billed = true := by
  cases b with
  | delivery r => exact absurd rfl (h r)
  | _ => rfl

/-- A record that bills as it should adds nothing amiss. -/
theorem State.ledger_append {s t : State} (x : Record) (hc : t.channels = s.channels)
    (hr : t.journal.records = s.journal.records ++ [x]) (hx : x.body.billed = true) : t.ledger = s.ledger := by
  simp [State.ledger, State.channel, Journal.misbilled, hc, hr, hx]

@[simp] theorem State.testHighMark_ledger : s.testHighMark.ledger = s.ledger := State.ledger_congr (by simp) (by simp)
@[simp] theorem State.reserveSlot_ledger : s.reserveSlot.ledger = s.ledger := State.ledger_congr (by simp) (by simp)
@[simp] theorem State.returnSlot_ledger : s.returnSlot.ledger = s.ledger := rfl

@[simp] theorem State.store_ledger (b : RecordBody) (h : b.billed = true) : (s.store b).ledger = s.ledger :=
  State.ledger_append (s.newRecord b) (by simp) (by simp) h

@[simp] theorem State.storeReserved_ledger (b : RecordBody) (h : b.billed = true) :
    (s.storeReserved b).ledger = s.ledger :=
  State.ledger_append (s.newRecord b) (by simp) (by simp) h

@[simp] theorem State.storeSystem_ledger (b : RecordBody) (h : b.billed = true) :
    (s.storeSystem b).ledger = s.ledger := by
  unfold State.storeSystem
  split
  · exact State.store_ledger s b h
  · rfl

/-- A close's record bills its own net volume at the delivery's locked price (R89). -/
theorem deliveryRecordOf_billed (p : PointId) (d : Delivery) (k : EndCause) (backward recovered : Bool) :
    (RecordBody.delivery (deliveryRecordOf p d k backward recovered)).billed = true := by
  simp [RecordBody.billed, deliveryRecordOf]

/-! ### Meter channels: binding, counting and reset keep the totalisers (R2, R3, R15, R16) -/

theorem Channel.bind_totals (x : Channel) (alpha : Nat) : (x.bind alpha).totals = x.totals := rfl
theorem Channel.unbind_totals (x : Channel) : x.unbind.totals = x.totals := rfl
theorem Channel.reset_totals (x : Channel) : x.reset.totals = x.totals := rfl

@[simp] theorem Channel.count_totals (x : Channel) (d : PulseDir) : (x.count d).totals = x.totals := by
  cases d <;> rfl

/-- A binding changes no totaliser. -/
theorem Channel.BindsTo.totals {x y : Channel} (h : x.BindsTo y) : y.totals = x.totals := by
  unfold Channel.BindsTo at h
  rw [h]; rfl

@[simp] theorem State.bindChannel_ledger (c : ChannelId) (q : ProductId) : (s.bindChannel c q).ledger = s.ledger :=
  State.setChannel_ledger _ _ _ (Channel.bind_totals _ _)

@[simp] theorem State.unbindChannel_ledger (c : ChannelId) : (s.unbindChannel c).ledger = s.ledger :=
  State.setChannel_ledger _ _ _ (Channel.unbind_totals _)

/-! ### The blocks that follow -/

theorem State.FollowedBy.ledger {s t : State} (h : s.FollowedBy t) : t.ledger = s.ledger := by
  have totals (c : ChannelId) : (t.channel c).totals = (s.channel c).totals := by
    cases c with
    | a => exact congrArg Channel.totals h.channelA
    | b => exact congrArg Channel.totals h.channelB
    | load => exact h.channelLoad.totals
  have records : t.journal.records = s.journal.records := by rw [h.journal]
  simp [State.ledger, Journal.misbilled, totals, records]

@[simp] theorem State.follow_ledger (old : State) : (s.follow old).ledger = s.ledger :=
  (State.follow_followedBy s old).ledger

/-! ### Stock and shifts (R123, R127, R159, R169) -/

@[simp] theorem State.reorderFall_ledger (c : CompId) : (s.reorderFall c).ledger = s.ledger :=
  State.ledger_congr (by simp) (by simp)

@[simp] theorem State.reconcile_ledger (k : Trigger) (c : CompId) : (s.reconcile k c).ledger = s.ledger := by
  unfold State.reconcile
  split
  · rfl
  · split
    · exact State.ledger_congr (by simp) (by simp)
    · dsimp only
      split <;> simp [State.setLastRec]

@[simp] theorem State.reconcileAll_ledger (k : Trigger) : (s.reconcileAll k).ledger = s.ledger := by
  simp [State.reconcileAll, Num4.all]

@[simp] theorem State.chargeBook_ledger (c : CompId) (p : PointId) (m v : Nat) :
    (s.chargeBook c p m v).ledger = s.ledger := by
  unfold State.chargeBook
  split
  · rfl
  · split <;> simp

@[simp] theorem State.takeOver_ledger (t : PriceTable) (k : TakeOver) : (s.takeOver t k).ledger = s.ledger := by
  exact State.storeSystem_ledger { s with prices := { current := t, staged := none } } _ rfl

@[simp] theorem State.closeTally_ledger (p n : ShiftId) : (s.closeTally p n).ledger = s.ledger := by
  unfold State.closeTally
  dsimp only
  split <;> simp

@[simp] theorem State.shiftPrices_ledger : s.shiftPrices.ledger = s.ledger := by
  unfold State.shiftPrices
  split
  · exact State.takeOver_ledger _ _ _
  · rfl

@[simp] theorem State.evaluateShift_ledger : s.evaluateShift.ledger = s.ledger := by
  unfold State.evaluateShift
  split
  · simp [State.rollover]
  · rfl

@[simp] theorem State.passMinute_ledger : s.passMinute.ledger = s.ledger := State.ledger_congr (by simp) (by simp)

/-! ### A delivery opens and closes (R57, R88, R92) -/

@[simp] theorem State.openDelivery_ledger (p : PointId) (r : AuthRequest) (a : Account) (c : CompId) (l : Nat)
    (x : LimitSource) (k : Nat) : (s.openDelivery p r a c l x k).ledger = s.ledger := by
  simp [State.openDelivery, State.stopSettle, State.reserveOn]

theorem State.authorise_ledger {s t : State} {p : PointId} {r : AuthRequest} (h : s.authorise p r = .ok t) :
    t.ledger = s.ledger := by
  unfold State.authorise at h
  split at h
  · cases h
  · obtain rfl := Except.ok.inj h
    exact State.openDelivery_ledger ..

@[simp] theorem State.chargeDelivery_ledger (p : PointId) (d : Delivery) (k : EndCause) (b : Bool) :
    (s.chargeDelivery p d k b).ledger = s.ledger := by
  have charges (u : State) :
      (d.charges.foldl (fun s x => s.chargeBook x.1 p d.machine x.2) u).ledger = u.ledger := by
    unfold Delivery.charges
    split <;> simp
  have account (u : State) (n m : Nat) : (u.chargeAccount n m).ledger = u.ledger :=
    State.ledger_congr (by simp) (by simp)
  simp [State.chargeDelivery, State.tallyDelivery, deliveryRecordOf_billed, charges, account]

@[simp] theorem State.close_ledger (p : PointId) (k : EndCause) (b : Bool) : (s.close p k b).ledger = s.ledger := by
  unfold State.close
  split
  · rfl
  · next d _ =>
    have released : ((s.quietPoint p).releaseDelivery p d).ledger = s.ledger := by
      simp [State.releaseDelivery, State.releaseOn, State.quietPoint, State.stopGrace]
    have settled (u : State) (c : CompId) : (u.startSettle c).ledger = u.ledger :=
      State.ledger_congr (by simp) (by simp)
    dsimp only
    split <;> simp [settled, released]

@[simp] theorem State.raiseRefused_ledger (x : AuthRefusal) : (s.raiseRefused x).ledger = s.ledger :=
  State.ledger_congr (by simp) (by simp)

@[simp] theorem State.rearm_ledger (p : PointId) (d : Delivery) (x : Option Preset) :
    (s.rearm p d x).ledger = s.ledger := by
  unfold State.rearm
  split
  · simp
  · dsimp only
    split
    · next h => exact (State.authorise_ledger h).trans (State.setPoint_ledger ..)
    · simp

@[simp] theorem State.closeOn_ledger (p : PointId) (k : EndCause) : (s.closeOn p k).ledger = s.ledger := by
  unfold State.closeOn
  split
  · rfl
  · dsimp only
    split <;> simp

/-! ### A load entry ends (R145, R146) -/

@[simp] theorem State.closePlan_ledger : s.closePlan.ledger = s.ledger := State.ledger_congr (by simp) (by simp)
@[simp] theorem State.afterEntry_ledger : s.afterEntry.ledger = s.ledger := State.ledger_congr (by simp) (by simp)
@[simp] theorem State.dropEntry_ledger (e : Entry) (k : EndCause) : (s.dropEntry e k).ledger = s.ledger := rfl

@[simp] theorem State.closeReceipt_ledger (e : Entry) (x : LoadContext) (k : EndCause) (b : Bool) :
    (s.closeReceipt e x k b).ledger = s.ledger := by
  have received (u : State) (c : CompId) (n : Nat) : (u.receiveStock c n).ledger = u.ledger :=
    State.ledger_congr (by simp) (by simp)
  simp [State.closeReceipt, State.endEntry, received]

/-! ### Roles (R180, R181) -/

@[simp] theorem State.moveRole_ledger (o : PortId) : (s.moveRole o).ledger = s.ledger :=
  State.ledger_congr (by simp) (by simp)

@[simp] theorem State.denyRequest_ledger : s.denyRequest.ledger = s.ledger := by
  unfold State.denyRequest
  split <;> rfl

@[simp] theorem State.applyLapse_ledger : s.applyLapse.ledger = s.ledger := by
  unfold State.applyLapse
  split
  · split <;> simp
  · rfl

/-! ### Resets and the recovery (R191 to R193) -/

@[simp] theorem State.enterReset_ledger : s.enterReset.ledger = s.ledger := by
  have totals (c : ChannelId) : (s.enterReset.channel c).totals = (s.channel c).totals := by
    cases c <;> exact Channel.reset_totals _
  simp only [State.ledger, totals]
  rfl

@[simp] theorem State.leaveReset_ledger (held : Bool) : (s.leaveReset held).ledger = s.ledger := by
  have tested (u : State) : (u.testBackup held).ledger = u.ledger := by
    unfold State.testBackup
    dsimp only
    split <;> split <;> simp
  simp [State.leaveReset, tested]

@[simp] theorem State.recoverEntry_ledger : s.recoverEntry.1.ledger = s.ledger := by
  unfold State.recoverEntry
  split
  · rfl
  · split <;> simp

@[simp] theorem State.recoverTo_ledger (k : RecoveryPoint) : (s.recoverTo k).ledger = s.ledger := by
  cases k <;> simp [State.recoverTo, State.recover, State.recoverDelivery]

@[simp] theorem State.startBlocks_ledger : s.startBlocks.ledger = s.ledger := by
  have settled (u : State) : u.startAllSettle.ledger = u.ledger := rfl
  have powered (u : State) : u.setPowerState.ledger = u.ledger := by
    unfold State.setPowerState
    split <;> rfl
  simp [State.startBlocks, settled, powered]

@[simp] theorem State.exitReset_ledger (x : ResetExit) : (s.exitReset x).ledger = s.ledger := by
  unfold State.exitReset
  split
  · exact (State.startBlocks_ledger _).trans ((State.recoverTo_ledger _ .plan).trans (State.leaveReset_ledger _ _))
  · simp

/-! ### A command in its frame -/

/-- The totalisers stay, and no record bills amiss that did not before: the most a row that ends no window may do. -/
structure State.LedgerTo (s t : State) : Prop where
  totals : t.ledger.totals = s.ledger.totals
  misbilled : t.ledger.misbilled ⊆ s.ledger.misbilled

theorem State.LedgerTo.of_eq {s t : State} (h : t.ledger = s.ledger) : s.LedgerTo t := by
  constructor <;> simp [h]

@[simp] theorem State.frameReceived_ledger (o : PortId) : (s.frameReceived o).ledger = s.ledger :=
  State.ledger_congr (by simp) (by simp)

@[simp] theorem State.queueExtra_ledger (o : PortId) (x : Response) : (s.queueExtra o x).ledger = s.ledger := by
  unfold State.queueExtra
  split <;> rfl

@[simp] theorem State.reply_ledger (o : PortId) (x : Response) : (s.reply o x).ledger = s.ledger := by
  unfold State.reply
  split <;> simp

/-- A framed command leaves the ledger, or leaves what its body makes of it. -/
theorem State.framed_ledger_cases (r : Req) (code : Nat) (a : Access) (body : State → State × Reply) :
    (s.framed r code a body).ledger = s.ledger ∨
      (s.framed r code a body).ledger = (body (s.frameReceived r.port)).1.ledger := by
  unfold State.framed
  dsimp only
  split
  · exact .inl (by simp)
  · split
    · exact .inl (by simp)
    · split
      · exact .inr rfl
      · exact .inl (by simp)

theorem State.framed_ledger {r : Req} {code : Nat} {a : Access} {body : State → State × Reply}
    (h : ∀ u : State, (body u).1.ledger = u.ledger) : (s.framed r code a body).ledger = s.ledger := by
  rcases s.framed_ledger_cases r code a body with e | e
  · exact e
  · rw [e, h, State.frameReceived_ledger]

@[simp] theorem State.deny_ledger (x : Status) : (s.deny x).1.ledger = s.ledger := rfl
@[simp] theorem State.badParam_ledger : s.badParam.1.ledger = s.ledger := rfl
@[simp] theorem State.done_ledger : s.done.1.ledger = s.ledger := rfl

/-- Where a row's own effect leaves the channels and the records, the blocks that follow leave the ledger. -/
theorem State.follow_ledger_congr {s t : State} (old : State) (hc : t.channels = s.channels)
    (hr : t.journal.records = s.journal.records) : (t.follow old).ledger = s.ledger :=
  (State.follow_ledger t old).trans (State.ledger_congr hc hr)

/-! ### The commands of any port -/

theorem bodyGetStatus_ledger (n : Nat) : (bodyGetStatus n s).1.ledger = s.ledger := by
  unfold bodyGetStatus; split <;> rfl

theorem bodyGetMachine_ledger (k : Nat) (v : BitVec 64) : (bodyGetMachine k v s).1.ledger = s.ledger := by
  unfold bodyGetMachine; split <;> rfl

theorem bodyGetAccount_ledger (n : Nat) : (bodyGetAccount n s).1.ledger = s.ledger := by
  unfold bodyGetAccount; (repeat' split) <;> rfl

theorem bodyGetStock_ledger (n : Nat) : (bodyGetStock n s).1.ledger = s.ledger := by
  unfold bodyGetStock; (repeat' split) <;> rfl

theorem bodyReadJournal_ledger (q : SeqNo) (n : Nat) : (bodyReadJournal q n s).1.ledger = s.ledger := by
  unfold bodyReadJournal; (repeat' split) <;> rfl

theorem bodySetNoticeMask_ledger (o : PortId) (m e : Nat) : (bodySetNoticeMask o m e s).1.ledger = s.ledger := by
  unfold bodySetNoticeMask; (repeat' split) <;> rfl

theorem bodyRequestAccountRole_ledger (o : PortId) : (bodyRequestAccountRole o s).1.ledger = s.ledger := by
  unfold bodyRequestAccountRole; (repeat' split) <;> simp

/-! ### The commands of the OPERATE role -/

@[simp] theorem State.setRefusal_ledger (p : PointId) (x : Status) (r : Option Reason) (l : Option LimitSource)
    (t : Option TagId) (m : Option Nat) : (s.setRefusal p x r l t m).ledger = s.ledger := rfl

theorem State.identifyManual_ledger (p : PointId) (n : Nat) (h : Option Nat) :
    (s.identifyManual p n h).1.ledger = s.ledger := by
  unfold State.identifyManual
  split; · rfl
  split; · rfl
  split; · rfl
  split; · rfl
  split
  · rfl
  · split; · rfl
    split; · rfl
    split
    · next h => simpa using State.authorise_ledger h
    · dsimp only
      split <;> rfl

theorem bodyIdentifyManual_ledger (p n : Nat) (h : RawOpt Nat) : (bodyIdentifyManual p n h s).1.ledger = s.ledger := by
  unfold bodyIdentifyManual
  split
  · rfl
  · split
    · rfl
    · split
      · exact State.identifyManual_ledger ..
      · rfl

theorem State.presetOpen_ledger (p : PointId) (d : Delivery) (x : Option Preset) :
    (s.presetOpen p d x).1.ledger = s.ledger := by
  unfold State.presetOpen
  split
  · rfl
  · dsimp only
    split
    · exact State.follow_ledger_congr _ (by simp) (by simp)
    · rfl

theorem bodySetPreset_ledger (p k v : Nat) : (bodySetPreset p k v s).1.ledger = s.ledger := by
  unfold bodySetPreset
  split
  · split
    · exact State.presetOpen_ledger ..
    · rfl
  · rfl

theorem bodyStopPoint_ledger (p : Nat) : (bodyStopPoint p s).1.ledger = s.ledger := by
  unfold bodyStopPoint
  split
  · rfl
  · split
    · exact State.follow_ledger_congr _ (by simp) (by simp)
    · split <;> rfl

theorem bodyStopRepeat_ledger (p : Nat) : (bodyStopRepeat p s).1.ledger = s.ledger := by
  unfold bodyStopRepeat; (repeat' split) <;> rfl

theorem bodySetPointMode_ledger (p m n : Nat) : (bodySetPointMode p m n s).1.ledger = s.ledger := by
  unfold bodySetPointMode; (repeat' split) <;> rfl

theorem bodyParkPoint_ledger (p : Nat) : (bodyParkPoint p s).1.ledger = s.ledger := by
  unfold bodyParkPoint; (repeat' split) <;> rfl

theorem bodyUnparkPoint_ledger (p : Nat) : (bodyUnparkPoint p s).1.ledger = s.ledger := by
  unfold bodyUnparkPoint; split <;> rfl

theorem bodyClearPumpFault_ledger : (bodyClearPumpFault s).1.ledger = s.ledger := by
  unfold bodyClearPumpFault
  split
  · split
    · exact State.follow_ledger_congr _ (by simp) (by simp)
    · rfl
  · rfl

/-! ### The commands of OPERATE or ACCOUNT -/

theorem bodyOpenLoadPlan_ledger (d : RawOpt (List Nat)) : (bodyOpenLoadPlan d s).1.ledger = s.ledger := by
  unfold bodyOpenLoadPlan; (repeat' split) <;> rfl

theorem bodyAppendLoadEntry_ledger (c t : Nat) : (bodyAppendLoadEntry c t s).1.ledger = s.ledger := by
  unfold bodyAppendLoadEntry
  split
  · split; · rfl
    split; · rfl
    split; · rfl
    exact State.follow_ledger_congr _ (by simp) (by simp)
  · rfl

@[simp] theorem State.stopLoading_ledger (k : EndCause) : (s.stopLoading k).ledger = s.ledger :=
  State.ledger_congr (by simp) (by simp)

theorem bodyStopLoad_ledger : (bodyStopLoad s).1.ledger = s.ledger := by
  unfold bodyStopLoad
  split
  · rfl
  · split <;> simp

theorem bodyCloseLoadPlan_ledger : (bodyCloseLoadPlan s).1.ledger = s.ledger := by
  unfold bodyCloseLoadPlan
  split
  · rfl
  · split
    · simp
    · split <;> simp [State.beginClosing]

theorem bodySetCompartmentService_ledger (c n : Nat) : (bodySetCompartmentService c n s).1.ledger = s.ledger := by
  unfold bodySetCompartmentService; (repeat' split) <;> simp

theorem bodyReconcile_ledger (c : Nat) : (bodyReconcile c s).1.ledger = s.ledger := by
  unfold bodyReconcile; (repeat' split) <;> simp

/-! ### The commands of the ACCOUNT role -/

theorem bodyPutMachine_ledger (m : RawMachine) : (bodyPutMachine m s).1.ledger = s.ledger := by
  unfold bodyPutMachine; dsimp only; (repeat' split) <;> rfl

theorem bodyDropMachine_ledger (n : Nat) : (bodyDropMachine n s).1.ledger = s.ledger := by
  unfold bodyDropMachine; (repeat' split) <;> rfl

theorem bodyPutAccount_ledger (n : Nat) (code : List Nat) (c t x : Nat) :
    (bodyPutAccount n code c t x s).1.ledger = s.ledger := by
  unfold bodyPutAccount; split <;> rfl

theorem bodyCreditAdjust_ledger (n c z : Nat) : (bodyCreditAdjust n c z s).1.ledger = s.ledger := by
  unfold bodyCreditAdjust
  split
  · split
    · rfl
    · split
      · rfl
      · dsimp only
        split <;> split <;> simp
  · rfl

theorem bodyPutProduct_ledger (n : Nat) (code : List Nat) (a p : Nat) :
    (bodyPutProduct n code a p s).1.ledger = s.ledger := by
  unfold bodyPutProduct; split <;> rfl

theorem bodyStagePrices_ledger (c : Nat) (t : Quad (Quad Nat)) : (bodyStagePrices c t s).1.ledger = s.ledger := by
  unfold bodyStagePrices
  split
  · exact State.takeOver_ledger ..
  · rfl
  · rfl

theorem bodySetLimitSettings_ledger (m c : Nat) : (bodySetLimitSettings m c s).1.ledger = s.ledger := by
  unfold bodySetLimitSettings; split <;> rfl

@[simp] theorem State.reorderNew_ledger (c : CompId) : (s.reorderNew c).ledger = s.ledger :=
  State.ledger_congr (by simp) (by simp)

theorem bodyAdjustStock_ledger (c b : Nat) : (bodyAdjustStock c b s).1.ledger = s.ledger := by
  unfold bodyAdjustStock; (repeat' split) <;> simp [State.adjustStock]

theorem bodySetStockLimits_ledger (c r t : Nat) : (bodySetStockLimits c r t s).1.ledger = s.ledger := by
  unfold bodySetStockLimits; (repeat' split) <;> simp

/-- A release of records takes the oldest away and leaves the others as they are (R161). -/
theorem bodyReleaseThrough_ledgerTo (q : SeqNo) : s.LedgerTo (bodyReleaseThrough q s).1 := by
  unfold bodyReleaseThrough
  split
  · next k _ =>
    constructor
    · simp only [State.follow_ledger]; rfl
    · simp only [State.follow_ledger]
      exact ((List.drop_sublist _ _).filter _).subset
  · exact .of_eq rfl
  · exact .of_eq rfl

theorem bodySetTime_ledger (y m d h n x : Nat) : (bodySetTime y m d h n x s).1.ledger = s.ledger := by
  unfold bodySetTime; split <;> simp

theorem bodyTrimClock_ledger : (bodyTrimClock s).1.ledger = s.ledger := by
  unfold bodyTrimClock State.trimClock
  split
  · split <;> simp
  · rfl

theorem bodySetShifts_ledger (l : List (Nat × Nat)) : (bodySetShifts l s).1.ledger = s.ledger := by
  unfold bodySetShifts; split <;> simp

theorem bodySetSuctionPolicy_ledger (n p : Nat) : (bodySetSuctionPolicy n p s).1.ledger = s.ledger := by
  unfold bodySetSuctionPolicy; split <;> simp

theorem bodyYieldAccountRole_ledger : (bodyYieldAccountRole s).1.ledger = s.ledger := by
  unfold bodyYieldAccountRole; split <;> simp

theorem bodyDenyAccountRole_ledger : (bodyDenyAccountRole s).1.ledger = s.ledger := by
  unfold bodyDenyAccountRole; split <;> simp

/-! ### The commands of the CALIBRATE role -/

/-- A write of K clears the gross remainder and no totaliser (R20). -/
theorem bodySetKFactor_ledger (c k : Nat) : (bodySetKFactor c k s).1.ledger = s.ledger := by
  unfold bodySetKFactor
  split
  · split
    · rfl
    · exact State.setChannel_ledger _ _ _ rfl
  · rfl

theorem bodySetRatedFlow_ledger (c m : Nat) : (bodySetRatedFlow c m s).1.ledger = s.ledger := by
  unfold bodySetRatedFlow
  split
  · exact State.setChannel_ledger _ _ _ rfl
  · rfl

theorem bodySetLinearisation_ledger (c : Nat) (l : List (Nat × Nat)) :
    (bodySetLinearisation c l s).1.ledger = s.ledger := by
  unfold bodySetLinearisation
  split
  · split
    · rfl
    · exact State.setChannel_ledger _ _ _ rfl
  · rfl

theorem bodySetPointVolumes_ledger (p x y : Nat) : (bodySetPointVolumes p x y s).1.ledger = s.ledger := by
  unfold bodySetPointVolumes; (repeat' split) <;> rfl

theorem bodySetPointTimes_ledger (a h m p : Nat) : (bodySetPointTimes a h m p s).1.ledger = s.ledger := by
  unfold bodySetPointTimes; split <;> rfl

theorem bodySetSuctionTimes_ledger (h t : Nat) : (bodySetSuctionTimes h t s).1.ledger = s.ledger := by
  unfold bodySetSuctionTimes; split <;> rfl

theorem bodySetPumpFault_ledger (k a d x y : Nat) : (bodySetPumpFault k a d x y s).1.ledger = s.ledger := by
  unfold bodySetPumpFault; (repeat' split) <;> rfl

theorem bodySetPumpRun_ledger (a b c : Nat) : (bodySetPumpRun a b c s).1.ledger = s.ledger := by
  unfold bodySetPumpRun; split <;> rfl

theorem bodyConfigureCompartment_ledger (c q v f h m : Nat) :
    (bodyConfigureCompartment c q v f h m s).1.ledger = s.ledger := by
  unfold bodyConfigureCompartment; (repeat' split) <;> simp

theorem bodyRemoveCompartment_ledger (c : Nat) : (bodyRemoveCompartment c s).1.ledger = s.ledger := by
  unfold bodyRemoveCompartment; (repeat' split) <;> rfl

theorem bodySetStrapping_ledger (c : Nat) (l : List (Nat × Nat)) : (bodySetStrapping c l s).1.ledger = s.ledger := by
  unfold bodySetStrapping; (repeat' split) <;> rfl

theorem bodySetStockSettle_ledger (n : Nat) : (bodySetStockSettle n s).1.ledger = s.ledger := by
  unfold bodySetStockSettle; split <;> rfl

theorem bodySetLoadSettings_ledger (c n : Nat) : (bodySetLoadSettings c n s).1.ledger = s.ledger := by
  unfold bodySetLoadSettings; (repeat' split) <;> rfl

theorem bodySetCouplingGrace_ledger (n : Nat) : (bodySetCouplingGrace n s).1.ledger = s.ledger := by
  unfold bodySetCouplingGrace; split <;> rfl

@[simp] theorem State.followWatch_ledger (old : State) : (s.followWatch old).ledger = s.ledger :=
  (State.followWatch_followedBy s old).ledger

theorem bodySetPortSupervision_ledger (t m l : Nat) : (bodySetPortSupervision t m l s).1.ledger = s.ledger := by
  unfold bodySetPortSupervision; split <;> simp

theorem bodySetWakeSettle_ledger (n : Nat) : (bodySetWakeSettle n s).1.ledger = s.ledger := by
  unfold bodySetWakeSettle; split <;> rfl

/-! ### Frames that are no known command (R173 to R176) -/

theorem State.responseSent_ledger (o : PortId) : (s.responseSent o).ledger = s.ledger := by
  unfold State.responseSent; split <;> rfl

/-! ### The field lines -/

theorem State.hangNozzle_ledger (p : PointId) : (s.hangNozzle p).ledger = s.ledger := by
  unfold State.hangNozzle
  dsimp only
  split
  · exact State.follow_ledger_congr _ (by simp) (by simp)
  · split <;> rfl

theorem State.identifyTag_ledger (p : PointId) (x : ValidRead) : (s.identifyTag p x).ledger = s.ledger := by
  unfold State.identifyTag State.refuseTag
  split
  · rfl
  · split
    · rfl
    · split
      · rfl
      · split
        · next h => simpa using State.authorise_ledger h
        · simp

theorem State.couplingReached_ledger (p : PointId) (x : ValidRead) : (s.couplingReached p x).ledger = s.ledger := by
  unfold State.couplingReached
  split
  · split
    · exact State.identifyTag_ledger ..
    · rfl
  · split
    · exact State.ledger_congr (by simp [State.regain]) (by simp [State.regain])
    · rfl

theorem State.validRead_ledger (p : PointId) (x : ValidRead) : (s.validRead p x).ledger = s.ledger := by
  unfold State.validRead
  dsimp only
  split
  · simp
  · split
    · exact State.couplingReached_ledger ..
    · rfl

theorem State.couplingLost_ledger (p : PointId) : (s.couplingLost p).ledger = s.ledger := by
  unfold State.couplingLost
  split
  · exact State.follow_ledger_congr _ (by simp) (by simp)
  · rfl

theorem State.failedRead_ledger (p : PointId) : (s.failedRead p).ledger = s.ledger := by
  unfold State.failedRead
  dsimp only
  split
  · split
    · exact State.couplingLost_ledger ..
    · rfl
  · rfl

theorem State.press_ledger (p : PointId) : (s.press p).ledger = s.ledger := by
  unfold State.press
  split
  · split
    · exact State.follow_ledger_congr _ (by simp) (by simp)
    · rfl
  · rfl

theorem State.letGo_ledger (p : PointId) : (s.letGo p).ledger = s.ledger := by
  unfold State.letGo
  split
  · exact State.follow_ledger_congr _ (by simp) (by simp)
  · rfl

theorem State.switchRole_ledger (b : Bool) : (s.switchRole b).ledger = s.ledger := by
  unfold State.switchRole; (repeat' split) <;> simp

/-! ### The timers -/

theorem State.expireClose_ledger (p : PointId) (t : Timer) (k : EndCause) :
    (s.expireClose p t k).ledger = s.ledger := by
  unfold State.expireClose; split <;> simp

theorem State.endSettling_ledger : s.endSettling.ledger = s.ledger := by
  unfold State.endSettling; (repeat' split) <;> simp

/-! ### Ignition (R188) -/

@[simp] theorem State.ignitionEnds_ledger (p : PointId) : (s.ignitionEnds p).ledger = s.ledger := by
  unfold State.ignitionEnds
  split
  · exact State.ledger_congr (by simp) (by simp)
  · rfl

/-! ### Windows end (R4, R13) -/

/-- The owner's acts behind a window's end leave the ledger. -/
@[simp] theorem State.ownerActs_ledger (c : ChannelId) : (s.ownerActs c).ledger = s.ledger := by
  have pointWindow (p : PointId) : (s.pointWindow p).ledger = s.ledger := by
    obtain ⟨u, hu, hf⟩ := State.pointWindow_follows s p
    rw [hf.ledger]
    rcases hu with rfl | ⟨-, rfl⟩
    · rfl
    · exact State.ledger_congr (by simp) (by simp)
  cases c with
  | a => exact pointWindow .a
  | b => exact pointWindow .b
  | load => exact State.ledger_congr (s := s) (t := s.loadWindow) (by simp) (by simp)

@[simp] theorem Channel.addIdle_totals (x : Channel) (n : Nat) : (x.addIdle n).1.totals = x.totals := rfl

/-- The ended channel is what its window makes of it, but for the idle flow of an unbound one (R4, R18). -/
theorem State.endWindow_totals (c : ChannelId) (probe : Option Int) :
    ((s.endWindow c probe).channel c).totals = ((s.channel c).window probe).1.totals := by
  unfold State.endWindow
  dsimp only
  split
  · simp
  · split <;> simp

theorem State.endWindow_other (c d : ChannelId) (probe : Option Int) (h : d ≠ c) :
    (s.endWindow c probe).channel d = s.channel d := by
  unfold State.endWindow
  dsimp only
  split
  · simp [h]
  · split <;> simp [h]

/-- A window's stages count its result (R13). -/
theorem Channel.window_counts (x : Channel) (probe : Option Int) : x.CountsTo (x.window probe).1 (x.window probe).2 :=
  ⟨rfl, rfl, rfl, rfl⟩

/-- Only the totalisers and the carries matter to a count. -/
theorem Channel.CountsTo.of_totals {x y z : Channel} {w : WindowResult} (h : x.CountsTo y w)
    (e : z.totals = y.totals) : x.CountsTo z w := by
  simp only [Channel.totals, Totals.mk.injEq] at e
  obtain ⟨eg, egc, en, enc⟩ := e
  unfold Channel.CountsTo
  rw [eg, egc, en, enc]
  exact h

/-- A channel with the totalisers its window leaves has counted the window's result. -/
theorem Channel.CountsTo.of_window {x y : Channel} {probe : Option Int} (h : y.totals = (x.window probe).1.totals) :
    x.CountsTo y (x.window probe).2 := (x.window_counts probe).of_totals h

/-! ### The rows -/

/-- The rows that end a metering window (R4, R23). -/
def endsWindow : Instr → Bool
  | .meterWindowEnd _ _ => true
  | .supplyFail _ => true
  | _ => false

theorem framed_next {r : Req} {code : Nat} {a : Access} {body : State → State × Reply} {s t : State}
    (h : Host.Outcome.next (φ := Fault) (ρ := Refusal) (s.framed r code a body) = .next t)
    (hb : ∀ u : State, (body u).1.ledger = u.ledger) : t.ledger = s.ledger := by
  cases h
  exact s.framed_ledger hb

/-- The commands but RELEASE_THROUGH leave the ledger. -/
theorem command_ledger {i : Instr} {s t : State} {f : Req × Nat × Access} (hf : framing i = some f)
    (hr : ∀ r q, i ≠ .releaseThrough r q) (h : exec i s = .next t) : t.ledger = s.ledger := by
  cases i with
  | getStatus => exact framed_next h fun _ => bodyGetStatus_ledger ..
  | getMachine => exact framed_next h fun _ => bodyGetMachine_ledger ..
  | getAccount => exact framed_next h fun _ => bodyGetAccount_ledger ..
  | getStock => exact framed_next h fun _ => bodyGetStock_ledger ..
  | readJournal => exact framed_next h fun _ => bodyReadJournal_ledger ..
  | getNotices => exact framed_next h fun _ => rfl
  | getTime => exact framed_next h fun _ => rfl
  | setNoticeMask => exact framed_next h fun _ => bodySetNoticeMask_ledger ..
  | requestAccountRole => exact framed_next h fun _ => bodyRequestAccountRole_ledger ..
  | identifyManual => exact framed_next h fun _ => bodyIdentifyManual_ledger ..
  | setPreset => exact framed_next h fun _ => bodySetPreset_ledger ..
  | stopPoint => exact framed_next h fun _ => bodyStopPoint_ledger ..
  | stopRepeat => exact framed_next h fun _ => bodyStopRepeat_ledger ..
  | setPointMode => exact framed_next h fun _ => bodySetPointMode_ledger ..
  | parkPoint => exact framed_next h fun _ => bodyParkPoint_ledger ..
  | unparkPoint => exact framed_next h fun _ => bodyUnparkPoint_ledger ..
  | clearPumpFault => exact framed_next h fun _ => bodyClearPumpFault_ledger ..
  | openLoadPlan => exact framed_next h fun _ => bodyOpenLoadPlan_ledger ..
  | appendLoadEntry => exact framed_next h fun _ => bodyAppendLoadEntry_ledger ..
  | stopLoad => exact framed_next h fun _ => bodyStopLoad_ledger ..
  | closeLoadPlan => exact framed_next h fun _ => bodyCloseLoadPlan_ledger ..
  | setCompartmentService => exact framed_next h fun _ => bodySetCompartmentService_ledger ..
  | reconcile => exact framed_next h fun _ => bodyReconcile_ledger ..
  | putMachine => exact framed_next h fun _ => bodyPutMachine_ledger ..
  | dropMachine => exact framed_next h fun _ => bodyDropMachine_ledger ..
  | putAccount => exact framed_next h fun _ => bodyPutAccount_ledger ..
  | creditAdjust => exact framed_next h fun _ => bodyCreditAdjust_ledger ..
  | putProduct => exact framed_next h fun _ => bodyPutProduct_ledger ..
  | stagePrices => exact framed_next h fun _ => bodyStagePrices_ledger ..
  | setLimitSettings => exact framed_next h fun _ => bodySetLimitSettings_ledger ..
  | adjustStock => exact framed_next h fun _ => bodyAdjustStock_ledger ..
  | setStockLimits => exact framed_next h fun _ => bodySetStockLimits_ledger ..
  | releaseThrough r q => exact absurd rfl (hr r q)
  | setTime => exact framed_next h fun _ => bodySetTime_ledger ..
  | trimClock => exact framed_next h fun _ => bodyTrimClock_ledger ..
  | setShifts => exact framed_next h fun _ => bodySetShifts_ledger ..
  | setSuctionPolicy => exact framed_next h fun _ => bodySetSuctionPolicy_ledger ..
  | yieldAccountRole => exact framed_next h fun _ => bodyYieldAccountRole_ledger ..
  | denyAccountRole => exact framed_next h fun _ => bodyDenyAccountRole_ledger ..
  | setKFactor => exact framed_next h fun _ => bodySetKFactor_ledger ..
  | setRatedFlow => exact framed_next h fun _ => bodySetRatedFlow_ledger ..
  | setLinearisation => exact framed_next h fun _ => bodySetLinearisation_ledger ..
  | setPointVolumes => exact framed_next h fun _ => bodySetPointVolumes_ledger ..
  | setPointTimes => exact framed_next h fun _ => bodySetPointTimes_ledger ..
  | setSuctionTimes => exact framed_next h fun _ => bodySetSuctionTimes_ledger ..
  | setPumpFault => exact framed_next h fun _ => bodySetPumpFault_ledger ..
  | setPumpRun => exact framed_next h fun _ => bodySetPumpRun_ledger ..
  | configureCompartment => exact framed_next h fun _ => bodyConfigureCompartment_ledger ..
  | removeCompartment => exact framed_next h fun _ => bodyRemoveCompartment_ledger ..
  | setStrapping => exact framed_next h fun _ => bodySetStrapping_ledger ..
  | setStockSettle => exact framed_next h fun _ => bodySetStockSettle_ledger ..
  | setLoadSettings => exact framed_next h fun _ => bodySetLoadSettings_ledger ..
  | setCouplingGrace => exact framed_next h fun _ => bodySetCouplingGrace_ledger ..
  | setPortSupervision => exact framed_next h fun _ => bodySetPortSupervision_ledger ..
  | setWakeSettle => exact framed_next h fun _ => bodySetWakeSettle_ledger ..
  | _ => cases hf

theorem releaseThrough_ledgerTo {r : Req} {q : SeqNo} {s t : State} (h : exec (.releaseThrough r q) s = .next t) :
    s.LedgerTo t := by
  cases h
  obtain ⟨totals, misbilled⟩ := bodyReleaseThrough_ledgerTo (s.frameReceived r.port) q
  rcases s.framed_ledger_cases r 0x39 .account (bodyReleaseThrough q) with e | e
  · exact .of_eq e
  · constructor
    · rw [e, totals, State.frameReceived_ledger]
    · rw [e, ← State.frameReceived_ledger s r.port]
      exact misbilled

theorem State.ite_ledger {c : Prop} [Decidable c] {s t u : State} (ht : t.ledger = s.ledger)
    (hu : u.ledger = s.ledger) : (if c then t else u).ledger = s.ledger := by
  split
  · exact ht
  · exact hu

/-- The events that end no window leave the ledger. -/
theorem event_ledger {i : Instr} {s t : State} (hf : framing i = none) (hi : endsWindow i = false)
    (h : exec i s = .next t) : t.ledger = s.ledger := by
  cases i with
  | badFrame => cases h; simp
  | frameTimeout => cases h; rfl
  | frameWhileAnswering port frame =>
    cases h
    refine State.ite_ledger ?_ rfl
    cases frame <;> simp
  | frameDuringRecovery => cases h; exact State.ite_ledger (by simp) rfl
  | responseSent => cases h; exact s.responseSent_ledger _
  | unknownCommandCode => cases h; exact s.framed_ledger fun u => u.badParam_ledger
  | meterPulse => cases h; exact State.ite_ledger rfl (State.setChannel_ledger _ _ _ (Channel.count_totals _ _))
  | nozzleOffHook => cases h; rfl
  | nozzleOnHook => cases h; exact State.ite_ledger (s.hangNozzle_ledger _) rfl
  | tagRead p reply =>
    cases h
    refine State.ite_ledger rfl ?_
    cases reply with
    | none => exact s.failedRead_ledger p
    | some x => exact s.validRead_ledger p _
  | couplingGraceExpiry => cases h; exact s.expireClose_ledger ..
  | triggerPress p => cases h; exact State.ite_ledger rfl (State.ite_ledger rfl (State.press_ledger _ p))
  | triggerRelease p => cases h; exact State.ite_ledger (State.ite_ledger rfl (State.letGo_ledger _ p)) rfl
  | authTimerExpiry => cases h; exact s.expireClose_ledger ..
  | pressWaitExpiry => cases h; exact s.expireClose_ledger ..
  | pumpFaultSuspendExpiry => cases h; exact s.expireClose_ledger ..
  | meterSettleExpiry p =>
    cases h
    split
    · exact s.expireClose_ledger ..
    · rfl
  | selectorArrival =>
    cases h
    split
    · exact State.follow_ledger_congr _ (by simp) (by simp)
    · rfl
    · rfl
  | suctionHoldExpiry => cases h; exact State.ite_ledger (State.follow_ledger_congr _ (by simp) (by simp)) rfl
  | pumpRampExpiry => cases h; exact State.ite_ledger (State.testNoFlow_followedBy _).ledger rfl
  | pumpSenseChange => cases h; exact State.ite_ledger rfl rfl
  | faultDeglitchExpiry => cases h; exact State.ite_ledger (State.follow_ledger_congr _ (by simp) (by simp)) rfl
  | pumpOvercurrent => cases h; exact State.ite_ledger (State.follow_ledger_congr _ (by simp) (by simp)) rfl
  | noFlowTimerExpiry => cases h; exact State.ite_ledger (State.follow_ledger_congr _ (by simp) (by simp)) rfl
  | retryTimerExpiry => cases h; exact State.ite_ledger (State.follow_ledger_congr _ (by simp) (by simp)) rfl
  | cleanRunExpiry => cases h; exact State.ite_ledger rfl rfl
  | clearTimerExpiry => cases h; exact State.ite_ledger (State.follow_ledger_congr _ (by simp) (by simp)) rfl
  | consoleTimerExpiry =>
    cases h
    exact State.ite_ledger rfl (State.ite_ledger (State.follow_ledger_congr _ (by simp) (by simp)) rfl)
  | stockSettleExpiry => cases h; exact State.ite_ledger (State.reconcile_ledger ..) rfl
  | levelProbeReading => cases h; exact State.ite_ledger rfl rfl
  | highLevelSwitch => cases h; exact State.ite_ledger (State.stopLoading_ledger _ _) rfl
  | loadNoFlowExpiry => cases h; exact State.ite_ledger (s.stopLoading_ledger _) rfl
  | loadSettleExpiry => cases h; exact State.ite_ledger s.endSettling_ledger rfl
  | clockMinute => cases h; exact State.ite_ledger s.passMinute_ledger (by simp)
  | roleAnswerTimerExpiry => cases h; exact State.ite_ledger s.denyRequest_ledger rfl
  | roleLapse => cases h; exact State.ite_ledger (State.applyLapse_ledger _) rfl
  | calibrationSwitchChange => cases h; exact State.ite_ledger rfl (State.switchRole_ledger ..)
  | ignitionOff => cases h; split <;> simp [State.standBy]
  | ignitionOn => cases h; split <;> simp [State.wakeUp]
  | wakeSettleExpiry => cases h; exact State.ite_ledger (State.follow_ledger ..) rfl
  | resetPin => cases h; exact State.enterReset_ledger _
  | powerOn => cases h; exact State.enterReset_ledger _
  | resetExit x => cases h; exact State.ite_ledger (s.exitReset_ledger x) rfl
  | meterWindowEnd => cases hi
  | supplyFail => cases hi
  | _ => cases hf

theorem exec_ledgerTo {i : Instr} {s t : State} (hi : endsWindow i = false) (h : exec i s = .next t) :
    s.LedgerTo t := by
  cases hf : framing i with
  | none => exact .of_eq (event_ledger hf hi h)
  | some f =>
    by_cases hr : ∃ r q, i = .releaseThrough r q
    · obtain ⟨r, q, rfl⟩ := hr
      exact releaseThrough_ledgerTo h
    · exact .of_eq (command_ledger hf (fun r q e => hr ⟨r, q, e⟩) h)

/-! ### The totalisers (R13) -/

theorem State.totals_of_ledger {s t : State} (h : t.ledger.totals = s.ledger.totals) (c : ChannelId) :
    (t.channel c).totals = (s.channel c).totals := congrFun h c

/-- The three windows of a supply fail, each of its own channel (R23). -/
theorem State.flush_totals (probes : Triple (Option Int)) (c : ChannelId) :
    ((((s.endWindow .a probes.first).endWindow .b probes.second).endWindow .load probes.third).channel c).totals =
      ((s.channel c).window (probes.channel c)).1.totals := by
  cases c with
  | a =>
    rw [State.endWindow_other _ .load .a _ (by decide), State.endWindow_other _ .b .a _ (by decide),
      State.endWindow_totals]
    rfl
  | b =>
    rw [State.endWindow_other _ .load .b _ (by decide), State.endWindow_totals,
      State.endWindow_other _ .a .b _ (by decide)]
    rfl
  | load =>
    rw [State.endWindow_totals, State.endWindow_other _ .b .load _ (by decide),
      State.endWindow_other _ .a .load _ (by decide)]
    rfl

end ledger

/-- Settles O16: every row that ends no window keeps the ledger's totalisers, and a window's end counts by R13. -/
theorem totalisersOnlyCountWindows : Obligations.TotalisersOnlyCountWindows := by
  refine ⟨fun i s t h hw hs c => ?_,
    fun c probe s hr => ⟨(s.endWindow c probe).ownerActs c, ?_, ?_, fun d hd => ?_⟩,
    fun probes s => ⟨_, rfl, fun c => .of_window ?_⟩⟩
  · have hi : endsWindow i = false := by
      cases i with
      | meterWindowEnd c x => exact absurd rfl (hw c x)
      | supplyFail x => exact absurd rfl (hs x)
      | _ => rfl
    rw [Channel.keepsTotals_iff]
    exact State.totals_of_ledger (exec_ledgerTo hi h).totals c
  · simp [exec, execMeterWindowEnd, hr]
  · refine .of_window ?_
    rw [State.totals_of_ledger (congrArg Ledger.totals (State.ownerActs_ledger _ c)), State.endWindow_totals]
  · rw [Channel.keepsTotals_iff, State.totals_of_ledger (congrArg Ledger.totals (State.ownerActs_ledger _ c)),
      State.endWindow_other s c d probe hd]
  · rw [State.totals_of_ledger (congrArg Ledger.totals (State.enterReset_ledger _))]
    exact s.flush_totals probes c

/-! ### The delivery records (R24) -/

theorem State.tick_ledger (s : State) : s.tick.ledger = s.ledger := by
  have clock (u : State) (l : List Instr) : ({ u.tickClock with pending := l } : State).ledger = u.ledger := by
    unfold State.tickClock
    split <;> rfl
  unfold State.tick
  split <;> exact clock _ _

/-- A window's end writes no record. -/
theorem window_misbilled {i : Instr} {s t : State} (hi : endsWindow i = true) (h : exec i s = .next t) :
    t.ledger.misbilled = s.ledger.misbilled := by
  cases i with
  | meterWindowEnd c x =>
    cases h
    split
    · rfl
    · rw [State.ownerActs_ledger]
      simp [State.ledger]
  | supplyFail x =>
    cases h
    rw [State.enterReset_ledger]
    simp [State.ledger]
  | _ => cases hi

/-- No step adds a record that bills amiss. -/
theorem step_misbilled {s t : State} (h : step s = .next t) : t.ledger.misbilled ⊆ s.ledger.misbilled := by
  unfold step at h
  split at h
  · cases h
    rw [State.tick_ledger]
    exact List.Subset.refl _
  · next c rest _ =>
    have taken : ({ s with pending := rest } : State).ledger = s.ledger := rfl
    rw [← taken]
    cases hi : endsWindow c with
    | false => exact (exec_ledgerTo hi h).misbilled
    | true =>
      rw [window_misbilled hi h]
      exact List.Subset.refl _

theorem reservation_covers_limit (limit price : Nat) : (limit * price + 500) / 1000 ≤ reservationFor limit price :=
  Nat.div_le_div_right (by omega)

/-- Settles O15: no step adds a record that bills amiss, since a close bills by R24. -/
theorem amountsFollowPrices : Obligations.AmountsFollowPrices := by
  refine ⟨fun s t hs h => ?_, ?_, reservation_covers_limit, fun _ _ => rfl, fun d cause hd => ⟨?_, ?_⟩⟩
  · rw [State.amountsAgree_iff] at hs ⊢
    exact List.subset_nil.mp (hs ▸ step_misbilled h)
  · exact (State.amountsAgree_iff _).mpr rfl
  · simp [hd, billAmount]
  · simp [hd, Delivery.isVoid]

/-! ### Settings of the meters (R20, R22) -/

theorem inRange_iff (lo hi n : Nat) : inRange lo hi n = true ↔ lo ≤ n ∧ n ≤ hi := by
  simp [inRange]

theorem tableInRange_iff (l : List (Nat × Nat)) :
    tableInRange l = true ↔
      l.length ≤ 5 ∧ (∀ x ∈ l, 1 ≤ x.1 ∧ x.1 ≤ 20000 ∧ 950000 ≤ x.2 ∧ x.2 ≤ 1050000) ∧
        l.Pairwise fun x y => x.1 < y.1 := by
  simp only [tableInRange, Bool.and_eq_true, decide_eq_true_eq, List.all_eq_true, risingFirst_iff, inRange_iff,
    and_assoc]

section bodies

variable {s : State} {n : Nat} {c : ChannelId}

theorem bodySetKFactor_badParam {k : Nat} (hk : inRange 100 20000 k = false) : bodySetKFactor n k s = s.badParam := by
  simp [bodySetKFactor, hk]

theorem bodySetKFactor_busy {k : Nat} (hc : channelOf n = some c) (hk : inRange 100 20000 k = true)
    (hb : (s.channel c).bound = true) : bodySetKFactor n k s = s.deny .busy := by
  simp [bodySetKFactor, hc, hk, hb]

theorem bodySetKFactor_writes {k : Nat} (hc : channelOf n = some c) (hk : inRange 100 20000 k = true)
    (hb : (s.channel c).bound = false) :
    bodySetKFactor n k s = (s.setChannel c { s.channel c with k := k, grossRem := 0 }, Reply.ok) := by
  simp [bodySetKFactor, hc, hk, hb]

variable {l : List (Nat × Nat)}

theorem bodySetLinearisation_badParam (hl : tableInRange l = false) : bodySetLinearisation n l s = s.badParam := by
  simp [bodySetLinearisation, hl]

theorem bodySetLinearisation_busy (hc : channelOf n = some c) (hl : tableInRange l = true)
    (hb : (s.channel c).bound = true) : bodySetLinearisation n l s = s.deny .busy := by
  simp [bodySetLinearisation, hc, hl, hb]

theorem bodySetLinearisation_writes (hc : channelOf n = some c) (hl : tableInRange l = true)
    (hb : (s.channel c).bound = false) :
    bodySetLinearisation n l s = (s.setChannel c { s.channel c with table := l }, Reply.ok) := by
  simp [bodySetLinearisation, hc, hl, hb]

end bodies

/-- Settles O56: the checks of R20 and R22 in their order, and what each write stores. -/
theorem meterCalibrationIsWritten : Obligations.MeterCalibrationIsWritten := by
  refine ⟨fun r s u n k c ht hu hc => ?_, fun r s u n l c ht hu hc => ?_⟩
  · subst hu
    have answers {t : State} {x : Reply} (hb : bodySetKFactor n k (s.frameReceived r.port) = (t, x)) :
        Answers (.setKFactor r n k) s r 0x40 t x := Answers.of_body (fun _ => rfl) ht hb
    refine ⟨fun hk => answers (bodySetKFactor_badParam ?_), fun h1 h2 hb => answers (bodySetKFactor_busy hc ?_ hb),
      fun h1 h2 hb => answers (bodySetKFactor_writes hc ?_ hb)⟩
    · rwa [← inRange_iff, Bool.not_eq_true] at hk
    · exact (inRange_iff ..).mpr ⟨h1, h2⟩
    · exact (inRange_iff ..).mpr ⟨h1, h2⟩
  · subst hu
    have answers {t : State} {x : Reply} (hb : bodySetLinearisation n l (s.frameReceived r.port) = (t, x)) :
        Answers (.setLinearisation r n l) s r 0x42 t x := Answers.of_body (fun _ => rfl) ht hb
    refine ⟨fun hl => answers (bodySetLinearisation_badParam ?_),
      fun hl hb => answers (bodySetLinearisation_busy hc ((tableInRange_iff l).mpr hl) hb),
      fun hl hb => answers (bodySetLinearisation_writes hc ((tableInRange_iff l).mpr hl) hb), fun _ => rfl⟩
    rwa [← tableInRange_iff, Bool.not_eq_true] at hl

end Sys2Proof.Machine

/-! SUPPORT AND CERTIFICATES. Command ports: what raising a notice, clearing the pending set, writing the mask and sending
an answer make of the port concerned and leave of the rest, and the statements on a command without its role and on the
notices of a port (R178, R183, R184). -/

namespace Sys2Proof.Machine

open Sys2Proof

section ports

variable (s : State) (o q : PortId)

/-! ### One port at a time -/

@[simp] theorem State.answer_port_same (x : Response) :
    (s.answer o x).port o = { s.port o with sending := some x } := s.setPort_port_same o _

@[simp] theorem State.answer_port_ne (x : Response) (h : q ≠ o) : (s.answer o x).port q = s.port q :=
  s.setPort_port_ne o q _ h

@[simp] theorem State.raiseOn_port_same (n : Notice) : (s.raiseOn o n).port o = (s.port o).raise n :=
  s.setPort_port_same o _

@[simp] theorem State.raiseOn_port_ne (n : Notice) (h : q ≠ o) : (s.raiseOn o n).port q = s.port q :=
  s.setPort_port_ne o q _ h

/-- A raised notice joins the pending set, and the attention line follows (R183). -/
theorem Port.raise_follows (x : Port) (n : Notice) :
    x.raise n =
      { x with
        notices := x.notices ||| n.flag
        attention := x.enable && ((x.notices ||| n.flag) &&& x.mask != 0) } := rfl

/-! ### The bodies of GET_NOTICES and SET_NOTICE_MASK (R183, R184) -/

/-- The flags of the pending set go, but for LOAD_STAGE_EMPTY, and the attention line follows (R184). -/
def Port.handedOver (x : Port) : Port :=
  { x with
    notices := x.notices &&& Notice.loadStageEmpty.flag
    attention := x.enable && (x.notices &&& Notice.loadStageEmpty.flag &&& x.mask != 0) }

theorem bodyGetNotices_eq :
    bodyGetNotices o s = (s.setPort o (s.port o).handedOver, Reply.okWith [fld 4 (s.port o).notices.toNat]) := rfl

@[simp] theorem yesNo_bit (b : Bool) : yesNo (bit b) = some b := by
  cases b <;> rfl

theorem bodySetNoticeMask_writes {mask : Nat} (on : Bool) (h : mask < 2 ^ 25) :
    bodySetNoticeMask o mask (bit on) s =
      (s.setPort o
        { s.port o with
          mask := BitVec.ofNat 25 mask, enable := on
          attention := on && ((s.port o).notices &&& BitVec.ofNat 25 mask != 0) },
        Reply.ok) := by
  simp only [bodySetNoticeMask, yesNo_bit, if_pos h]
  rfl

theorem bodySetNoticeMask_badParam {mask : Nat} (on : Bool) (h : 2 ^ 25 ≤ mask) :
    bodySetNoticeMask o mask (bit on) s = s.badParam := by
  simp only [bodySetNoticeMask, yesNo_bit, if_neg h.not_gt]

end ports

/-- Settles O5: a command row is framed, and its frame raises and answers WRONG_ROLE without its body. -/
theorem wrongRoleHasNoAction : Obligations.WrongRoleHasNoAction := by
  intro i r code a s hf ready running noRole
  obtain ⟨body, framed⟩ := exec_of_framing hf
  refine ⟨_, (framed s).trans (congrArg _ (s.framed_wrongRole r code a body ready running noRole)), ?_,
    fun o ho => ?_, rfl⟩
  · simp [Port.raise_follows]
  · simp [ho]

/-- Settles O20: what the bodies of GET_NOTICES and SET_NOTICE_MASK make of their port, in their frames. -/
theorem noticesAreReturnedAndCleared : Obligations.NoticesAreReturnedAndCleared := by
  refine ⟨fun r s u taken hu => ?_, fun r s u mask on taken hu => ⟨fun h => ?_, fun h => ?_⟩⟩
  · subst hu
    refine ⟨_, Answers.of_body (fun _ => rfl) taken (bodyGetNotices_eq _ _), ?_, fun o ho => ?_, rfl⟩
    · simp [Port.handedOver]
    · simp [ho]
  · subst hu
    refine Answers.of_body (fun _ => rfl) taken ((bodySetNoticeMask_writes _ _ on h).trans ?_)
    simp only [State.frameReceived_port_same]
  · subst hu
    exact Answers.of_body (fun _ => rfl) taken (bodySetNoticeMask_badParam _ _ on h)

end Sys2Proof.Machine

/-! SUPPORT. What every step keeps, seen on the gist of a state: the few items the invariants of Sys2Proof/Safety.lean read,
the acts that are all a row can do to them, and each invariant kept by every act. -/

namespace Sys2Proof.Machine

open Sys2Proof

section gist

/-! ### The gist of a state -/

/-- What the books hold of an open delivery (R57, R90). -/
structure DeliveryGist where
  machine : Nat
  account : Nat
  comp : CompId
  limit : Nat
  price : Nat
  reservation : Nat
  remaining : Nat

structure PointGist where
  state : PointState
  fast : Bool
  slow : Bool
  open? : Option DeliveryGist

structure CompGist where
  state : CompState
  draining : Bool
  reserved : Nat

/-- The current load entry: `held` where it holds a load context. -/
structure EntryGist where
  comp : CompId
  state : EntryState
  held : Bool

/-- What the invariants but that of the attention lines read of a state. -/
structure Gist where
  points : Pair PointGist
  pump : PumpState
  drive : Bool
  selector : Selector
  motor : Bool
  travels : Bool
  comps : Quad (Option CompGist)
  plan : PlanState
  entry : Option EntryGist
  inlets : Quad Bool
  roster : List MachineRec
  accounts : List Account
  seqs : List SeqNo
  next : SeqNo
  reserved : Nat
  power : PowerState

def Delivery.gist (d : Delivery) : DeliveryGist :=
  { machine := d.machine, account := d.account, comp := d.current.comp, limit := d.limit, price := d.price
    reservation := d.reservation, remaining := d.current.remaining }

def Point.gist (x : Point) : PointGist :=
  { state := x.state, fast := x.fastValve, slow := x.slowValve, open? := x.context.map Delivery.gist }

def Compartment.gist (x : Compartment) : CompGist :=
  { state := x.state, draining := x.draining, reserved := x.reserved }

def Entry.gist (e : Entry) : EntryGist := { comp := e.comp, state := e.state, held := e.context.isSome }

def State.gist (s : State) : Gist :=
  { points := { a := s.points.a.gist, b := s.points.b.gist }
    pump := s.pump.state, drive := s.pump.drive
    selector := s.arbiter.selector, motor := s.arbiter.motor, travels := s.arbiter.travel.isSome
    comps := s.stock.map fun x => x.map Compartment.gist
    plan := s.loader.state, entry := s.loader.current.map Entry.gist, inlets := s.loader.inlets
    roster := s.roster, accounts := s.accounts
    seqs := s.journal.records.map Record.seq, next := s.journal.next, reserved := s.journal.reserved
    power := s.power.state }

@[simp] theorem State.gist_point (s : State) (p : PointId) : s.gist.points.get p = (s.point p).gist := by
  cases p <;> rfl

@[simp] theorem State.gist_comp (s : State) (c : CompId) : s.gist.comps.get c = (s.comp c).map Compartment.gist :=
  Quad.get_map _ _ _

/-! ### Parts of a gist -/

/-- Change what is held at `c`, where something is. -/
def Quad.modify {α : Type} (x : Quad (Option α)) (c : CompId) (f : α → α) : Quad (Option α) := x.set c ((x.get c).map f)

theorem Quad.get_modify {α : Type} (x : Quad (Option α)) (c d : CompId) (f : α → α) :
    (Quad.modify x c f).get d = if d = c then (x.get c).map f else x.get d := Quad.get_set _ _ _ _

def PointGist.valvesAgree (x : PointGist) : Prop :=
  (x.fast = true ↔ x.state = .flowing .fast) ∧ (x.slow = true ↔ x.state.isFlowing = true)

/-- A figure of an open delivery that passes a test, else 0. -/
def share (test : DeliveryGist → Bool) (f : DeliveryGist → Nat) (o : Option DeliveryGist) : Nat :=
  o.elim 0 fun d => if test d then f d else 0

def Gist.sum (g : Gist) (test : DeliveryGist → Bool) (f : DeliveryGist → Nat) : Nat :=
  share test f g.points.a.open? + share test f g.points.b.open?

/-- Point `p` flows on the compartment the selector holds (R103). -/
def Gist.flowsOnHeld (g : Gist) (p : PointId) : Bool :=
  match g.selector with
  | .held c => (g.points.get p).state.isFlowing && (g.points.get p).open?.any fun d => d.comp == c
  | _ => false

/-- The run condition (R103). -/
def Gist.runs (g : Gist) : Bool := g.flowsOnHeld .a || g.flowsOnHeld .b

theorem State.flowingOnHeld_gist (s : State) (p : PointId) : s.flowingOnHeld p = s.gist.flowsOnHeld p := by
  unfold State.flowingOnHeld Gist.flowsOnHeld
  rw [State.gist_point]
  change (match s.arbiter.selector with | .held c => _ | _ => _) = match s.arbiter.selector with | .held c => _ | _ => _
  cases s.arbiter.selector with
  | held c =>
    have : s.drawsOn c p = (s.point p).gist.open?.any fun d => d.comp == c := by
      unfold State.drawsOn State.segmentComp Point.gist
      cases (s.point p).context <;> simp [Delivery.gist]
    simp only [this]
    rfl
  | _ => rfl

theorem State.runCondition_gist (s : State) : s.runCondition = s.gist.runs := by
  simp [State.runCondition, Gist.runs, State.flowingOnHeld_gist]

/-! ### The invariants of a gist -/

def Gist.ValvesAgree (g : Gist) : Prop := ∀ p, (g.points.get p).valvesAgree

def Gist.SelectorAgrees (g : Gist) : Prop :=
  (g.motor = true ↔ ∃ c, g.selector = .moving c) ∧ (g.travels = true ↔ ∃ c, g.selector = .moving c)

def Gist.driveAgrees (g : Gist) : Prop := g.drive = true ↔ (g.pump = .starting ∨ g.pump = .running)

def Gist.Quiet (g : Gist) : Prop := g.power = .inReset → (∀ p, (g.points.get p).state = .closed) ∧ g.drive = false

def Gist.InletsSafe (g : Gist) : Prop :=
  ∀ c,
    (g.selector.holds c = true → (g.comps.get c).map CompGist.state ≠ some .loading) ∧
      (g.inlets.get c = true → (g.comps.get c).map CompGist.state = some .loading)

def EntryGist.agrees (e : EntryGist) : Prop := e.held = true ↔ (e.state = .loading ∨ e.state = .settling)

/-- A compartment is LOADING or DRAINING only for the current entry (R114). -/
def Gist.loadsFor (g : Gist) (c : CompId) : Prop :=
  ((g.comps.get c).map CompGist.state = some .loading → ∃ e, g.entry = some e ∧ e.comp = c ∧ e.held = true) ∧
    ((g.comps.get c).map CompGist.draining = some true → ∃ e, g.entry = some e ∧ e.comp = c)

structure Gist.LoadsAgree (g : Gist) : Prop where
  plan : g.plan = .none → g.entry = none
  entry : ∀ e, g.entry = some e → e.agrees
  comps : ∀ c, g.loadsFor c

def rosterOrdered (l : List MachineRec) : Prop :=
  l.Pairwise (fun x y => x.number < y.number ∧ ∀ t, x.tagId = some t → y.tagId ≠ some t) ∧
    l.length ≤ Config.rosterSize

def accountsOrdered (l : List Account) : Prop := l.Pairwise fun x y => x.number < y.number

/-- The stored sequence numbers count up to the next one (R151). -/
def Gist.Contiguous (g : Gist) : Prop :=
  ∀ i q, g.seqs[i]? = some q → q = g.next - BitVec.ofNat 32 g.seqs.length + BitVec.ofNat 32 i

structure Gist.WorkAgrees (g : Gist) : Prop where
  opened : ∀ p, g.power ≠ .inReset → ((g.points.get p).open?.isSome = true ↔ (g.points.get p).state ≠ .closed)
  reset : ∀ p, g.power = .inReset → (g.points.get p).state = .closed
  plan : g.plan = .none → g.entry = none

def Gist.holders (g : Gist) : Nat :=
  bit g.points.a.open?.isSome + bit g.points.b.open?.isSome + bit g.entry.isSome

structure Gist.SlotsAgree (g : Gist) : Prop where
  work : g.WorkAgrees
  holders : g.reserved = g.holders
  bound : g.seqs.length + g.reserved ≤ Config.journalSize

def Gist.backs (g : Gist) (d : DeliveryGist) : Prop :=
  (findMachine g.roster d.machine).isSome = true ∧ (findAccount g.accounts d.account).isSome = true ∧
    (g.comps.get d.comp).isSome = true ∧ d.reservation = reservationFor d.limit d.price

structure Gist.BooksAgree (g : Gist) : Prop where
  work : g.WorkAgrees
  roster : rosterOrdered g.roster
  accounts : accountsOrdered g.accounts
  distinct : ∀ p d e, (g.points.get p).open? = some d → (g.points.get p.other).open? = some e → d.machine ≠ e.machine
  backing : ∀ p d, (g.points.get p).open? = some d → g.backs d
  machineSums : ∀ m ∈ g.roster, m.reserved = g.sum (fun d => d.machine == m.number) DeliveryGist.limit
  accountSums : ∀ a ∈ g.accounts, a.reserved = g.sum (fun d => d.account == a.number) DeliveryGist.reservation
  compSums : ∀ c x, g.comps.get c = some x → x.reserved = g.sum (fun d => d.comp == c) DeliveryGist.remaining

/-! ### The gist tells the invariants of its state -/

theorem forall_pointId {P : PointId → Prop} : (∀ p, P p) ↔ P .a ∧ P .b :=
  ⟨fun h => ⟨h .a, h .b⟩, fun h p => by cases p; exacts [h.1, h.2]⟩

theorem State.valvesAgree_gist (s : State) : s.ValvesAgree ↔ s.gist.ValvesAgree :=
  (forall_pointId (P := fun p => (s.gist.points.get p).valvesAgree)).symm

theorem State.selectorAgrees_gist (s : State) : s.SelectorAgrees ↔ s.gist.SelectorAgrees := Iff.rfl

theorem State.pumpSafe_gist (s : State) :
    s.PumpSafe ↔ s.gist.driveAgrees ∧ (s.gist.drive = true → s.gist.runs = true) ∧ s.gist.Quiet := by
  have quiet : s.ResetQuiet ↔ s.gist.Quiet := by
    unfold State.ResetQuiet Gist.Quiet
    rw [forall_pointId, and_assoc]
    rfl
  rw [State.PumpSafe, State.runCondition_gist, quiet]
  rfl

theorem State.inletsSafe_gist (s : State) : s.InletsSafe ↔ s.gist.InletsSafe := by
  have state (c : CompId) : (s.gist.comps.get c).map CompGist.state = (s.comp c).map Compartment.state := by
    rw [State.gist_comp, Option.map_map]; rfl
  simp only [State.InletsSafe, Gist.InletsSafe, state, ne_eq, Option.map_eq_some_iff, not_exists, not_and]
  rfl

theorem State.loadsAgree_gist (s : State) : s.LoadsAgree ↔ s.gist.LoadsAgree := by
  have entry (P : CompId → Bool → Prop) :
      (∃ e, s.loader.current = some e ∧ P e.comp e.context.isSome) ↔ ∃ e, s.gist.entry = some e ∧ P e.comp e.held := by
    change _ ↔ ∃ e, s.loader.current.map Entry.gist = some e ∧ _
    cases s.loader.current <;> simp [Entry.gist]
  have comps (c : CompId) :
      (∀ x, s.comp c = some x →
        (x.state = .loading → ∃ e, s.loader.current = some e ∧ e.comp = c ∧ e.context.isSome = true) ∧
          (x.draining = true → ∃ e, s.loader.current = some e ∧ e.comp = c)) ↔ s.gist.loadsFor c := by
    rw [entry (fun d h => d = c ∧ h = true), entry (fun d _ => d = c)]
    unfold Gist.loadsFor
    rw [State.gist_comp]
    cases s.comp c <;> simp [Compartment.gist]
  have agrees :
      (∀ e, s.loader.current = some e → (e.context.isSome = true ↔ (e.state = .loading ∨ e.state = .settling))) ↔
        ∀ e, s.gist.entry = some e → e.agrees := by
    change _ ↔ ∀ e, s.loader.current.map Entry.gist = some e → _
    cases s.loader.current <;> simp [Entry.gist, EntryGist.agrees]
  have plan : (s.loader.state = .none → s.loader.current = none) ↔ (s.gist.plan = .none → s.gist.entry = none) := by
    change _ ↔ (s.loader.state = .none → s.loader.current.map Entry.gist = none)
    rw [Option.map_eq_none_iff]
  unfold State.LoadsAgree
  rw [plan, agrees]
  exact ⟨fun ⟨h, k, m⟩ => ⟨h, k, fun c => (comps c).mp (m c)⟩, fun h => ⟨h.plan, h.entry, fun c => (comps c).mpr (h.comps c)⟩⟩

theorem State.rosterOrdered_gist (s : State) : s.RosterOrdered ↔ rosterOrdered s.gist.roster := Iff.rfl

theorem State.accountsOrdered_gist (s : State) : s.AccountsOrdered ↔ accountsOrdered s.gist.accounts := Iff.rfl

theorem State.contiguous_gist (s : State) : s.journal.contiguous ↔ s.gist.Contiguous := by
  simp [Journal.contiguous, Gist.Contiguous, State.gist, Journal.oldest, Journal.occupied]

theorem State.workAgrees_gist (s : State) : s.WorkAgrees ↔ s.gist.WorkAgrees := by
  have power (b : Bool) : s.inReset = b ↔ (s.gist.power == .inReset) = b := Iff.rfl
  have plan : (s.loader.state = .none → s.loader.current = none) ↔ (s.gist.plan = .none → s.gist.entry = none) := by
    change _ ↔ (s.loader.state = .none → s.loader.current.map Entry.gist = none)
    rw [Option.map_eq_none_iff]
  unfold State.WorkAgrees
  simp only [plan, power, beq_eq_false_iff_ne, beq_iff_eq]
  constructor
  · rintro ⟨h, k, m⟩
    exact ⟨fun p hp => by simpa [Point.gist] using h p hp, fun p hp => by simpa [Point.gist] using k p hp, m⟩
  · rintro ⟨h, k, m⟩
    exact ⟨fun p hp => by simpa [Point.gist] using h p hp, fun p hp => by simpa [Point.gist] using k p hp, m⟩

theorem State.slotsAgree_gist (s : State) : s.SlotsAgree ↔ s.gist.SlotsAgree := by
  have holders : s.holders = s.gist.holders := by
    simp [State.holders, Gist.holders, State.gist, Point.gist]
  have occupied : s.journal.occupied = s.gist.seqs.length := by simp [Journal.occupied, State.gist]
  unfold State.SlotsAgree
  rw [State.workAgrees_gist, holders, occupied]
  exact ⟨fun ⟨h, k, m⟩ => ⟨h, k, m⟩, fun h => ⟨h.work, h.holders, h.bound⟩⟩

theorem State.openSum_gist (s : State) (test : DeliveryGist → Bool) (f : DeliveryGist → Nat) :
    s.openSum (fun d => test d.gist) (fun d => f d.gist) = s.gist.sum test f := by
  have one (p : PointId) :
      s.figure p (fun d => test d.gist) (fun d => f d.gist) = share test f (s.point p).gist.open? := by
    unfold State.figure Point.gist share
    cases (s.point p).context <;> rfl
  unfold State.openSum Gist.sum
  rw [one, one]
  rfl

theorem State.backed_gist (s : State) (d : Delivery) : s.backed d ↔ s.gist.backs d.gist := by
  unfold State.backed Gist.backs
  rw [State.gist_comp, Option.isSome_map]
  rfl

theorem State.reserved_gist (s : State) :
    s.Reserved ↔
      (∀ m ∈ s.gist.roster, m.reserved = s.gist.sum (fun d => d.machine == m.number) DeliveryGist.limit) ∧
      (∀ a ∈ s.gist.accounts, a.reserved = s.gist.sum (fun d => d.account == a.number) DeliveryGist.reservation) ∧
      ∀ c x, s.gist.comps.get c = some x → x.reserved = s.gist.sum (fun d => d.comp == c) DeliveryGist.remaining := by
  have comps (c : CompId) (n : Nat) :
      (∀ x, s.comp c = some x → x.reserved = n) ↔ ∀ x, s.gist.comps.get c = some x → x.reserved = n := by
    rw [State.gist_comp]
    cases s.comp c <;> simp [Compartment.gist]
  simp only [← State.openSum_gist, ← comps]
  exact ⟨fun h => ⟨h.machines, h.accounts, h.comps⟩, fun ⟨h, k, m⟩ => ⟨h, k, m⟩⟩

theorem State.booksAgree_gist (s : State) : s.BooksAgree ↔ s.gist.BooksAgree := by
  have opened (p : PointId) : (s.gist.points.get p).open? = (s.point p).context.map Delivery.gist := by
    rw [State.gist_point]; rfl
  constructor
  · intro h
    obtain ⟨hm, ha, hc⟩ := s.reserved_gist.mp h.reserved
    refine ⟨s.workAgrees_gist.mp h.work, h.roster, h.accounts, ?_, ?_, hm, ha, hc⟩
    · intro p d e hd he
      rw [opened, Option.map_eq_some_iff] at hd he
      obtain ⟨x, hx, rfl⟩ := hd
      obtain ⟨y, hy, rfl⟩ := he
      cases p with
      | a => exact h.distinct x y hx hy
      | b => exact (h.distinct y x hy hx).symm
    · intro p d hd
      rw [opened, Option.map_eq_some_iff] at hd
      obtain ⟨x, hx, rfl⟩ := hd
      exact (s.backed_gist x).mp (h.backing p x hx)
  · intro h
    refine ⟨s.workAgrees_gist.mpr h.work, h.roster, h.accounts, ?_, ?_,
      s.reserved_gist.mpr ⟨h.machineSums, h.accountSums, h.compSums⟩⟩
    · intro d e hd he
      exact h.distinct .a d.gist e.gist (by rw [opened]; exact congrArg _ hd) (by rw [opened]; exact congrArg _ he)
    · intro p d hd
      exact (s.backed_gist d).mpr (h.backing p d.gist (by rw [opened, hd]; rfl))

end gist

end Sys2Proof.Machine

/-! SUPPORT AND CERTIFICATES. The acts of a step keep the agreement of outputs, loading and selector (O7 to O9). -/

namespace Sys2Proof.Machine

open Sys2Proof

section acts

/-- A change at one place that no reader `r` sees. -/
theorem Quad.modify_map {α β : Type} (x : Quad (Option α)) (c d : CompId) (r : α → β) (f : α → α)
    (hf : ∀ y, r (f y) = r y) : ((Quad.modify x c f).get d).map r = (x.get d).map r := by
  rw [Quad.get_modify]
  split
  · next e => subst e; cases x.get d <;> simp [hf]
  · rfl

/-! ### The acts -/

/-- Change the machine numbered `n` of a roster. -/
def modRoster (n : Nat) (f : MachineRec → MachineRec) (l : List MachineRec) : List MachineRec :=
  l.map fun m => if m.number = n then f m else m

/-- Change the account numbered `n`. -/
def modAccounts (n : Nat) (f : Account → Account) (l : List Account) : List Account :=
  l.map fun a => if a.number = n then f a else a

def MachineRec.hold (v : Nat) (m : MachineRec) : MachineRec := { m with reserved := v }

def Account.book (f : Nat → Nat) (a : Account) : Account := { a with reserved := f a.reserved }

def CompGist.book (f : Nat → Nat) (x : CompGist) : CompGist := { x with reserved := f x.reserved }

def CompGist.mark (draining : Bool) (x : CompGist) : CompGist := { x with draining := draining }

/-- What a receipt leaves of a compartment (R124). -/
def CompGist.fill (x : CompGist) : CompGist := { x with state := .inService, draining := false }

@[simp] theorem Quad.book_state (x : Quad (Option CompGist)) (c d : CompId) (f : Nat → Nat) :
    ((Quad.modify x c (CompGist.book f)).get d).map CompGist.state = (x.get d).map CompGist.state :=
  Quad.modify_map _ _ _ _ _ fun _ => rfl

@[simp] theorem Quad.book_draining (x : Quad (Option CompGist)) (c d : CompId) (f : Nat → Nat) :
    ((Quad.modify x c (CompGist.book f)).get d).map CompGist.draining = (x.get d).map CompGist.draining :=
  Quad.modify_map _ _ _ _ _ fun _ => rfl

@[simp] theorem Quad.mark_state (x : Quad (Option CompGist)) (c d : CompId) (b : Bool) :
    ((Quad.modify x c (CompGist.mark b)).get d).map CompGist.state = (x.get d).map CompGist.state :=
  Quad.modify_map _ _ _ _ _ fun _ => rfl

/-- What a row can do to a gist: a row is a chain of these. A condition of an act may rest on an invariant, where the row
does so. -/
inductive Gist.Act (g : Gist) : Gist → Prop
  /-- A point with an open delivery goes from an open state to an open state. -/
  | move (p : PointId) (x : PointGist) (from_open : (g.points.get p).state ≠ .closed) (to_open : x.state ≠ .closed)
      (context : x.open? = (g.points.get p).open?) (valves : (g.points.get p).valvesAgree → x.valvesAgree) :
      Act g { g with points := g.points.set p x }
  /-- The selector moves; what it comes to hold is in service. -/
  | select (x : Selector) (motor travels : Bool)
      (agrees : g.SelectorAgrees → { g with selector := x, motor := motor, travels := travels }.SelectorAgrees)
      (holds : ∀ c, x.holds c = true →
        g.selector.holds c = true ∨ ∃ y, g.comps.get c = some y ∧ y.state = .inService) :
      Act g { g with selector := x, motor := motor, travels := travels }
  /-- The pump changes its state; its drive comes on by the run condition alone. -/
  | pump (x : PumpState) (drive : Bool) (agrees : g.driveAgrees → (drive = true ↔ (x = .starting ∨ x = .running)))
      (runs : drive = true → g.drive = true ∨ g.runs = true) : Act g { g with pump := x, drive := drive }
  /-- A compartment that is not LOADING changes its state; one the selector holds is not LOADING. -/
  | serve (c : CompId) (x : CompGist) (y : CompState) (at_c : g.comps.get c = some x)
      (idle : x.state ≠ .loading ∨ g.selector.holds c = true) (stays : y ≠ .loading) :
      Act g { g with comps := g.comps.set c (some { x with state := y }) }
  | addComp (c : CompId) (none : g.comps.get c = none) :
      Act g { g with comps := g.comps.set c (some { state := .outOfService, draining := false, reserved := 0 }) }
  | dropComp (c : CompId) (x : CompGist) (at_c : g.comps.get c = some x) (out : x.state = .outOfService)
      (unused : ∀ p d, (g.points.get p).open? = some d → d.comp ≠ c) : Act g { g with comps := g.comps.set c none }
  | plan (x : PlanState) (ended : x = .none → g.entry = none) : Act g { g with plan := x }
  | forget (closed : g.plan = .none) : Act g { g with entry := none }
  /-- The current entry changes its state; inlets may close. -/
  | entry (e f : EntryGist) (inlets : Quad Bool) (current : g.entry = some e) (comp : f.comp = e.comp)
      (held : f.held = e.held) (agrees : e.agrees → f.agrees)
      (closes : ∀ c, inlets.get c = true → g.inlets.get c = true) :
      Act g { g with entry := some f, inlets := inlets }
  | startLoad (e : EntryGist) (x : CompGist) (current : g.entry = some e) (at_c : g.comps.get e.comp = some x)
      (free : g.selector.holds e.comp = false) :
      Act g
        { g with
          comps := g.comps.set e.comp (some { x with state := .loading })
          entry := some { e with state := .loading, held := true } }
  | openInlet (c : CompId) (x : CompGist) (at_c : g.comps.get c = some x) (loading : x.state = .loading) :
      Act g { g with inlets := g.inlets.set c true }
  | promote (c : CompId) (opened : g.plan ≠ .none) (none : g.entry = none)
      (room : g.seqs.length + g.reserved < Config.journalSize) :
      Act g
        { g with
          comps := Quad.modify g.comps c (CompGist.mark true)
          entry := some { comp := c, state := .due, held := false }, reserved := g.reserved + 1 }
  /-- An entry ends without a receipt: one that holds no load context. -/
  | dropEntry (e : EntryGist) (current : g.entry = some e) (bare : e.agrees → e.held = false) :
      Act g
        { g with
          comps := Quad.modify g.comps e.comp (CompGist.mark false)
          entry := none, inlets := g.inlets.set e.comp false, reserved := g.reserved - 1 }
  | receipt (e : EntryGist) (current : g.entry = some e) :
      Act g
        { g with
          comps := Quad.modify g.comps e.comp CompGist.fill
          entry := none, inlets := g.inlets.set e.comp false
          seqs := g.seqs ++ [g.next], next := g.next + 1, reserved := g.reserved - 1 }
  | store (room : g.seqs.length + g.reserved < Config.journalSize) :
      Act g { g with seqs := g.seqs ++ [g.next], next := g.next + 1 }
  | free (n : Nat) (stored : n ≤ g.seqs.length) : Act g { g with seqs := g.seqs.drop n }
  /-- Figures of the roster that no invariant reads. -/
  | roster (f : MachineRec → MachineRec)
      (keeps : ∀ m, (f m).number = m.number ∧ (f m).tagId = m.tagId ∧ (f m).reserved = m.reserved) :
      Act g { g with roster := g.roster.map f }
  | putMachine (x : MachineRec)
      (tag : ∀ t, x.tagId = some t → ∀ y ∈ g.roster, y.number ≠ x.number → y.tagId ≠ some t)
      (size : findMachine g.roster x.number = none → g.roster.length < Config.rosterSize)
      (reserved : x.reserved = (findMachine g.roster x.number).elim 0 fun m => m.reserved) :
      Act g { g with roster := putMachineRec x g.roster }
  | dropMachine (n : Nat) (unused : ∀ p d, (g.points.get p).open? = some d → d.machine ≠ n) :
      Act g { g with roster := dropMachineRec n g.roster }
  | accounts (f : Account → Account) (keeps : ∀ a, (f a).number = a.number ∧ (f a).reserved = a.reserved) :
      Act g { g with accounts := g.accounts.map f }
  | putAccount (x : Account) (reserved : x.reserved = (findAccount g.accounts x.number).elim 0 fun a => a.reserved) :
      Act g { g with accounts := putAccountRec x g.accounts }
  | openDelivery (p : PointId) (d : DeliveryGist) (closed : (g.points.get p).state = .closed)
      (power : g.power ≠ .inReset)
      (distinct : ∀ e, (g.points.get p.other).open? = some e → d.machine ≠ e.machine) (backed : g.backs d)
      (room : g.seqs.length + g.reserved < Config.journalSize) :
      Act g
        { g with
          points := g.points.set p { g.points.get p with state := .authorised, open? := some d }
          roster := modRoster d.machine (MachineRec.hold d.limit) g.roster
          accounts := modAccounts d.account (Account.book (· + d.reservation)) g.accounts
          comps := Quad.modify g.comps d.comp (CompGist.book (· + d.remaining))
          reserved := g.reserved + 1 }
  /-- A close gives the delivery's slot back, or writes its record into it. -/
  | closeDelivery (p : PointId) (d : DeliveryGist) (record : Bool) (opened : (g.points.get p).open? = some d) :
      Act g
        { g with
          points := g.points.set p { state := .closed, fast := false, slow := false, open? := none }
          roster := modRoster d.machine (MachineRec.hold 0) g.roster
          accounts := modAccounts d.account (Account.book (· - d.reservation)) g.accounts
          comps := Quad.modify g.comps d.comp (CompGist.book (· - d.remaining))
          seqs := if record then g.seqs ++ [g.next] else g.seqs
          next := if record then g.next + 1 else g.next, reserved := g.reserved - 1 }
  | lower (p : PointId) (d : DeliveryGist) (limit cut : Nat) (opened : (g.points.get p).open? = some d)
      (below : limit ≤ d.limit) (within : cut ≤ d.remaining) :
      Act g
        { g with
          points :=
            g.points.set p
              { g.points.get p with
                open? := some
                  { d with limit := limit, reservation := reservationFor limit d.price, remaining := d.remaining - cut } }
          roster := modRoster d.machine (MachineRec.hold limit) g.roster
          accounts :=
            modAccounts d.account
              (Account.book (· - (d.reservation - reservationFor limit d.price))) g.accounts
          comps := Quad.modify g.comps d.comp (CompGist.book (· - cut)) }
  | switch (p : PointId) (d : DeliveryGist) (c : CompId) (r : Nat) (opened : (g.points.get p).open? = some d)
      (at_c : (g.comps.get c).isSome = true) :
      Act g
        { g with
          points := g.points.set p { g.points.get p with open? := some { d with comp := c, remaining := r } }
          comps :=
            Quad.modify (Quad.modify g.comps d.comp (CompGist.book (· - d.remaining))) c
              (CompGist.book (· + r)) }
  | reset :
      Act g
        { g with
          points :=
            { a := { state := .closed, fast := false, slow := false, open? := g.points.a.open? }
              b := { state := .closed, fast := false, slow := false, open? := g.points.b.open? } }
          pump := .stopped, drive := false, selector := .idle none, motor := false, travels := false
          inlets := Quad.all false, power := .inReset }
  /-- The power state moves outside a reset; a reset is left with no delivery open. -/
  | power (x : PowerState) (out : x ≠ .inReset) (leaves : g.power = .inReset → ∀ p, (g.points.get p).open? = none) :
      Act g { g with power := x }

/-- A chain of acts. -/
abbrev Gist.Path : Gist → Gist → Prop := Relation.ReflTransGen Gist.Act

/-- What every act keeps, every chain keeps. -/
theorem Gist.Path.keeps {P : Gist → Prop} (act : ∀ g h, Gist.Act g h → P g → P h) {g h : Gist} (path : g.Path h)
    (hg : P g) : P h := by
  induction path with
  | refl => exact hg
  | tail _ a ih => exact act _ _ a ih

/-! ### Outputs -/

theorem Gist.Act.valvesAgree {g h : Gist} (a : g.Act h) (hg : g.ValvesAgree) : h.ValvesAgree := by
  have set (p : PointId) (x : PointGist) (hx : x.valvesAgree) (q : PointId) : ((g.points.set p x).get q).valvesAgree := by
    rw [Pair.get_set]
    split
    · exact hx
    · exact hg q
  cases a with
  | move p x _ _ _ valves => exact set p x (valves (hg p))
  | openDelivery p d closed =>
    refine set p _ ?_
    have k := hg p
    simp only [PointGist.valvesAgree, closed, PointState.isFlowing, reduceCtorEq, iff_false] at k ⊢
    exact k
  | closeDelivery p => exact set p _ ⟨by simp, by simp [PointState.isFlowing]⟩
  | lower p => exact set p _ (hg p)
  | switch p => exact set p _ (hg p)
  | reset => intro p; cases p <;> exact ⟨by simp [Pair.get], by simp [Pair.get, PointState.isFlowing]⟩
  | _ => exact hg

theorem Gist.Act.selectorAgrees {g h : Gist} (a : g.Act h) (hg : g.SelectorAgrees) : h.SelectorAgrees := by
  cases a with
  | select x motor travels agrees => exact agrees hg
  | reset => exact ⟨by simp, by simp⟩
  | _ => exact hg

/-- The drive agrees with the pump's state, and in reset nothing flows. -/
def Gist.PumpCalm (g : Gist) : Prop := g.driveAgrees ∧ g.Quiet

theorem Gist.Quiet.runs {g : Gist} (h : g.Quiet) (hp : g.power = .inReset) : g.runs = false := by
  have still (p : PointId) : g.flowsOnHeld p = false := by
    unfold Gist.flowsOnHeld
    rw [(h hp).1 p]
    split <;> rfl
  simp [Gist.runs, still]

theorem Gist.Act.pumpCalm {g h : Gist} (a : g.Act h) (hg : g.PumpCalm) : h.PumpCalm := by
  obtain ⟨drive, quiet⟩ := hg
  have set (p : PointId) (x : PointGist) (hx : g.power = .inReset → x.state = .closed) (hp : g.power = .inReset) :
      (∀ q, ((g.points.set p x).get q).state = .closed) ∧ g.drive = false := by
    refine ⟨fun q => ?_, (quiet hp).2⟩
    rw [Pair.get_set]
    split
    · exact hx hp
    · exact (quiet hp).1 q
  cases a with
  | move p x from_open => exact ⟨drive, set p x fun hp => absurd ((quiet hp).1 p) from_open⟩
  | pump x on agrees runs =>
    refine ⟨agrees drive, fun hp => ⟨(quiet hp).1, ?_⟩⟩
    rw [← Bool.not_eq_true]
    intro k
    rcases runs k with r | r
    · exact absurd ((quiet hp).2 ▸ r) (by decide)
    · exact absurd (quiet.runs hp ▸ r) (by decide)
  | openDelivery p d _ power => exact ⟨drive, set p _ fun hp => absurd hp power⟩
  | closeDelivery p => exact ⟨drive, set p _ fun _ => rfl⟩
  | lower p => exact ⟨drive, set p _ fun hp => (quiet hp).1 p⟩
  | switch p => exact ⟨drive, set p _ fun hp => (quiet hp).1 p⟩
  | reset => exact ⟨by simp [Gist.driveAgrees], fun _ => ⟨fun p => by cases p <;> rfl, rfl⟩⟩
  | power x out => exact ⟨drive, fun hp => absurd hp out⟩
  | _ => exact ⟨drive, quiet⟩

/-! ### Loading -/

/-- The states of the compartments as they were, and no inlet open that was not: what holds and fills stays as safe. -/
theorem Gist.InletsSafe.of_states {g h : Gist} (hg : g.InletsSafe) (selector : h.selector = g.selector)
    (states : ∀ c, (h.comps.get c).map CompGist.state = (g.comps.get c).map CompGist.state)
    (inlets : ∀ c, h.inlets.get c = true → g.inlets.get c = true) : h.InletsSafe := by
  intro c
  rw [states, selector]
  exact ⟨(hg c).1, fun k => (hg c).2 (inlets c k)⟩

/-- One compartment with its inlet closed may hold any state but LOADING. -/
theorem Gist.InletsSafe.of_put {g h : Gist} (hg : g.InletsSafe) (selector : h.selector = g.selector) (c : CompId)
    (y : Option CompGist) (comps : h.comps = g.comps.set c y) (idle : y.map CompGist.state ≠ some .loading)
    (shut : h.inlets.get c = false) (inlets : ∀ d, d ≠ c → h.inlets.get d = g.inlets.get d) : h.InletsSafe := by
  intro d
  rw [comps, selector, Quad.get_set]
  split
  · next e => subst e; exact ⟨fun _ => idle, fun k => absurd (shut ▸ k) (by decide)⟩
  · next e => rw [inlets d e]; exact hg d

theorem Gist.InletsSafe.shut {g : Gist} (hg : g.InletsSafe) {c : CompId}
    (hc : (g.comps.get c).map CompGist.state ≠ some .loading) : g.inlets.get c = false := by
  rw [← Bool.not_eq_true]
  exact fun k => hc ((hg c).2 k)

theorem Gist.Act.inletsSafe {g h : Gist} (a : g.Act h) (hg : g.InletsSafe) : h.InletsSafe := by
  cases a with
  | select x motor travels _ holds =>
    refine fun c => ⟨fun k => ?_, (hg c).2⟩
    rcases holds c k with old | ⟨y, hy, hs⟩
    · exact (hg c).1 old
    · simp [hy, hs]
  | serve c x y at_c idle stays =>
    refine hg.of_put rfl c _ rfl (by simpa using stays) (hg.shut ?_) fun _ _ => rfl
    rcases idle with k | k
    · simpa [at_c] using k
    · exact (hg c).1 k
  | addComp c none => exact hg.of_put rfl c _ rfl (by simp) (hg.shut (by simp [none])) fun _ _ => rfl
  | dropComp c x at_c out => exact hg.of_put rfl c _ rfl (by simp) (hg.shut (by simp [at_c, out])) fun _ _ => rfl
  | entry e f inlets _ _ _ _ closes => exact hg.of_states rfl (fun _ => rfl) closes
  | startLoad e x _ at_c free =>
    intro c
    simp only [Quad.get_set]
    split
    · next k => subst k; exact ⟨fun m => absurd (free ▸ m) (by decide), fun _ => rfl⟩
    · exact hg c
  | openInlet c x at_c loading =>
    intro d
    simp only [Quad.get_set]
    refine ⟨(hg d).1, ?_⟩
    split
    · next k => subst k; exact fun _ => by simp [at_c, loading]
    · exact (hg d).2
  | promote c => exact hg.of_states rfl (fun d => by simp) fun _ k => k
  | dropEntry e =>
    refine hg.of_states rfl (fun d => by simp) fun d => ?_
    rw [Quad.get_set]
    split
    · intro k; exact absurd k (by decide)
    · exact id
  | receipt e =>
    refine hg.of_put rfl e.comp _ rfl ?_ (by simp) fun d hd => by simp [hd]
    cases g.comps.get e.comp <;> simp [CompGist.fill]
  | openDelivery p d => exact hg.of_states rfl (fun d => by simp) fun _ k => k
  | closeDelivery p d => exact hg.of_states rfl (fun d => by simp) fun _ k => k
  | lower p d => exact hg.of_states rfl (fun d => by simp) fun _ k => k
  | switch p d c r => exact hg.of_states rfl (fun d => by simp) fun _ k => k
  | reset => exact fun c => ⟨by simp [Selector.holds], by cases c <;> simp [Quad.get, Quad.all]⟩
  | _ => exact hg

/-- The compartments' states and marks as they were, and the entry as LOADING and DRAINING compartments want it. -/
theorem Gist.LoadsAgree.of_marks {g h : Gist} (hg : g.LoadsAgree)
    (states : ∀ c, (h.comps.get c).map CompGist.state = some .loading → (g.comps.get c).map CompGist.state = some .loading)
    (marks : ∀ c, (h.comps.get c).map CompGist.draining = some true → (g.comps.get c).map CompGist.draining = some true)
    (plan : h.plan = g.plan) (entry : h.entry = g.entry) : h.LoadsAgree := by
  refine ⟨by rw [plan, entry]; exact hg.plan, by rw [entry]; exact hg.entry, fun c => ?_⟩
  obtain ⟨loading, draining⟩ := hg.comps c
  unfold Gist.loadsFor
  rw [entry]
  exact ⟨fun k => loading (states c k), fun k => draining (marks c k)⟩

/-- Without a load context nothing is LOADING. -/
theorem Gist.LoadsAgree.idle {g : Gist} (hg : g.LoadsAgree) (bare : ∀ e, g.entry = some e → e.held = false) (c : CompId) :
    (g.comps.get c).map CompGist.state ≠ some .loading := by
  intro k
  obtain ⟨e, he, -, held⟩ := (hg.comps c).1 k
  exact absurd (bare e he ▸ held) (by decide)

/-- With no current entry nothing is DRAINING. -/
theorem Gist.LoadsAgree.undrained {g : Gist} (hg : g.LoadsAgree) (c : CompId)
    (other : ∀ e, g.entry = some e → e.comp ≠ c) : (g.comps.get c).map CompGist.draining ≠ some true := by
  intro k
  obtain ⟨e, he, hc⟩ := (hg.comps c).2 k
  exact other e he hc

theorem Gist.Act.loadsAgree {g h : Gist} (a : g.Act h) (hg : g.LoadsAgree) : h.LoadsAgree := by
  -- The books of a compartment are neither its state nor its DRAINING mark.
  have books {h : Gist} (c : CompId) (f : Nat → Nat) (comps : h.comps = Quad.modify g.comps c (CompGist.book f))
      (plan : h.plan = g.plan) (entry : h.entry = g.entry) : h.LoadsAgree :=
    hg.of_marks (fun d k => by simpa [comps] using k) (fun d k => by simpa [comps] using k) plan entry
  have put (c : CompId) (y : Option CompGist) (state : y.map CompGist.state ≠ some .loading)
      (mark : y.map CompGist.draining = some true → (g.comps.get c).map CompGist.draining = some true) :
      { g with comps := g.comps.set c y }.LoadsAgree := by
    refine hg.of_marks (fun d => ?_) (fun d => ?_) rfl rfl
    · simp only [Quad.get_set]
      split
      · exact fun k => absurd k state
      · exact id
    · simp only [Quad.get_set]
      split
      · next e => subst e; exact mark
      · exact id
  -- An entry has ended: nothing is LOADING but what it filled, nothing DRAINING but its compartment.
  have ended {h : Gist} (e : EntryGist) (f : CompGist → CompGist) (current : g.entry = some e) (gone : h.entry = none)
      (comps : h.comps = Quad.modify g.comps e.comp f) (state : ((g.comps.get e.comp).map f).map CompGist.state ≠ some .loading)
      (mark : ∀ x, (f x).draining = false) : h.LoadsAgree := by
    refine ⟨fun _ => gone, by simp [gone], fun d => ?_⟩
    unfold Gist.loadsFor
    rw [comps, Quad.get_modify]
    split
    · next hd =>
      refine ⟨fun k => absurd k state, fun k => ?_⟩
      simp [Option.map_map, Function.comp_def, mark] at k
    · next hd =>
      refine ⟨fun k => ?_, fun k => absurd k (hg.undrained d ?_)⟩
      · obtain ⟨f, hf, hc, -⟩ := (hg.comps d).1 k
        rw [current] at hf
        cases hf
        exact absurd hc.symm hd
      · rw [current]
        rintro f ⟨⟩
        exact fun k => hd k.symm
  cases a with
  | serve c x y at_c idle stays => exact put c _ (by simpa using stays) (by simp [at_c])
  | addComp c none => exact put c _ (by simp) (by simp)
  | dropComp c => exact put c _ (by simp) (by simp)
  | plan x ended => exact ⟨ended, hg.entry, hg.comps⟩
  | forget closed =>
    have e : g.entry = .none := hg.plan closed
    have : { g with entry := .none } = g := by rw [← e]
    rwa [this]
  | entry e f inlets current comp held agrees =>
    refine ⟨fun k => absurd (hg.plan k) (by simp [current]), ?_, fun c => ?_⟩
    · rintro _ ⟨⟩
      exact agrees (hg.entry e current)
    · obtain ⟨loading, draining⟩ := hg.comps c
      simp only [current, Option.some.injEq, exists_eq_left'] at loading draining
      simpa only [Gist.loadsFor, Option.some.injEq, exists_eq_left', comp, held] using ⟨loading, draining⟩
  | startLoad e x current at_c =>
    refine ⟨fun k => absurd (hg.plan k) (by simp [current]), ?_, fun c => ?_⟩
    · rintro _ ⟨⟩
      simp [EntryGist.agrees]
    · obtain ⟨loading, draining⟩ := hg.comps c
      simp only [current, Option.some.injEq, exists_eq_left'] at loading draining
      simp only [Gist.loadsFor, Option.some.injEq, exists_eq_left', Quad.get_set]
      split
      · next k => subst k; simp
      · exact ⟨fun k => ⟨(loading k).1, trivial⟩, draining⟩
  | promote c opened none =>
    refine ⟨fun k => absurd k opened, ?_, fun d => ?_⟩
    · rintro _ ⟨⟩
      simp [EntryGist.agrees]
    · simp only [Gist.loadsFor, Option.some.injEq, exists_eq_left']
      constructor
      · rw [Quad.mark_state]
        exact fun k => absurd k (hg.idle (by simp [none]) d)
      · rw [Quad.get_modify]
        split
        · next k => exact fun _ => k.symm
        · exact fun k => absurd k (hg.undrained d (by simp [none]))
  | dropEntry e current bare =>
    refine ended e _ current rfl rfl ?_ fun _ => rfl
    rw [Option.map_map]
    refine hg.idle (fun f hf => ?_) _
    rw [current] at hf
    cases hf
    exact bare (hg.entry e current)
  | receipt e current =>
    refine ended e _ current rfl rfl ?_ fun _ => rfl
    cases g.comps.get e.comp <;> simp [CompGist.fill]
  | openDelivery p d => exact books d.comp _ rfl rfl rfl
  | closeDelivery p d => exact books d.comp _ rfl rfl rfl
  | lower p d => exact books d.comp _ rfl rfl rfl
  | switch p d c r => exact hg.of_marks (fun d k => by simpa using k) (fun d k => by simpa using k) rfl rfl
  | _ => exact ⟨hg.plan, hg.entry, hg.comps⟩

end acts

end Sys2Proof.Machine

/-! SUPPORT AND CERTIFICATES. The acts of a step keep the tables and the journal in order (O11, O12). -/

namespace Sys2Proof.Machine

open Sys2Proof

section tables

/-! ### Tables and journal -/

theorem findMachine_none {l : List MachineRec} {n : Nat} : findMachine l n = none ↔ ∀ m ∈ l, m.number ≠ n := by
  simp [findMachine]

theorem findAccount_none {l : List Account} {n : Nat} : findAccount l n = none ↔ ∀ a ∈ l, a.number ≠ n := by
  simp [findAccount]

/-- Write a record to a table in the order of its keys, in the place of the one with its key (R27, R46). -/
def putBy {α : Type} (key : α → Nat) (x : α) : List α → List α
  | [] => [x]
  | m :: rest =>
    if key x < key m then x :: m :: rest else if key x = key m then x :: rest else m :: putBy key x rest

theorem putMachineRec_eq (x : MachineRec) (l : List MachineRec) : putMachineRec x l = putBy MachineRec.number x l := by
  induction l with
  | nil => rfl
  | cons m rest ih => simp only [putMachineRec, putBy, ih]

theorem putAccountRec_eq (x : Account) (l : List Account) : putAccountRec x l = putBy Account.number x l := by
  induction l with
  | nil => rfl
  | cons a rest ih => simp only [putAccountRec, putBy, ih]

/-- A record written to an ascending table is the one with its key; the others stay. -/
theorem mem_putBy {α : Type} {key : α → Nat} {x y : α} {l : List α} (hl : l.Pairwise fun a b => key a < key b) :
    y ∈ putBy key x l ↔ y = x ∨ (y ∈ l ∧ key y ≠ key x) := by
  induction l with
  | nil => simp [putBy]
  | cons m rest ih =>
    obtain ⟨first, tail⟩ := List.pairwise_cons.mp hl
    have above (k : key x ≤ key m) (hy : y ∈ rest) : key y ≠ key x := by
      have := first y hy; omega
    simp only [putBy]
    split
    · next k =>
      have : y = m ∨ y ∈ rest → key y ≠ key x := by
        rintro (rfl | hy)
        · omega
        · exact above k.le hy
      simp only [List.mem_cons]
      tauto
    · split
      · next k =>
        have head : y = m → key y = key x := by rintro rfl; exact k.symm
        have tail : y ∈ rest → key y ≠ key x := above k.le
        simp only [List.mem_cons]
        tauto
      · next k =>
        have head : y = m → key y ≠ key x := by rintro rfl; exact fun e => k e.symm
        simp only [List.mem_cons, ih tail]
        tauto

theorem length_putBy {α : Type} {key : α → Nat} (x : α) {l : List α} (hl : l.Pairwise fun a b => key a < key b) :
    (putBy key x l).length = if ∀ m ∈ l, key m ≠ key x then l.length + 1 else l.length := by
  induction l with
  | nil => rfl
  | cons m rest ih =>
    obtain ⟨first, tail⟩ := List.pairwise_cons.mp hl
    simp only [putBy]
    split
    · next k =>
      rw [if_pos]
      · rfl
      · intro y hy
        rcases List.mem_cons.mp hy with rfl | hy
        · omega
        · have := first y hy; omega
    · split
      · next k =>
        rw [if_neg fun none => none m List.mem_cons_self k.symm]
        rfl
      · next k =>
        have : (∀ y ∈ m :: rest, key y ≠ key x) ↔ ∀ y ∈ rest, key y ≠ key x := by
          simp [Ne.symm k]
        simp only [List.length_cons, ih tail, this]
        split <;> rfl

/-- A record that stands in order with those below and above its key keeps the table's order. -/
theorem pairwise_putBy {α : Type} {key : α → Nat} {x : α} {l : List α} {R : α → α → Prop}
    (order : ∀ a b, R a b → key a < key b) (below : ∀ y ∈ l, key y < key x → R y x)
    (above : ∀ y ∈ l, key x < key y → R x y) (hl : l.Pairwise R) : (putBy key x l).Pairwise R := by
  induction l with
  | nil => simp [putBy]
  | cons m rest ih =>
    obtain ⟨first, tail⟩ := List.pairwise_cons.mp hl
    have rising : rest.Pairwise fun a b => key a < key b := tail.imp (order _ _)
    have beyond (k : key x ≤ key m) : ∀ y ∈ rest, R x y := fun y hy =>
      above y (List.mem_cons_of_mem _ hy) (k.trans_lt (order _ _ (first y hy)))
    simp only [putBy]
    split
    · next k =>
      refine List.pairwise_cons.mpr ⟨fun y hy => ?_, hl⟩
      rcases List.mem_cons.mp hy with rfl | hy
      · exact above _ List.mem_cons_self k
      · exact beyond k.le y hy
    · split
      · next k => exact List.pairwise_cons.mpr ⟨beyond k.le, tail⟩
      · next k =>
        refine List.pairwise_cons.mpr ⟨fun y hy => ?_, ih (fun y hy => below y (List.mem_cons_of_mem _ hy))
          (fun y hy => above y (List.mem_cons_of_mem _ hy)) tail⟩
        rcases (mem_putBy rising).mp hy with rfl | ⟨hy, -⟩
        · exact below m List.mem_cons_self (by omega)
        · exact first y hy

theorem rosterOrdered.rising {l : List MachineRec} (h : rosterOrdered l) : l.Pairwise fun x y => x.number < y.number :=
  h.1.imp And.left

theorem rosterOrdered.map {l : List MachineRec} (h : rosterOrdered l) {f : MachineRec → MachineRec}
    (hf : ∀ m, (f m).number = m.number ∧ (f m).tagId = m.tagId) : rosterOrdered (l.map f) := by
  refine ⟨?_, by simpa using h.2⟩
  rw [List.pairwise_map]
  simpa only [hf] using h.1

theorem rosterOrdered.put {l : List MachineRec} (h : rosterOrdered l) {x : MachineRec}
    (tag : ∀ t, x.tagId = some t → ∀ y ∈ l, y.number ≠ x.number → y.tagId ≠ some t)
    (size : findMachine l x.number = none → l.length < Config.rosterSize) : rosterOrdered (putMachineRec x l) := by
  rw [putMachineRec_eq]
  refine ⟨pairwise_putBy (fun _ _ r => r.1) (fun y hy k => ⟨k, fun t ht e => tag t e y hy (by omega) ht⟩)
    (fun y hy k => ⟨k, fun t ht => tag t ht y hy (by omega)⟩) h.1, ?_⟩
  rw [length_putBy x h.rising]
  split
  · next k => exact size (findMachine_none.mpr k)
  · exact h.2

theorem rosterOrdered.drop {l : List MachineRec} (h : rosterOrdered l) (n : Nat) : rosterOrdered (dropMachineRec n l) :=
  ⟨h.1.filter _, (List.length_filter_le _ _).trans h.2⟩

theorem modRoster_hold (n v : Nat) (m : MachineRec) :
    (if m.number = n then m.hold v else m).number = m.number ∧ (if m.number = n then m.hold v else m).tagId = m.tagId := by
  split <;> exact ⟨rfl, rfl⟩

theorem modAccounts_book (n : Nat) (f : Nat → Nat) (a : Account) :
    (if a.number = n then a.book f else a).number = a.number := by
  split <;> rfl

theorem Gist.Act.rosterOrdered {g h : Gist} (a : g.Act h) (hg : rosterOrdered g.roster) : rosterOrdered h.roster := by
  cases a with
  | roster f keeps => exact hg.map fun m => ⟨(keeps m).1, (keeps m).2.1⟩
  | putMachine x tag size => exact hg.put tag size
  | dropMachine n => exact hg.drop n
  | openDelivery p d => exact hg.map (modRoster_hold _ _)
  | closeDelivery p d => exact hg.map (modRoster_hold _ _)
  | lower p d => exact hg.map (modRoster_hold _ _)
  | _ => exact hg

theorem accountsOrdered.map {l : List Account} (h : accountsOrdered l) {f : Account → Account}
    (hf : ∀ a, (f a).number = a.number) : accountsOrdered (l.map f) := by
  unfold accountsOrdered
  rw [List.pairwise_map]
  simp only [hf]
  exact h

theorem accountsOrdered.put {l : List Account} (h : accountsOrdered l) (x : Account) :
    accountsOrdered (putAccountRec x l) := by
  rw [putAccountRec_eq]
  exact pairwise_putBy (fun _ _ r => r) (fun _ _ k => k) (fun _ _ k => k) h

theorem Gist.Act.accountsOrdered {g h : Gist} (a : g.Act h) (hg : accountsOrdered g.accounts) :
    accountsOrdered h.accounts := by
  cases a with
  | accounts f keeps => exact hg.map fun a => (keeps a).1
  | putAccount x => exact hg.put x
  | openDelivery p d => exact hg.map (modAccounts_book _ _)
  | closeDelivery p d => exact hg.map (modAccounts_book _ _)
  | lower p d => exact hg.map (modAccounts_book _ _)
  | _ => exact hg

/-- The next number follows a contiguous row of numbers (R151). -/
theorem Gist.Contiguous.append {g h : Gist} (hg : g.Contiguous) (seqs : h.seqs = g.seqs ++ [g.next])
    (next : h.next = g.next + 1) : h.Contiguous := by
  intro i q hq
  rw [seqs, List.getElem?_append] at hq
  have base : h.next - BitVec.ofNat 32 h.seqs.length = g.next - BitVec.ofNat 32 g.seqs.length := by
    rw [next, seqs, List.length_append, List.length_singleton, BitVec.ofNat_add]
    exact add_sub_add_right_eq_sub g.next _ 1
  rw [base]
  split at hq
  · exact hg i q hq
  · next k =>
    obtain ⟨hi, rfl⟩ : i = g.seqs.length ∧ g.next = q := by
      rcases Nat.lt_or_ge (i - g.seqs.length) 1 with one | more
      · refine ⟨by omega, ?_⟩
        have : i - g.seqs.length = 0 := by omega
        simpa [this] using hq
      · rw [List.getElem?_eq_none (by simpa using more)] at hq
        cases hq
    rw [hi, sub_add_cancel]

theorem Gist.Act.contiguous {g h : Gist} (a : g.Act h) (hg : g.Contiguous) : h.Contiguous := by
  cases a with
  | receipt e => exact hg.append rfl rfl
  | store => exact hg.append rfl rfl
  | closeDelivery p d record =>
    cases record with
    | true => exact hg.append rfl rfl
    | false => exact hg
  | free n stored =>
    intro i q hq
    rw [hg (n + i) q (by simpa using hq)]
    simp only [List.length_drop]
    have split : g.seqs.length = (g.seqs.length - n) + n := by omega
    rw [show BitVec.ofNat 32 g.seqs.length = BitVec.ofNat 32 (g.seqs.length - n) + BitVec.ofNat 32 n by
      rw [← BitVec.ofNat_add, ← split], BitVec.ofNat_add]
    ring
  | _ => exact hg

end tables

end Sys2Proof.Machine

/-! SUPPORT AND CERTIFICATES. The acts of a step keep slots and reservations with the open work (O13, O14). -/

namespace Sys2Proof.Machine

open Sys2Proof

section books

/-! ### Open work and its slots -/

/-- A point that is CLOSED exactly without a delivery, and CLOSED in reset, may stand in any gist whose work agrees. -/
theorem Gist.WorkAgrees.of_point {g h : Gist} (hg : g.WorkAgrees) (p : PointId) (x : PointGist)
    (points : h.points = g.points.set p x) (power : h.power = g.power) (plan : h.plan = g.plan)
    (entry : h.entry = g.entry) (opened : g.power ≠ .inReset → (x.open?.isSome = true ↔ x.state ≠ .closed))
    (reset : g.power = .inReset → x.state = .closed) : h.WorkAgrees := by
  refine ⟨fun q hq => ?_, fun q hq => ?_, by rw [plan, entry]; exact hg.plan⟩
  · rw [power] at hq
    rw [points, Pair.get_set]
    split
    · exact opened hq
    · exact hg.opened q hq
  · rw [power] at hq
    rw [points, Pair.get_set]
    split
    · exact reset hq
    · exact hg.reset q hq

theorem Gist.Act.workAgrees {g h : Gist} (a : g.Act h) (hg : g.WorkAgrees) : h.WorkAgrees := by
  cases a with
  | move p x from_open to_open context =>
    refine hg.of_point p x rfl rfl rfl rfl (fun k => ?_) fun k => absurd (hg.reset p k) from_open
    rw [context]
    exact ⟨fun _ => to_open, fun _ => (hg.opened p k).mpr from_open⟩
  | plan x ended => exact ⟨hg.opened, hg.reset, ended⟩
  | forget => exact ⟨hg.opened, hg.reset, fun _ => rfl⟩
  | entry e f inlets current => exact ⟨hg.opened, hg.reset, fun k => absurd (hg.plan k) (by simp [current])⟩
  | startLoad e x current => exact ⟨hg.opened, hg.reset, fun k => absurd (hg.plan k) (by simp [current])⟩
  | promote c opened => exact ⟨hg.opened, hg.reset, fun k => absurd k opened⟩
  | dropEntry => exact ⟨hg.opened, hg.reset, fun _ => rfl⟩
  | receipt => exact ⟨hg.opened, hg.reset, fun _ => rfl⟩
  | openDelivery p d _ power => exact hg.of_point p _ rfl rfl rfl rfl (by simp) fun k => absurd k power
  | closeDelivery p d => exact hg.of_point p _ rfl rfl rfl rfl (by simp) fun _ => rfl
  | lower p d _ _ opened =>
    refine hg.of_point p _ rfl rfl rfl rfl (fun k => ?_) fun k => hg.reset p k
    have := hg.opened p k
    rw [opened] at this
    exact this
  | switch p d _ _ opened =>
    refine hg.of_point p _ rfl rfl rfl rfl (fun k => ?_) fun k => hg.reset p k
    have := hg.opened p k
    rw [opened] at this
    exact this
  | reset => exact ⟨fun p k => absurd rfl k, fun p _ => by cases p <;> rfl, hg.plan⟩
  | power x out leaves =>
    refine ⟨fun p _ => ?_, fun p k => absurd k out, hg.plan⟩
    by_cases k : g.power = .inReset
    · simp only [leaves k p, hg.reset p k]
      decide
    · exact hg.opened p k
  | _ => exact ⟨hg.opened, hg.reset, hg.plan⟩

/-- Out of reset a CLOSED point has no open delivery. -/
theorem Gist.WorkAgrees.none_of_closed {g : Gist} (hg : g.WorkAgrees) {p : PointId}
    (closed : (g.points.get p).state = .closed) (power : g.power ≠ .inReset) : (g.points.get p).open? = none := by
  rw [← Option.not_isSome_iff_eq_none, hg.opened p power, not_not]
  exact closed

/-- The holders of journal slots at one point and elsewhere. -/
theorem Gist.holders_eq (g : Gist) (p : PointId) :
    g.holders = bit (g.points.get p).open?.isSome + bit (g.points.get p.other).open?.isSome + bit g.entry.isSome := by
  cases p
  · rfl
  · simp only [Gist.holders, Pair.get, PointId.other]; omega

/-- A point with a delivery where there was one, or none where there was none, holds its slot as before. -/
theorem Gist.holders_same {g h : Gist} (p : PointId) (x : PointGist) (points : h.points = g.points.set p x)
    (entry : h.entry.isSome = g.entry.isSome) (same : x.open?.isSome = (g.points.get p).open?.isSome) :
    h.holders = g.holders := by
  rw [h.holders_eq p, g.holders_eq p, points, entry]
  simp [same]

theorem bit_true : bit true = 1 := rfl

theorem bit_false : bit false = 0 := rfl

theorem Gist.Act.slotsAgree {g h : Gist} (a : g.Act h) (hg : g.SlotsAgree) : h.SlotsAgree := by
  have work := a.workAgrees hg.work
  obtain ⟨was, held, bound⟩ := hg
  cases a with
  | move p x _ _ context =>
    exact ⟨work, held.trans (Eq.symm (Gist.holders_same p x rfl rfl (by rw [context]))), bound⟩
  | forget closed =>
    refine ⟨work, held.trans ?_, bound⟩
    have : g.entry = none := was.plan closed
    simp [Gist.holders, this]
  | entry e f inlets current =>
    refine ⟨work, held.trans ?_, bound⟩
    simp [Gist.holders, current]
  | startLoad e x current =>
    refine ⟨work, held.trans ?_, bound⟩
    simp [Gist.holders, current]
  | promote c _ none room =>
    refine ⟨work, ?_, ?_⟩
    · simp [Gist.holders, held, none, bit_true, bit_false]
    · dsimp only; omega
  | dropEntry e current =>
    have one : g.holders = bit g.points.a.open?.isSome + bit g.points.b.open?.isSome + 1 := by
      simp [Gist.holders, current, bit_true]
    refine ⟨work, ?_, ?_⟩
    · change g.reserved - 1 = bit g.points.a.open?.isSome + bit g.points.b.open?.isSome + 0
      omega
    · dsimp only; omega
  | receipt e current =>
    have one : g.holders = bit g.points.a.open?.isSome + bit g.points.b.open?.isSome + 1 := by
      simp [Gist.holders, current, bit_true]
    refine ⟨work, ?_, ?_⟩
    · change g.reserved - 1 = bit g.points.a.open?.isSome + bit g.points.b.open?.isSome + 0
      omega
    · simp only [List.length_append, List.length_singleton]; omega
  | store room => exact ⟨work, held, by simp only [List.length_append, List.length_singleton]; omega⟩
  | free n => exact ⟨work, held, by simp only [List.length_drop]; omega⟩
  | openDelivery p d closed power _ _ room =>
    have none := was.none_of_closed closed power
    refine ⟨work, ?_, by dsimp only; omega⟩
    rw [Gist.holders_eq _ p]
    simp only [Pair.get_set_same, Option.isSome_some, ne_eq, PointId.other_ne, not_false_eq_true, Pair.get_set_ne]
    rw [held, g.holders_eq p, none]
    simp only [Option.isSome_none, bit_true, bit_false]; omega
  | closeDelivery p d record opened =>
    have one : g.holders = 1 + bit (g.points.get p.other).open?.isSome + bit g.entry.isSome := by
      rw [g.holders_eq p, opened]; rfl
    refine ⟨work, ?_, ?_⟩
    · rw [Gist.holders_eq _ p]
      simp only [Pair.get_set_same, Option.isSome_none, ne_eq, PointId.other_ne, not_false_eq_true, Pair.get_set_ne,
        bit_false]
      omega
    · cases record with
      | true => simp only [if_true, List.length_append, List.length_singleton]; omega
      | false => simp only [Bool.false_eq_true, if_false]; omega
  | lower p d _ _ opened =>
    exact ⟨work, held.trans (Eq.symm (Gist.holders_same p _ rfl rfl (by simp [opened]))), bound⟩
  | switch p d _ _ opened =>
    exact ⟨work, held.trans (Eq.symm (Gist.holders_same p _ rfl rfl (by simp [opened]))), bound⟩
  | _ => exact ⟨work, held, bound⟩

/-! ### Reservations -/

theorem Gist.sum_eq (g : Gist) (p : PointId) (test : DeliveryGist → Bool) (f : DeliveryGist → Nat) :
    g.sum test f = share test f (g.points.get p).open? + share test f (g.points.get p.other).open? := by
  cases p
  · rfl
  · exact Nat.add_comm _ _

theorem Gist.sum_set {g h : Gist} {p : PointId} {x : PointGist} (points : h.points = g.points.set p x)
    (test : DeliveryGist → Bool) (f : DeliveryGist → Nat) :
    h.sum test f = share test f x.open? + share test f (g.points.get p.other).open? := by
  rw [h.sum_eq p, points]
  simp

theorem share_none (test : DeliveryGist → Bool) (f : DeliveryGist → Nat) : share test f none = 0 := rfl

theorem share_some (test : DeliveryGist → Bool) (f : DeliveryGist → Nat) (d : DeliveryGist) :
    share test f (some d) = if test d then f d else 0 := rfl

/-- The machine of one point's delivery has none at the other. -/
theorem share_other_machine {o : Option DeliveryGist} {n : Nat} (h : ∀ e, o = some e → n ≠ e.machine)
    (f : DeliveryGist → Nat) : share (fun d => d.machine == n) f o = 0 := by
  cases o with
  | none => rfl
  | some e => simp [share_some, (h e rfl).symm]

theorem findMachine_modRoster (n v k : Nat) (l : List MachineRec) :
    (findMachine (modRoster n (MachineRec.hold v) l) k).isSome = (findMachine l k).isSome := by
  rw [modRoster, findMachine_map _ _ fun m => (modRoster_hold n v m).1, Option.isSome_map]

theorem findAccount_modAccounts (n k : Nat) (f : Nat → Nat) (l : List Account) :
    (findAccount (modAccounts n (Account.book f) l) k).isSome = (findAccount l k).isSome := by
  rw [modAccounts, findAccount_map _ _ fun a => modAccounts_book n f a, Option.isSome_map]

theorem isSome_modify {α : Type} (x : Quad (Option α)) (c d : CompId) (f : α → α) :
    ((Quad.modify x c f).get d).isSome = (x.get d).isSome := by
  rw [Quad.get_modify]
  split
  · next e => subst e; exact Option.isSome_map
  · rfl

theorem reservationFor_mono {a b : Nat} (h : a ≤ b) (price : Nat) : reservationFor a price ≤ reservationFor b price := by
  unfold reservationFor
  exact Nat.div_le_div_right (Nat.add_le_add_right (Nat.mul_le_mul_right _ h) _)

/-- Books that read the same open deliveries, over tables that hold the same figures, agree as before. -/
theorem Gist.BooksAgree.of_tables {g h : Gist} (hg : g.BooksAgree) (work : h.WorkAgrees) (roster : rosterOrdered h.roster)
    (accounts : accountsOrdered h.accounts) (points : ∀ p, (h.points.get p).open? = (g.points.get p).open?)
    (machines : ∀ p d, (g.points.get p).open? = some d → (findMachine h.roster d.machine).isSome = true)
    (holders : ∀ p d, (g.points.get p).open? = some d → (findAccount h.accounts d.account).isSome = true)
    (comps : ∀ p d, (g.points.get p).open? = some d → (h.comps.get d.comp).isSome = true)
    (machineSums : ∀ m ∈ h.roster, m.reserved = g.sum (fun d => d.machine == m.number) DeliveryGist.limit)
    (accountSums : ∀ a ∈ h.accounts, a.reserved = g.sum (fun d => d.account == a.number) DeliveryGist.reservation)
    (compSums : ∀ c x, h.comps.get c = some x → x.reserved = g.sum (fun d => d.comp == c) DeliveryGist.remaining) :
    h.BooksAgree := by
  have sums (test : DeliveryGist → Bool) (f : DeliveryGist → Nat) : h.sum test f = g.sum test f := by
    rw [h.sum_eq .a, g.sum_eq .a, points, points]
  refine ⟨work, roster, accounts, fun p d e hd he => ?_, fun p d hd => ?_, ?_, ?_, ?_⟩
  · rw [points] at hd he
    exact hg.distinct p d e hd he
  · rw [points] at hd
    exact ⟨machines p d hd, holders p d hd, comps p d hd, (hg.backing p d hd).2.2.2⟩
  · simpa only [sums] using machineSums
  · simpa only [sums] using accountSums
  · simpa only [sums] using compSums

/-- Point `p`'s delivery changes from `d` to `o`, and the tables with it: the machine of `d` holds what `o` reserves, the
account and the compartments by the difference. -/
theorem Gist.BooksAgree.of_delivery {g h : Gist} (hg : g.BooksAgree) (work : h.WorkAgrees) (p : PointId) (x : PointGist)
    (points : h.points = g.points.set p x) (n v : Nat) (fa : Nat → Nat) (k : Nat)
    (roster : h.roster = modRoster n (MachineRec.hold v) g.roster)
    (accounts : h.accounts = modAccounts k (Account.book fa) g.accounts)
    (comps : ∀ c, (h.comps.get c).isSome = (g.comps.get c).isSome)
    (old : ∀ d, (g.points.get p).open? = some d → d.machine = n ∧ d.account = k)
    (new : ∀ d, x.open? = some d → d.machine = n ∧ d.account = k ∧ g.backs d)
    (limit : v = x.open?.elim 0 DeliveryGist.limit)
    (distinct : ∀ e, (g.points.get p.other).open? = some e → n ≠ e.machine)
    (account : ∀ w, fa ((g.points.get p).open?.elim 0 DeliveryGist.reservation + w) =
      x.open?.elim 0 DeliveryGist.reservation + w)
    (compSums : ∀ c y, h.comps.get c = some y → y.reserved = h.sum (fun d => d.comp == c) DeliveryGist.remaining) :
    h.BooksAgree := by
  have others (q : PointId) (hq : q ≠ p) : h.points.get q = g.points.get q := by rw [points, Pair.get_set_ne _ _ _ _ hq]
  have here : h.points.get p = x := by rw [points, Pair.get_set_same]
  have keeps (d : DeliveryGist) (b : g.backs d) : h.backs d := by
    obtain ⟨hm, ha, hc, hr⟩ := b
    refine ⟨?_, ?_, ?_, hr⟩
    · rw [roster, findMachine_modRoster]; exact hm
    · rw [accounts, findAccount_modAccounts]; exact ha
    · rw [comps]; exact hc
  refine ⟨work, ?_, ?_, ?_, ?_, ?_, ?_, compSums⟩
  · rw [roster]; exact hg.roster.map (modRoster_hold n v)
  · rw [accounts]; exact hg.accounts.map (modAccounts_book k fa)
  · intro q d e hd he
    rcases PointId.eq_or_other p q with rfl | rfl
    · rw [here] at hd
      rw [others _ (PointId.other_ne _)] at he
      rw [(new d hd).1]
      exact distinct e he
    · rw [PointId.other_other, here] at he
      rw [others _ (PointId.other_ne _)] at hd
      rw [(new e he).1]
      exact (distinct d hd).symm
  · intro q d hd
    by_cases hq : q = p
    · subst hq; rw [here] at hd; exact keeps d (new d hd).2.2
    · rw [others q hq] at hd; exact keeps d (hg.backing q d hd)
  · intro m hm
    rw [roster, modRoster, List.mem_map] at hm
    obtain ⟨m, hm, rfl⟩ := hm
    rw [Gist.sum_set points, (modRoster_hold n v m).1]
    split
    · next hn =>
      rw [hn, share_other_machine distinct]
      change v = _
      rw [limit]
      cases hx : x.open? with
      | none => rfl
      | some d => simp [share_some, (new d hx).1]
    · next hn =>
      rw [hg.machineSums m hm, g.sum_eq p]
      have none {o : Option DeliveryGist} (ho : ∀ d, o = some d → d.machine = n) :
          share (fun d => d.machine == m.number) DeliveryGist.limit o = 0 :=
        share_other_machine (fun d hd => by rw [ho d hd]; exact hn) _
      rw [none fun d hd => (old d hd).1, none fun d hd => (new d hd).1]
  · intro a ha
    rw [accounts, modAccounts, List.mem_map] at ha
    obtain ⟨a, ha, rfl⟩ := ha
    rw [Gist.sum_set points, modAccounts_book k fa a]
    have own {o : Option DeliveryGist} (ho : ∀ d, o = some d → d.account = k) :
        share (fun d => d.account == a.number) DeliveryGist.reservation o =
          if a.number = k then o.elim 0 DeliveryGist.reservation else 0 := by
      cases o with
      | none => simp [share_none]
      | some d => simp only [share_some, ho d rfl, beq_iff_eq, Option.elim, @eq_comm _ k]
    have was := hg.accountSums a ha
    rw [g.sum_eq p, own fun d hd => (old d hd).2] at was
    rw [own fun d hd => (new d hd).2.1]
    split
    · next hk => rw [if_pos hk] at was; change fa a.reserved = _; rw [was, account]
    · next hk => rw [if_neg hk] at was; exact was

/-- What the compartments' reserved sums become where a delivery's remaining limit at `c` changes. -/
theorem Gist.BooksAgree.compSums_modify {g h : Gist} (hg : g.BooksAgree) (p : PointId) (x : PointGist)
    (points : h.points = g.points.set p x) (c : CompId) (f : Nat → Nat)
    (comps : h.comps = Quad.modify g.comps c (CompGist.book f))
    (old : ∀ d, (g.points.get p).open? = some d → d.comp = c) (new : ∀ d, x.open? = some d → d.comp = c)
    (change : ∀ w, f ((g.points.get p).open?.elim 0 DeliveryGist.remaining + w) =
      x.open?.elim 0 DeliveryGist.remaining + w)
    (e : CompId) (y : CompGist) (hy : h.comps.get e = some y) :
    y.reserved = h.sum (fun d => d.comp == e) DeliveryGist.remaining := by
  rw [Gist.sum_set points]
  have own {o : Option DeliveryGist} (ho : ∀ d, o = some d → d.comp = c) :
      share (fun d => d.comp == e) DeliveryGist.remaining o = if e = c then o.elim 0 DeliveryGist.remaining else 0 := by
    cases o with
    | none => simp [share_none]
    | some d => simp only [share_some, ho d rfl, beq_iff_eq, Option.elim, @eq_comm _ c]
  rw [comps, Quad.get_modify] at hy
  rw [own new]
  split at hy
  · next hc =>
    obtain ⟨z, hz, rfl⟩ := Option.map_eq_some_iff.mp hy
    have was := hg.compSums c z hz
    rw [g.sum_eq p, ← hc, own old, if_pos hc] at was
    rw [if_pos hc]
    change f z.reserved = _
    rw [was, change]
  · next hc =>
    have was := hg.compSums e y hy
    rw [g.sum_eq p, own old, if_neg hc] at was
    rw [if_neg hc]
    exact was

/-- Point `p`'s delivery goes on from compartment `c` with remaining limit `r`, and the reserved sums with it (R113). -/
theorem Gist.BooksAgree.of_switch {g h : Gist} (hg : g.BooksAgree) (work : h.WorkAgrees) (p : PointId) (d : DeliveryGist)
    (c : CompId) (r : Nat) (opened : (g.points.get p).open? = some d) (at_c : (g.comps.get c).isSome = true)
    (points : h.points = g.points.set p { g.points.get p with open? := some { d with comp := c, remaining := r } })
    (comps :
      h.comps =
        Quad.modify (Quad.modify g.comps d.comp (CompGist.book (· - d.remaining))) c (CompGist.book (· + r)))
    (roster : h.roster = g.roster) (accounts : h.accounts = g.accounts) : h.BooksAgree := by
  have sums (test : DeliveryGist → Bool) (f : DeliveryGist → Nat)
      (hf : share test f (some { d with comp := c, remaining := r }) = share test f (some d)) :
      h.sum test f = g.sum test f := by
    rw [Gist.sum_set points, hf, ← opened, ← g.sum_eq p]
  have stocked (e : CompId) : (h.comps.get e).isSome = (g.comps.get e).isSome := by
    rw [comps, isSome_modify, isSome_modify]
  have context (q : PointId) (e : DeliveryGist) (he : (h.points.get q).open? = some e) :
      ∃ f, (g.points.get q).open? = some f ∧ e.machine = f.machine ∧ g.backs e := by
    rw [points, Pair.get_set] at he
    split at he
    · next hq =>
      cases he
      obtain ⟨hm, ha, -, hr⟩ := hg.backing p d opened
      exact ⟨d, hq ▸ opened, rfl, hm, ha, at_c, hr⟩
    · exact ⟨e, he, rfl, hg.backing q e he⟩
  refine ⟨work, roster ▸ hg.roster, accounts ▸ hg.accounts, fun q e f he hf => ?_, fun q e he => ?_, fun m hm => ?_,
    fun m hm => ?_, fun e y hy => ?_⟩
  · obtain ⟨e', he', hm, -⟩ := context q e he
    obtain ⟨f', hf', hn, -⟩ := context q.other f hf
    rw [hm, hn]
    exact hg.distinct q e' f' he' hf'
  · obtain ⟨-, -, -, hm, ha, hc, hr⟩ := context q e he
    exact ⟨roster ▸ hm, accounts ▸ ha, (stocked e.comp).trans hc, hr⟩
  · rw [sums _ _ (by simp [share_some])]; exact hg.machineSums m (roster ▸ hm)
  · rw [sums _ _ (by simp [share_some])]; exact hg.accountSums m (accounts ▸ hm)
  · rw [Gist.sum_set points, share_some]
    have was (z : CompGist) (hz : g.comps.get e = some z) := hg.compSums e z hz
    simp only [g.sum_eq p, opened, share_some, beq_iff_eq] at was ⊢
    rw [comps, Quad.get_modify, Quad.get_modify, Quad.get_modify] at hy
    by_cases hc : e = c
    · subst hc
      by_cases hd : e = d.comp
      · subst hd
        simp only [if_true, Option.map_map, Option.map_eq_some_iff] at hy
        obtain ⟨z, hz, rfl⟩ := hy
        have := was z hz
        simp only [if_true] at this ⊢
        change z.reserved - d.remaining + r = _
        omega
      · simp only [if_true, if_neg hd, Option.map_eq_some_iff] at hy
        obtain ⟨z, hz, rfl⟩ := hy
        have := was z hz
        simp only [if_neg (Ne.symm hd), if_true] at this ⊢
        change z.reserved + r = _
        omega
    · rw [if_neg hc] at hy
      rw [if_neg (Ne.symm hc)]
      by_cases hd : e = d.comp
      · subst hd
        simp only [if_true, Option.map_eq_some_iff] at hy
        obtain ⟨z, hz, rfl⟩ := hy
        have := was z hz
        simp only [if_true] at this
        change z.reserved - d.remaining = _
        omega
      · rw [if_neg hd] at hy
        have := was y hy
        rw [if_neg (Ne.symm hd)] at this
        exact this

theorem Gist.Act.booksAgree {g h : Gist} (a : g.Act h) (hg : g.BooksAgree) : h.BooksAgree := by
  have work := a.workAgrees hg.work
  have roster := a.rosterOrdered hg.roster
  have accounts := a.accountsOrdered hg.accounts
  have machine p d hd := (hg.backing p d hd).1
  have account p d hd := (hg.backing p d hd).2.1
  have comp p d hd := (hg.backing p d hd).2.2.1
  have elsewhere (p : PointId) (d : DeliveryGist) (hd : (g.points.get p).open? = some d) (e : DeliveryGist)
      (he : (g.points.get p.other).open? = some e) : d.machine ≠ e.machine := hg.distinct p d e hd he
  -- The figures of one compartment stay, and so does its record.
  have marked (k : Gist.WorkAgrees h) (c : CompId) (f : CompGist → CompGist) (hf : ∀ x, (f x).reserved = x.reserved)
      (points : h.points = g.points) (hr : h.roster = g.roster) (ha : h.accounts = g.accounts)
      (comps : h.comps = Quad.modify g.comps c f) : h.BooksAgree := by
    refine hg.of_tables k (hr ▸ hg.roster) (ha ▸ hg.accounts) (by simp [points]) (hr ▸ machine) (ha ▸ account)
      (fun p d hd => by rw [comps, isSome_modify]; exact comp p d hd) (hr ▸ hg.machineSums) (ha ▸ hg.accountSums)
      fun e x hx => ?_
    rw [comps, Quad.get_modify] at hx
    split at hx
    · next he =>
      subst he
      obtain ⟨y, hy, rfl⟩ := Option.map_eq_some_iff.mp hx
      rw [hf]
      exact hg.compSums _ y hy
    · exact hg.compSums e x hx
  have same (points : ∀ p, (h.points.get p).open? = (g.points.get p).open?) (hr : h.roster = g.roster)
      (ha : h.accounts = g.accounts) (comps : h.comps = g.comps) : h.BooksAgree :=
    hg.of_tables work (hr ▸ hg.roster) (ha ▸ hg.accounts) points (hr ▸ machine) (ha ▸ account) (comps ▸ comp)
      (hr ▸ hg.machineSums) (ha ▸ hg.accountSums) (comps ▸ hg.compSums)
  cases a with
  | move p x _ _ context =>
    refine same (fun q => ?_) rfl rfl rfl
    rw [Pair.get_set]
    split
    · next e => rw [e, context]
    · rfl
  | serve c x y at_c =>
    refine marked work c (fun x => { x with state := y }) (fun _ => rfl) rfl rfl rfl ?_
    simp [Quad.modify, at_c]
  | addComp c none =>
    refine hg.of_tables work hg.roster hg.accounts (fun _ => rfl) machine account (fun p d hd => ?_) hg.machineSums
      hg.accountSums fun e x hx => ?_
    · rw [Quad.get_set]
      split
      · rfl
      · exact comp p d hd
    · rw [Quad.get_set] at hx
      split at hx
      · next he =>
        cases hx
        have clear (p : PointId) : share (fun d => d.comp == e) DeliveryGist.remaining (g.points.get p).open? = 0 := by
          cases hd : (g.points.get p).open? with
          | none => rfl
          | some d =>
            have : d.comp ≠ e := fun k => absurd (comp p d hd) (by rw [k, he, none]; decide)
            simp [share_some, this]
        rw [g.sum_eq .a, clear, clear]
      · exact hg.compSums e x hx
  | dropComp c x _ _ unused =>
    refine hg.of_tables work hg.roster hg.accounts (fun _ => rfl) machine account (fun p d hd => ?_) hg.machineSums
      hg.accountSums fun e x hx => ?_
    · rw [Quad.get_set_ne _ _ _ _ (unused p d hd)]
      exact comp p d hd
    · rw [Quad.get_set] at hx
      split at hx
      · cases hx
      · exact hg.compSums e x hx
  | startLoad e x _ at_c =>
    refine marked work e.comp (fun x => { x with state := .loading }) (fun _ => rfl) rfl rfl rfl ?_
    simp [Quad.modify, at_c]
  | promote c => exact marked work c (CompGist.mark true) (fun _ => rfl) rfl rfl rfl rfl
  | dropEntry e => exact marked work e.comp (CompGist.mark false) (fun _ => rfl) rfl rfl rfl rfl
  | receipt e => exact marked work e.comp CompGist.fill (fun _ => rfl) rfl rfl rfl rfl
  | roster f keeps =>
    refine hg.of_tables work roster hg.accounts (fun _ => rfl) (fun p d hd => ?_) account comp (fun m hm => ?_)
      hg.accountSums hg.compSums
    · rw [findMachine_map _ _ fun m => (keeps m).1, Option.isSome_map]
      exact machine p d hd
    · obtain ⟨n, hn, rfl⟩ := List.mem_map.mp hm
      rw [(keeps n).1, (keeps n).2.2]
      exact hg.machineSums n hn
  | putMachine x _ _ reserved =>
    refine hg.of_tables work roster hg.accounts (fun _ => rfl) (fun p d hd => ?_) account comp (fun m hm => ?_)
      hg.accountSums hg.compSums
    · by_cases k : d.machine = x.number
      · rw [k, findMachine_put_same]; rfl
      · rw [findMachine_put_ne _ _ _ k]; exact machine p d hd
    · rw [putMachineRec_eq, mem_putBy hg.roster.rising] at hm
      rcases hm with rfl | ⟨hm, -⟩
      · rw [reserved]
        cases hf : findMachine g.roster m.number with
        | none =>
          have clear (p : PointId) : share (fun d => d.machine == m.number) DeliveryGist.limit (g.points.get p).open? = 0 :=
            share_other_machine (fun d hd k => absurd (machine p d hd) (by rw [← k, hf]; decide)) _
          rw [g.sum_eq .a, clear, clear]
          rfl
        | some old =>
          rw [← findMachine_number hf]
          exact hg.machineSums old (findMachine_mem hf)
      · exact hg.machineSums m hm
  | dropMachine n unused =>
    refine hg.of_tables work roster hg.accounts (fun _ => rfl) (fun p d hd => ?_) account comp (fun m hm => ?_)
      hg.accountSums hg.compSums
    · rw [findMachine_drop, if_neg (unused p d hd)]; exact machine p d hd
    · exact hg.machineSums m (List.mem_of_mem_filter hm)
  | accounts f keeps =>
    refine hg.of_tables work hg.roster accounts (fun _ => rfl) machine (fun p d hd => ?_) comp hg.machineSums
      (fun m hm => ?_) hg.compSums
    · rw [findAccount_map _ _ fun m => (keeps m).1, Option.isSome_map]
      exact account p d hd
    · obtain ⟨n, hn, rfl⟩ := List.mem_map.mp hm
      rw [(keeps n).1, (keeps n).2]
      exact hg.accountSums n hn
  | putAccount x reserved =>
    refine hg.of_tables work hg.roster accounts (fun _ => rfl) machine (fun p d hd => ?_) comp hg.machineSums
      (fun m hm => ?_) hg.compSums
    · by_cases k : d.account = x.number
      · rw [k, findAccount_put_same]; rfl
      · rw [findAccount_put_ne _ _ _ k]; exact account p d hd
    · rw [putAccountRec_eq, mem_putBy hg.accounts] at hm
      rcases hm with rfl | ⟨hm, -⟩
      · rw [reserved]
        cases hf : findAccount g.accounts m.number with
        | none =>
          have clear (p : PointId) :
              share (fun d => d.account == m.number) DeliveryGist.reservation (g.points.get p).open? = 0 := by
            cases hd : (g.points.get p).open? with
            | none => rfl
            | some d =>
              have : d.account ≠ m.number := fun k => absurd (account p d hd) (by rw [k, hf]; decide)
              simp [share_some, this]
          rw [g.sum_eq .a, clear, clear]
          rfl
        | some old =>
          rw [← findAccount_number hf]
          exact hg.accountSums old (List.mem_of_find?_eq_some hf)
      · exact hg.accountSums m hm
  | openDelivery p d closed power distinct backed =>
    have none := hg.work.none_of_closed closed power
    refine hg.of_delivery work p _ rfl d.machine d.limit _ d.account rfl rfl (fun c => isSome_modify ..)
      (by simp [none]) (by rintro _ ⟨⟩; exact ⟨rfl, rfl, backed⟩) rfl distinct ?_ ?_
    · intro w; simp only [none, Option.elim]; omega
    · refine hg.compSums_modify p _ rfl d.comp _ rfl (by simp [none]) (by rintro _ ⟨⟩; rfl) fun w => ?_
      simp only [none, Option.elim]; omega
  | closeDelivery p d record opened =>
    refine hg.of_delivery work p _ rfl d.machine 0 _ d.account rfl rfl (fun c => isSome_modify ..)
      (by rw [opened]; rintro _ ⟨⟩; exact ⟨rfl, rfl⟩) (by simp) rfl (elsewhere p d opened) ?_ ?_
    · intro w; simp only [opened, Option.elim]; omega
    · refine hg.compSums_modify p _ rfl d.comp _ rfl (by rw [opened]; rintro _ ⟨⟩; rfl) (by simp) fun w => ?_
      simp only [opened, Option.elim]; omega
  | lower p d limit cut opened below within =>
    obtain ⟨hm, ha, hc, hr⟩ := hg.backing p d opened
    have less := reservationFor_mono below d.price
    refine hg.of_delivery work p _ rfl d.machine limit _ d.account rfl rfl (fun c => isSome_modify ..)
      (by rw [opened]; rintro _ ⟨⟩; exact ⟨rfl, rfl⟩) (by rintro _ ⟨⟩; exact ⟨rfl, rfl, hm, ha, hc, rfl⟩) rfl
      (elsewhere p d opened) ?_ ?_
    · intro w; simp only [opened, Option.elim]; omega
    · refine hg.compSums_modify p _ rfl d.comp _ rfl (by rw [opened]; rintro _ ⟨⟩; rfl) (by rintro _ ⟨⟩; rfl) fun w => ?_
      simp only [opened, Option.elim]; omega
  | switch p d c r opened at_c =>
    exact hg.of_switch work p d c r opened at_c rfl rfl rfl rfl
  | reset => exact same (fun p => by cases p <;> rfl) rfl rfl rfl
  | _ => exact ⟨work, hg.roster, hg.accounts, hg.distinct, hg.backing, hg.machineSums, hg.accountSums, hg.compSums⟩

end books

end Sys2Proof.Machine

/-! SUPPORT AND CERTIFICATES. What each operation of the state does to the gist that the invariants speak of. -/

namespace Sys2Proof.Machine

open Sys2Proof

section operations

variable (s : State)

/-! ### From state to state -/

/-- No attention line comes apart from its pending set. -/
def State.LinesTo (s t : State) : Prop := ∀ o, (s.port o).lineAgrees → (t.port o).lineAgrees

/-- The gist goes by a chain of acts, and the attention lines stay right. -/
structure State.Goes (s t : State) : Prop where
  path : s.gist.Path t.gist
  lines : s.LinesTo t

variable {s}

theorem State.LinesTo.of_ports {t : State} (h : t.ports = s.ports) : s.LinesTo t := fun o k => by
  unfold State.port; rw [h]; exact k

theorem State.LinesTo.trans {t u : State} (h : s.LinesTo t) (k : t.LinesTo u) : s.LinesTo u := fun o m => k o (h o m)

theorem State.Goes.refl (s : State) : s.Goes s := ⟨.refl, fun _ h => h⟩

theorem State.Goes.trans {t u : State} (h : s.Goes t) (k : t.Goes u) : s.Goes u :=
  ⟨h.path.trans k.path, h.lines.trans k.lines⟩

/-- Chain from the last step back: the state in between is read off what it goes to. -/
theorem State.Goes.after {t u : State} (k : t.Goes u) (h : s.Goes t) : s.Goes u := h.trans k

theorem State.Goes.of_gist {t : State} (hg : t.gist = s.gist) (hl : s.LinesTo t) : s.Goes t := ⟨hg ▸ .refl, hl⟩

theorem State.Goes.of_still {t : State} (hg : t.gist = s.gist) (hp : t.ports = s.ports) : s.Goes t :=
  .of_gist hg (.of_ports hp)

theorem State.Goes.of_act {t : State} {g : Gist} (a : s.gist.Act g) (hg : t.gist = g) (hl : s.LinesTo t) : s.Goes t :=
  ⟨hg ▸ .single a, hl⟩

theorem State.Goes.ite {c : Prop} [Decidable c] {t u : State} (ht : c → s.Goes t) (hu : ¬ c → s.Goes u) :
    s.Goes (if c then t else u) := by
  split
  · next h => exact ht h
  · next h => exact hu h

variable (s)

/-! ### The gist after an update -/

@[simp] theorem State.setPoint_gist (p : PointId) (x : Point) :
    (s.setPoint p x).gist = { s.gist with points := s.gist.points.set p x.gist } := by
  cases p <;> rfl

@[simp] theorem State.setCoupler_gist (p : PointId) (x : Coupler) : (s.setCoupler p x).gist = s.gist := rfl
@[simp] theorem State.setChannel_gist (c : ChannelId) (x : Channel) : (s.setChannel c x).gist = s.gist := rfl
@[simp] theorem State.setPort_gist (o : PortId) (x : Port) : (s.setPort o x).gist = s.gist := rfl
@[simp] theorem State.setWatch_gist (x : Watch) : (s.setWatch x).gist = s.gist := rfl
@[simp] theorem State.setRoles_gist (x : Roles) : (s.setRoles x).gist = s.gist := rfl
@[simp] theorem State.setClock_gist (x : Clock) : (s.setClock x).gist = s.gist := rfl
@[simp] theorem State.raise_gist (n : Notice) : (s.raise n).gist = s.gist := rfl
@[simp] theorem State.raiseOn_gist (o : PortId) (n : Notice) : (s.raiseOn o n).gist = s.gist := rfl
@[simp] theorem State.withdraw_gist (n : Notice) : (s.withdraw n).gist = s.gist := rfl
@[simp] theorem State.answer_gist (o : PortId) (x : Response) : (s.answer o x).gist = s.gist := rfl
@[simp] theorem State.stopGrace_gist (p : PointId) : (s.stopGrace p).gist = s.gist := rfl
@[simp] theorem State.bindChannel_gist (c : ChannelId) (q : ProductId) : (s.bindChannel c q).gist = s.gist := rfl
@[simp] theorem State.unbindChannel_gist (c : ChannelId) : (s.unbindChannel c).gist = s.gist := rfl

@[simp] theorem State.setArbiter_gist (x : Arbiter) :
    (s.setArbiter x).gist = { s.gist with selector := x.selector, motor := x.motor, travels := x.travel.isSome } := rfl

@[simp] theorem State.setPump_gist (x : Pump) : (s.setPump x).gist = { s.gist with pump := x.state, drive := x.drive } := rfl

@[simp] theorem State.setLoader_gist (x : Loader) :
    (s.setLoader x).gist =
      { s.gist with plan := x.state, entry := x.current.map Entry.gist, inlets := x.inlets } := rfl

@[simp] theorem State.setJournal_gist (x : Journal) :
    (s.setJournal x).gist = { s.gist with seqs := x.records.map Record.seq, next := x.next, reserved := x.reserved } := rfl

@[simp] theorem State.setPower_gist (x : Power) : (s.setPower x).gist = { s.gist with power := x.state } := rfl

@[simp] theorem State.modMachine_gist (n : Nat) (f : MachineRec → MachineRec) :
    (s.modMachine n f).gist = { s.gist with roster := modRoster n f s.gist.roster } := rfl

@[simp] theorem State.modAccount_gist (n : Nat) (f : Account → Account) :
    (s.modAccount n f).gist = { s.gist with accounts := modAccounts n f s.gist.accounts } := rfl

@[simp] theorem State.setComp_gist (c : CompId) (x : Option Compartment) :
    (s.setComp c x).gist = { s.gist with comps := s.gist.comps.set c (x.map Compartment.gist) } := by
  cases c <;> rfl

theorem State.modComp_gist (c : CompId) (f : Compartment → Compartment) (F : CompGist → CompGist)
    (hf : ∀ x, (f x).gist = F x.gist) :
    (s.modComp c f).gist = { s.gist with comps := Quad.modify s.gist.comps c F } := by
  have : ((s.comp c).map f).map Compartment.gist = (s.gist.comps.get c).map F := by
    rw [State.gist_comp]
    cases s.comp c <;> simp [hf]
  rw [State.modComp, State.setComp_gist, this]
  rfl

theorem Quad.modify_id {α : Type} (x : Quad (Option α)) (c : CompId) : Quad.modify x c id = x := by
  simp [Quad.modify]

/-- A change of a record that its gist does not show. -/
theorem State.modComp_gist_same (c : CompId) (f : Compartment → Compartment) (hf : ∀ x, (f x).gist = x.gist) :
    (s.modComp c f).gist = s.gist := by
  rw [s.modComp_gist c f id hf, Quad.modify_id]

theorem State.setPoint_gist_same (p : PointId) (x : Point) (hx : x.gist = (s.point p).gist) :
    (s.setPoint p x).gist = s.gist := by
  rw [State.setPoint_gist, hx, ← State.gist_point, Pair.set_get]

/-! ### Notices -/

theorem Port.follow_agrees (x : Port) : x.follow.lineAgrees := rfl

theorem State.raise_lines (n : Notice) : s.LinesTo (s.raise n) := by
  intro o h
  rw [State.raise_port]
  split
  · exact Port.follow_agrees _
  · exact h

theorem State.setPort_lines (o : PortId) (x : Port) (hx : (s.port o).lineAgrees → x.lineAgrees) :
    s.LinesTo (s.setPort o x) := by
  intro q h
  rw [State.setPort_port]
  split
  · next e => subst e; exact hx h
  · exact h

theorem State.raiseOn_lines (o : PortId) (n : Notice) : s.LinesTo (s.raiseOn o n) :=
  s.setPort_lines o _ fun _ => Port.follow_agrees _

theorem State.withdraw_lines (n : Notice) : s.LinesTo (s.withdraw n) := fun o _ => by
  rw [State.withdraw_port]; exact Port.follow_agrees _

theorem State.raise_goes (n : Notice) : s.Goes (s.raise n) := .of_gist rfl (s.raise_lines n)

theorem State.raiseOn_goes (o : PortId) (n : Notice) : s.Goes (s.raiseOn o n) := .of_gist rfl (s.raiseOn_lines o n)

theorem State.answer_goes (o : PortId) (x : Response) : s.Goes (s.answer o x) :=
  .of_gist rfl (s.setPort_lines o _ id)

theorem State.queueExtra_goes (o : PortId) (x : Response) : s.Goes (s.queueExtra o x) :=
  .ite (fun _ => .refl s) fun _ => .of_gist rfl (s.setPort_lines o _ id)

theorem State.reply_goes (o : PortId) (x : Response) : s.Goes (s.reply o x) :=
  .ite (fun _ => s.queueExtra_goes o x) fun _ => s.answer_goes o x

/-! ### The journal -/

theorem Journal.hasRoom_iff (j : Journal) :
    j.hasRoom = true ↔ j.records.length + j.reserved < Config.journalSize := by
  rw [Journal.hasRoom, decide_eq_true_eq, Journal.room, Journal.occupied]
  omega

theorem Journal.room_of_canReserve {j : Journal} (h : j.canReserve = true) :
    j.records.length + j.reserved < Config.journalSize := by
  rw [Journal.canReserve, decide_eq_true_eq, Journal.room, Journal.occupied] at h
  omega

@[simp] theorem State.testHighMark_gist : s.testHighMark.gist = s.gist := by
  unfold State.testHighMark; split <;> rfl

theorem State.testHighMark_lines : s.LinesTo s.testHighMark := by
  unfold State.testHighMark
  split
  · exact State.raise_lines _ _
  · exact fun _ h => h

@[simp] theorem State.reserveSlot_gist : s.reserveSlot.gist = { s.gist with reserved := s.gist.reserved + 1 } :=
  State.testHighMark_gist _

theorem State.store_gist (b : RecordBody) :
    (s.store b).gist = { s.gist with seqs := s.gist.seqs ++ [s.gist.next], next := s.gist.next + 1 } := by
  rw [State.store, State.testHighMark_gist, State.setJournal_gist, List.map_append]
  rfl

theorem State.storeReserved_gist (b : RecordBody) :
    (s.storeReserved b).gist =
      { s.gist with
        seqs := s.gist.seqs ++ [s.gist.next], next := s.gist.next + 1, reserved := s.gist.reserved - 1 } := by
  rw [State.storeReserved, State.testHighMark_gist, State.setJournal_gist, List.map_append]
  rfl

theorem State.gist_seqs_length : s.gist.seqs.length = s.journal.records.length := List.length_map _

theorem State.store_goes (b : RecordBody) (h : s.journal.hasRoom = true) : s.Goes (s.store b) :=
  .of_act (.store (by rw [State.gist_seqs_length]; exact (Journal.hasRoom_iff _).mp h)) (s.store_gist b)
    fun o k => State.testHighMark_lines _ o k

theorem State.storeSystem_goes (b : RecordBody) : s.Goes (s.storeSystem b) :=
  .ite (fun h => s.store_goes b h) fun _ => .refl s

/-! ### The stock -/

theorem State.modComp_goes (c : CompId) (f : Compartment → Compartment) (hf : ∀ x, (f x).gist = x.gist) :
    s.Goes (s.modComp c f) := .of_still (s.modComp_gist_same c f hf) rfl

@[simp] theorem State.stopSettle_gist (c : CompId) : (s.stopSettle c).gist = s.gist :=
  s.modComp_gist_same c _ fun _ => rfl

@[simp] theorem State.reserveOn_gist (c : CompId) (v : Nat) :
    (s.reserveOn c v).gist = { s.gist with comps := Quad.modify s.gist.comps c (CompGist.book (· + v)) } :=
  s.modComp_gist c _ _ fun _ => rfl

@[simp] theorem State.releaseOn_gist (c : CompId) (v : Nat) :
    (s.releaseOn c v).gist = { s.gist with comps := Quad.modify s.gist.comps c (CompGist.book (· - v)) } :=
  s.modComp_gist c _ _ fun _ => rfl

@[simp] theorem State.startSettle_gist (c : CompId) : (s.startSettle c).gist = s.gist := by
  unfold State.startSettle
  split
  · exact s.modComp_gist_same c _ fun _ => rfl
  · rfl

theorem State.startSettle_goes (c : CompId) : s.Goes (s.startSettle c) := .of_still (by simp) (by simp)

@[simp] theorem State.reorderFall_gist (c : CompId) : (s.reorderFall c).gist = s.gist := by
  unfold State.reorderFall
  split
  · exact s.modComp_gist_same c _ fun _ => rfl
  · rfl

theorem State.reorderFall_lines (c : CompId) : s.LinesTo (s.reorderFall c) := by
  unfold State.reorderFall
  split
  · exact State.raise_lines (s.modComp c _) _
  · exact fun _ h => h

@[simp] theorem State.reorderNew_gist (c : CompId) : (s.reorderNew c).gist = s.gist := by
  unfold State.reorderNew
  split
  · exact s.modComp_gist_same c _ fun _ => rfl
  · exact s.reorderFall_gist c

theorem State.reorderNew_lines (c : CompId) : s.LinesTo (s.reorderNew c) := by
  unfold State.reorderNew
  split
  · exact fun _ h => h
  · exact s.reorderFall_lines c

theorem State.reorderNew_goes (c : CompId) : s.Goes (s.reorderNew c) := .of_gist (by simp) (s.reorderNew_lines c)

theorem State.reorderFall_goes (c : CompId) : s.Goes (s.reorderFall c) := .of_gist (by simp) (s.reorderFall_lines c)

theorem State.setLastRec_goes (c : CompId) (t : Trigger) (o : RecOutcome) (v : Option Int) :
    s.Goes (s.setLastRec c t o v) := s.modComp_goes c _ fun _ => rfl

theorem State.reconcile_goes (t : Trigger) (c : CompId) : s.Goes (s.reconcile t c) := by
  unfold State.reconcile
  split
  · exact .refl s
  · split
    · unfold State.reconcileNoGauge
      refine (s.setLastRec_goes c t .noGauge none).trans (.ite (fun _ => ?_) fun _ => .refl _)
      exact .after (State.raise_goes _ _) (State.modComp_goes _ c _ fun _ => rfl)
    · refine .ite (fun _ => ?_) fun _ => ?_
      · exact .after (State.raise_goes _ _) <| .after (State.setLastRec_goes ..) <|
          .after (State.modComp_goes _ c _ fun _ => rfl) <| s.storeSystem_goes _
      · exact .after (State.setLastRec_goes ..) <| s.modComp_goes c _ fun _ => rfl

theorem State.reconcileAll_goes (t : Trigger) : s.Goes (s.reconcileAll t) :=
  (((s.reconcile_goes t .n1).trans (State.reconcile_goes _ t .n2)).trans (State.reconcile_goes _ t .n3)).trans
    (State.reconcile_goes _ t .n4)

theorem State.chargeBook_goes (c : CompId) (p : PointId) (m v : Nat) : s.Goes (s.chargeBook c p m v) := by
  unfold State.chargeBook
  split
  · exact .refl s
  · refine .ite (fun _ => ?_) fun _ => ?_
    · exact (s.modComp_goes c _ (by intro _; rfl)).trans (State.reorderFall_goes _ c)
    · exact .after (State.reorderFall_goes _ c) <| .after (State.raise_goes _ _) <|
        .after (State.modComp_goes _ c _ fun _ => rfl) <| s.storeSystem_goes _

/-! ### Delivery points -/

/-- A point moves from an open state to an open state. -/
theorem State.setPoint_moves (p : PointId) (x : Point) (from_open : (s.point p).state ≠ .closed)
    (to_open : x.state ≠ .closed) (context : x.context = (s.point p).context)
    (valves : (s.point p).gist.valvesAgree → x.gist.valvesAgree) : s.Goes (s.setPoint p x) := by
  refine .of_act (.move p x.gist ?_ to_open ?_ ?_) (s.setPoint_gist p x) (.of_ports rfl)
  · rw [State.gist_point]; exact from_open
  · rw [State.gist_point]; simp only [Point.gist, context]
  · rw [State.gist_point]; exact valves

/-- The arbiter changes, its selector left alone. -/
theorem State.setArbiter_goes (a : Arbiter) (hs : a.selector = s.arbiter.selector) (hm : a.motor = s.arbiter.motor)
    (ht : a.travel.isSome = s.arbiter.travel.isSome) : s.Goes (s.setArbiter a) :=
  .of_still (by rw [State.setArbiter_gist, hs, hm, ht]; rfl) rfl

/-- Closed valves agree with any state that does not flow. -/
theorem PointGist.valvesAgree_shut {x : PointGist} (hf : x.fast = false) (hs : x.slow = false)
    (still : x.state.isFlowing = false) : x.valvesAgree := by
  have : x.state ≠ .flowing .fast := by intro k; rw [k] at still; cases still
  exact ⟨by simp [hf, this], by simp [hs, still]⟩

theorem State.stopGrace_goes (p : PointId) : s.Goes (s.stopGrace p) := .of_still rfl rfl

theorem State.finish_goes (p : PointId) (k : EndCause) (h : (s.point p).state ≠ .closed) : s.Goes (s.finish p k) :=
  .after (State.setArbiter_goes _ _ rfl rfl rfl) <| .after (State.stopGrace_goes _ p) <|
    s.setPoint_moves p _ h (by simp) rfl fun _ => PointGist.valvesAgree_shut rfl rfl rfl

theorem Arbiter.holdClaim_outputs (a : Arbiter) (p : PointId) :
    (a.holdClaim p).selector = a.selector ∧ (a.holdClaim p).motor = a.motor ∧ (a.holdClaim p).travel = a.travel := by
  unfold Arbiter.holdClaim Arbiter.dropClaim
  split
  · split <;> exact ⟨rfl, rfl, rfl⟩
  · exact ⟨rfl, rfl, rfl⟩

theorem State.suspend_goes (p : PointId) (k : Cause) (h : (s.point p).state ≠ .closed) : s.Goes (s.suspend p k) := by
  obtain ⟨hs, hm, ht⟩ := Arbiter.holdClaim_outputs (s.arbiter.withdraw p) p
  exact .after (State.setArbiter_goes _ _ hs hm (congrArg _ ht)) <|
    s.setPoint_moves p _ h (by simp) rfl fun _ => PointGist.valvesAgree_shut rfl rfl rfl

theorem PointState.open_of_wantsFlow {x : PointState} (h : x.wantsFlow = true) : x ≠ .closed := by
  rintro rfl; cases h

theorem PointState.open_of_unfinished {x : PointState} (h : x.unfinished = true) : x ≠ .closed := by
  rintro rfl; cases h

theorem PointState.open_of_isFlowing {x : PointState} (h : x.isFlowing = true) : x ≠ .closed := by
  rintro rfl; cases h

theorem State.suspendFlow_goes (p : PointId) (k : Cause) : s.Goes (s.suspendFlow p k) :=
  .ite (fun h => s.suspend_goes p k (PointState.open_of_wantsFlow h)) fun _ => .refl s

/-- A point goes between states that do not flow, its valves left alone. -/
theorem PointGist.valvesAgree_still {x y : PointGist} (hf : y.fast = x.fast) (hs : y.slow = x.slow)
    (hx : x.state.isFlowing = false) (hy : y.state.isFlowing = false) (h : x.valvesAgree) : y.valvesAgree := by
  have fast : x.fast = false := by
    rw [← Bool.not_eq_true, h.1]
    intro k; rw [k] at hx; cases hx
  have slow : x.slow = false := by
    rw [← Bool.not_eq_true, h.2, hx]; decide
  exact PointGist.valvesAgree_shut (hf.trans fast) (hs.trans slow) hy

theorem State.lift_goes (p : PointId) (k : Cause) : s.Goes (s.lift p k) :=
  .ite (fun h => s.setPoint_moves p _ (by rw [h]; simp) (by simp) rfl
    (PointGist.valvesAgree_still rfl rfl (by rw [Point.gist, h]; rfl) rfl)) fun _ => .refl s

theorem State.flow_goes (p : PointId) (x : Stage) (h : (s.point p).state ≠ .closed) : s.Goes (s.flow p x) :=
  .after (State.setArbiter_goes _ _ rfl rfl rfl) <| s.setPoint_moves p _ h (by simp) rfl fun _ => by
    cases x <;> simp [PointGist.valvesAgree, Point.gist, PointState.isFlowing]

/-- A change of a point that its gist does not show. -/
theorem State.setPoint_goes (p : PointId) (x : Point) (hx : x.gist = (s.point p).gist) : s.Goes (s.setPoint p x) :=
  .of_still (s.setPoint_gist_same p x hx) rfl

theorem State.endSeries_goes (p : PointId) : s.Goes (s.endSeries p) := s.setPoint_goes p _ rfl

theorem State.grantFlow_goes (p : PointId) (d : Delivery) (h : (s.point p).state ≠ .closed) :
    s.Goes (s.grantFlow p d) := by
  have ready : s.Goes ((s.setPoint p { s.point p with authTimer := none, flowStarted := true }).setArbiter
      (s.arbiter.withdraw p)) :=
    .after (State.setArbiter_goes _ _ rfl rfl rfl) <| s.setPoint_goes p _ rfl
  refine ready.trans (.ite (fun _ => State.finish_goes _ p _ ?_) fun _ => State.flow_goes _ p _ ?_)
  · simpa using h
  · simpa using h

theorem State.grant_goes (p : PointId) : s.Goes (s.grant p) := by
  unfold State.grant
  split
  · next h => exact s.grantFlow_goes p _ (by rw [h]; decide)
  · exact .refl s

theorem State.compareFlow_goes (p : PointId) : s.Goes (s.compareFlow p) := by
  unfold State.compareFlow
  split
  · next d stage _ h =>
    refine .ite (fun _ => s.finish_goes p _ (by rw [h]; simp)) fun _ => .ite (fun _ => ?_) fun _ => .refl s
    refine s.setPoint_moves p _ (by rw [h]; simp) (by simp) rfl fun k => ?_
    simp only [PointGist.valvesAgree, Point.gist, h, PointState.isFlowing, iff_true] at k ⊢
    exact ⟨by simp, k.2⟩
  · exact .refl s

theorem State.compareLowered_goes (p : PointId) : s.Goes (s.compareLowered p) := by
  unfold State.compareLowered
  split
  · exact .refl s
  · exact .ite (fun _ => s.compareFlow_goes p) fun _ =>
      .ite (fun h => s.finish_goes p _ (PointState.open_of_unfinished h.1)) fun _ => .refl s

theorem State.gist_open {p : PointId} {d : Delivery} (h : (s.point p).context = some d) :
    (s.gist.points.get p).open? = some d.gist := by
  rw [State.gist_point, Point.gist, h]; rfl

theorem State.lowerLimit_goes (p : PointId) (limit : Nat) (source : LimitSource)
    (h : ∀ d, (s.point p).context = some d → limit ≤ d.limit) : s.Goes (s.lowerLimit p limit source) := by
  unfold State.lowerLimit
  split
  · exact .refl s
  · next d hd =>
    refine .of_act (.lower p d.gist limit (min (d.limit - limit) d.current.remaining) (s.gist_open hd) (h d hd)
      (Nat.min_le_right _ _)) ?_ (.of_ports rfl)
    simp only [State.setPoint_gist, State.releaseOn_gist, State.modMachine_gist, State.modAccount_gist, State.gist_point]
    rfl

/-! ### The selector -/

theorem State.fileRequest_goes (p : PointId) (c : CompId) : s.Goes (s.fileRequest p c) := by
  unfold State.fileRequest
  split
  · exact .ite (fun _ => s.grant_goes p) fun _ => s.setArbiter_goes _ rfl rfl rfl
  · exact .ite (fun _ => s.setArbiter_goes _ rfl rfl rfl) fun _ => s.setArbiter_goes _ rfl rfl rfl
  · exact s.setArbiter_goes _ rfl rfl rfl

/-- The selector stops at `c`, where it was going or what is in service, and the admitted points receive their grants. -/
theorem State.grantAdmitted_goes (c : CompId)
    (h : s.arbiter.selector.holds c = true ∨ ∃ x, s.comp c = some x ∧ x.state = .inService) :
    s.Goes (s.grantAdmitted c) := by
  unfold State.grantAdmitted
  refine .after (.ite (fun _ => State.grant_goes _ _) fun _ => .refl _) <|
    .after (.ite (fun _ => State.grant_goes _ _) fun _ => .refl _) <|
      .of_act (.select (.held c) false false (fun _ => ⟨by simp, by simp⟩) fun d hd => ?_) rfl (.of_ports rfl)
  obtain rfl : c = d := by simpa [Selector.holds] using hd
  rcases h with h | ⟨x, hx, hs⟩
  · exact .inl h
  · exact .inr ⟨x.gist, by rw [State.gist_comp, hx]; rfl, hs⟩

theorem State.arrive_goes (c : CompId) (h : s.arbiter.selector = .moving c) : s.Goes (s.arrive c) := by
  refine .ite (fun _ => ?_) fun _ => s.grantAdmitted_goes c (.inl (by simp [h, Selector.holds]))
  exact .of_act (.select (.idle (some c)) false false (fun _ => ⟨by simp, by simp⟩) (by simp [Selector.holds])) rfl
    (.of_ports rfl)

theorem State.testRelease_goes : s.Goes s.testRelease := by
  unfold State.testRelease
  split
  · next c h =>
    refine .ite (fun _ => ?_) fun _ => .refl s
    refine .of_act (.select (.idle (some c)) s.arbiter.motor s.arbiter.travel.isSome (fun k => ?_)
      (by simp [Selector.holds])) rfl (.of_ports rfl)
    have sel : s.gist.selector = .held c := h
    unfold Gist.SelectorAgrees at k ⊢
    simp only [sel, reduceCtorEq, exists_false, iff_false] at k ⊢
    exact k
  · exact .refl s

/-- What a pick grants is not barred: it is in service. -/
theorem State.choice_inService {p : PointId} {c : CompId} (h : s.choice = some (p, c)) :
    ∃ x, s.comp c = some x ∧ x.state = .inService := by
  have eligible {q : PointId} (k : s.eligibleRequest q = some c) : ∃ x, s.comp c = some x ∧ x.state = .inService := by
    have : s.barred c = false := by simpa using (Option.filter_eq_some_iff.mp k).2
    unfold State.barred at this
    cases hc : s.comp c with
    | none => simp [hc] at this
    | some x => exact ⟨x, rfl, by simp [hc] at this; exact this.1⟩
  unfold State.choice at h
  split at h
  · cases h
  · next k _ => cases h; exact eligible k
  · next k => cases h; exact eligible k
  · next ka kb =>
    split at h
    · cases h; exact eligible ka
    · cases h; exact eligible kb

theorem State.pick_goes : s.Goes s.pick := by
  unfold State.pick
  split
  · split
    · next p c hc =>
      have served := s.choice_inService hc
      refine .ite (fun _ => ?_) fun _ => ?_
      · exact .after (State.grantAdmitted_goes _ c (.inr served)) (s.setArbiter_goes _ rfl rfl rfl)
      · refine .of_act (.select (.moving c) true true (fun _ => ⟨by simp, by simp⟩) fun d hd => .inr ?_) rfl
          (.of_ports rfl)
        obtain rfl : c = d := by simpa [Selector.holds] using hd
        obtain ⟨x, hx, hs⟩ := served
        exact ⟨x.gist, by rw [State.gist_comp, hx]; rfl, hs⟩
    · exact .refl s
  · exact .refl s

theorem State.arbitrate_goes : s.Goes s.arbitrate := by
  unfold State.arbitrate
  have round (u : State) : u.Goes u.testRelease.pick := u.testRelease_goes.trans (State.pick_goes _)
  exact ((round s).trans (round _)).trans (round _)

end operations

end Sys2Proof.Machine

/-! SUPPORT AND CERTIFICATES. What the pump, the load sequencer and the blocks that follow do to the gist. -/

namespace Sys2Proof.Machine

open Sys2Proof

section blocks

variable (s : State)

/-! ### The pump -/

theorem State.setPump_goes (x : Pump) (agrees : s.pump.driveAgrees → x.driveAgrees)
    (runs : x.drive = true → s.pump.drive = true ∨ s.runCondition = true) : s.Goes (s.setPump x) :=
  .of_act (.pump x.state x.drive agrees (by rw [← State.runCondition_gist]; exact runs)) rfl (.of_ports rfl)

/-- The pump's timers and marks change, its state and drive do not. -/
theorem State.setPump_still (x : Pump) (hs : x.state = s.pump.state) (hd : x.drive = s.pump.drive) :
    s.Goes (s.setPump x) := .of_still (by rw [State.setPump_gist, hs, hd]; rfl) rfl

/-- The drive goes off. -/
theorem State.setPump_off (x : Pump) (hs : x.state ≠ .starting ∧ x.state ≠ .running) (hd : x.drive = false) :
    s.Goes (s.setPump x) :=
  s.setPump_goes x (fun _ => by simp [Pump.driveAgrees, hs, hd]) (by simp [hd])

@[simp] theorem Pump.setPresent_state (x : Pump) (k : FaultKind) (v : Bool) : (x.setPresent k v).state = x.state := by
  cases k <;> rfl

@[simp] theorem Pump.setPresent_drive (x : Pump) (k : FaultKind) (v : Bool) : (x.setPresent k v).drive = x.drive := by
  cases k <;> rfl

@[simp] theorem Pump.testAll_state (x : Pump) : x.testAll.state = x.state := by rw [Pump.testAll_eq]

@[simp] theorem Pump.testAll_drive (x : Pump) : x.testAll.drive = x.drive := by rw [Pump.testAll_eq]

theorem State.tellFault_goes : s.Goes s.tellFault := (s.suspendFlow_goes .a _).trans (State.suspendFlow_goes _ .b _)

theorem State.mayRun_goes : s.Goes s.mayRun := (s.lift_goes .a _).trans (State.lift_goes _ .b _)

theorem State.latch_goes (k : FaultKind) (auto : Bool) : s.Goes (s.latch k auto) :=
  .after (State.raise_goes _ _) <| .after (State.tellFault_goes _) <|
    s.setPump_off _ (by simp [Pump.halt]) (by simp [Pump.halt, Pump.trip, Pump.stop])

theorem State.retry_goes (k : FaultKind) : s.Goes (s.retry k) := by
  refine .after (State.raise_goes _ _) <| .after (State.tellFault_goes _) ?_
  unfold Pump.holdOff
  split
  · exact s.setPump_still _ rfl rfl
  · exact s.setPump_off _ (by simp) rfl

theorem State.report_goes (k : FaultKind) : s.Goes (s.report k) :=
  .ite (fun _ => s.setPump_still _ rfl rfl) fun _ => .after (State.raise_goes _ _) (s.setPump_still _ rfl rfl)

theorem State.act_goes (k : FaultKind) : s.Goes (s.act k) := by
  unfold State.act
  split
  · exact .refl s
  · exact s.report_goes k
  · exact .ite (fun _ => s.retry_goes k) fun _ => s.latch_goes k false
  · exact s.latch_goes k false
  · exact s.latch_goes k true

/-- Out of RETRY_WAIT or LATCHED the drive stays off. -/
theorem State.releasePump_goes (h : s.pump.state = .retryWait ∨ s.pump.state = .latched) : s.Goes s.releasePump := by
  refine .after (State.mayRun_goes _) (s.setPump_goes _ (fun k => ?_) .inl)
  have off : s.pump.drive = false := by
    rw [← Bool.not_eq_true, show s.pump.drive = true ↔ _ from k]
    rcases h with h | h <;> simp [h]
  simp [Pump.driveAgrees, off]

theorem State.followRun_goes : s.Goes s.followRun := by
  unfold State.followRun
  refine .ite (fun run => .ite (fun _ => ?_) fun _ => .refl s) fun _ => .ite (fun _ => ?_) fun _ => .refl s
  · exact s.setPump_goes _ (fun _ => by simp [Pump.driveAgrees, Pump.start]) fun _ => .inr run
  · exact s.setPump_off _ (by simp [Pump.stop]) rfl

theorem State.testNoFlow_goes : s.Goes s.testNoFlow := by
  unfold State.testNoFlow
  refine .ite (fun _ => .ite (fun _ => .ite (fun _ => ?_) fun _ => .refl s) fun _ => ?_) fun _ => .refl s
  · exact s.setPump_still _ rfl rfl
  · exact s.setPump_still _ rfl rfl

/-! ### The load sequencer -/

theorem State.gist_entry {e : Entry} (h : s.loader.current = some e) : s.gist.entry = some e.gist := by
  change s.loader.current.map Entry.gist = _
  rw [h]; rfl

theorem State.gist_at {c : CompId} {x : Compartment} (h : s.comp c = some x) : s.gist.comps.get c = some x.gist := by
  rw [State.gist_comp, h]; rfl

/-- The loader's own figures change; plan, entry and inlets do not show it. -/
theorem State.setLoader_goes (x : Loader) (hp : x.state = s.loader.state)
    (hc : x.current.map Entry.gist = s.loader.current.map Entry.gist) (hi : x.inlets = s.loader.inlets) :
    s.Goes (s.setLoader x) := .of_still (by rw [State.setLoader_gist, hp, hc, hi]; rfl) rfl

theorem State.settleLoad_goes (e : Entry) (x : LoadContext) (k : EndCause) (current : s.loader.current = some e)
    (context : e.context = some x) : s.Goes (s.settleLoad e x k) := by
  refine .of_act (.entry e.gist { e.gist with state := .settling, held := true }
    (s.loader.inlets.set e.comp false) (s.gist_entry current) rfl ?_ ?_ ?_) rfl (.of_ports rfl)
  · simp [Entry.gist, context]
  · intro _; simp [EntryGist.agrees]
  · intro c
    rw [Quad.get_set]
    split
    · intro k; cases k
    · exact id

theorem State.withdraw_goes (n : Notice) : s.Goes (s.withdraw n) := .of_gist rfl (s.withdraw_lines n)

theorem State.clearStageEmpty_goes : s.Goes s.clearStageEmpty :=
  .ite (fun _ => .after (State.withdraw_goes _ _) (s.setLoader_goes _ rfl rfl rfl)) fun _ => .refl s

/-- The plan moves to a state other than NONE, or to NONE once its entry has ended. -/
theorem State.setPlan_goes (x : Loader) (ended : x.state = .none → s.loader.current = none)
    (hc : x.current = s.loader.current) (hi : x.inlets = s.loader.inlets) : s.Goes (s.setLoader x) := by
  refine .of_act (.plan x.state fun h => ?_) (by rw [State.setLoader_gist, hc, hi]; rfl) (.of_ports rfl)
  change s.loader.current.map Entry.gist = none
  rw [ended h]; rfl

theorem State.closePlan_goes (h : s.loader.current = none) : s.Goes s.closePlan :=
  .after (State.clearStageEmpty_goes _) (s.setPlan_goes _ (fun _ => h) rfl rfl)

theorem State.afterEntry_goes (h : s.loader.current = none) : s.Goes s.afterEntry :=
  .ite (fun _ => s.closePlan_goes h) fun _ => .refl s

theorem State.dropEntry_goes (e : Entry) (k : EndCause) (current : s.loader.current = some e)
    (bare : e.gist.agrees → e.context.isSome = false) : s.Goes (s.dropEntry e k) := by
  refine .of_act (.dropEntry e.gist (s.gist_entry current) bare) ?_ (.of_ports rfl)
  rw [State.dropEntry, State.endEntry, State.setLoader_gist, State.modComp_gist _ _ _ (CompGist.mark false) fun _ => rfl]
  rfl

theorem State.reserveSlot_lines : s.LinesTo s.reserveSlot := fun o h => State.testHighMark_lines _ o h

theorem State.promote_goes (head : Staged) (rest : List Staged) (opened : s.loader.state ≠ .none)
    (none : s.loader.current = none) : s.Goes (s.promote head rest) := by
  have paused : s.Goes ((s.setLoader { s.loader with paused := true }).raise .journalFull) :=
    .after (State.raise_goes _ _) (s.setLoader_goes _ rfl rfl rfl)
  refine .ite (fun room => ?_) fun _ => .ite (fun _ => .refl s) fun _ => paused
  have promoted : s.Goes (((s.reserveSlot).setLoader
      { s.reserveSlot.loader with
        paused := false, staged := rest,
        current := some { comp := head.comp, target := head.target, state := .due, context := .none } }).modComp
          head.comp fun x => { x with draining := true }) := by
    refine .of_act (.promote head.comp opened ?_ ?_) ?_ fun o h => s.reserveSlot_lines o h
    · change s.loader.current.map Entry.gist = _
      rw [none]; rfl
    · rw [State.gist_seqs_length]; exact Journal.room_of_canReserve room
    · rw [State.modComp_gist _ _ _ (CompGist.mark true) fun _ => rfl, State.setLoader_gist, State.reserveSlot_gist]
      simp only [State.reserveSlot_frame]
      rfl
  refine .ite (fun _ => ?_) fun _ => promoted
  exact .after (State.raise_goes _ _) <| .after (State.setLoader_goes _ _ rfl rfl rfl) promoted

theorem State.tryPromote_goes : s.Goes s.tryPromote := by
  unfold State.tryPromote
  split
  · next hs hc _ => exact s.promote_goes _ _ (by rw [hs]; simp) hc
  · exact .refl s

theorem State.setEntryState_goes (e : Entry) (x : EntryState) (current : s.loader.current = some e)
    (waits : e.state = .due ∨ e.state = .waiting) (hx : x = .due ∨ x = .waiting) : s.Goes (s.setEntryState e x) := by
  refine .of_act (.entry e.gist { e.gist with state := x } s.loader.inlets (s.gist_entry current) rfl rfl ?_
    fun _ => id) rfl (.of_ports rfl)
  intro k
  have idle (y : EntryState) (hy : y = .due ∨ y = .waiting) : ¬ (y = .loading ∨ y = .settling) := by
    rcases hy with rfl | rfl <;> simp
  exact ⟨fun h => absurd (k.mp h) (idle _ waits), fun h => absurd h (idle _ hx)⟩

theorem Entry.bare {e : Entry} (h : e.state = .due ∨ e.state = .waiting) (k : e.gist.agrees) :
    e.context.isSome = false := by
  rw [← Bool.not_eq_true]
  intro m
  rcases h with h | h <;> rcases k.mp m with l | l <;> exact absurd (h.symm.trans l) (by decide)

theorem State.startLoading_goes (e : Entry) (product : ProductId) (used : Nat) (clamped : Bool) {w : Compartment}
    (current : s.loader.current = some e) (at_c : s.comp e.comp = some w)
    (free : s.arbiter.selector.holds e.comp = false) : s.Goes (s.startLoading e product used clamped) := by
  have start := Gist.Act.startLoad e.gist w.gist (s.gist_entry current) (s.gist_at at_c) free
  have loading : (s.modComp e.comp fun x => { x with state := .loading, settle := none }).gist =
      { s.gist with comps := s.gist.comps.set e.comp (some { w.gist with state := .loading }) } := by
    rw [State.modComp, State.setComp_gist, at_c]; rfl
  -- Where the inlet stays closed, the entry goes straight on to SETTLING.
  have settles (x : LoadContext) (k : EndCause) :
      s.Goes (((s.modComp e.comp fun x => { x with state := .loading, settle := none }).bindChannel .load
        product).settleLoad e x k) := by
    refine ⟨.tail (.single start) ?_, .of_ports rfl⟩
    rw [State.settleLoad, State.setLoader_gist, State.bindChannel_gist, loading]
    exact .entry _ { e.gist with state := .settling, held := true } (s.loader.inlets.set e.comp false) rfl rfl rfl
      (fun _ => by simp [EntryGist.agrees]) fun c => by
        rw [Quad.get_set]
        split
        · intro k; cases k
        · exact id
  refine .ite (fun _ => settles _ _) fun _ => .ite (fun _ => settles _ _) fun _ => ?_
  refine ⟨.tail (.single start) ?_, .of_ports rfl⟩
  rw [State.setLoader_gist, State.bindChannel_gist, loading]
  exact .openInlet e.comp { w.gist with state := .loading } (by simp [Entry.gist]) rfl

theorem State.startTest_goes (e : Entry) (current : s.loader.current = some e)
    (waits : e.state = .due ∨ e.state = .waiting) : s.Goes (s.startTest e) := by
  unfold State.startTest
  split
  · exact .refl s
  · next x hx =>
    refine .ite (fun _ => s.setEntryState_goes e _ current waits (.inl rfl)) fun _ =>
      .ite (fun _ => s.setEntryState_goes e _ current waits (.inr rfl)) fun free => .ite (fun _ => ?_) fun _ => ?_
    · exact .after (State.afterEntry_goes _ rfl) <| .after (State.raise_goes _ _) <|
        s.dropEntry_goes e _ current (Entry.bare waits)
    · exact s.startLoading_goes e _ _ _ current hx (by simpa using (not_or.mp free).1)

theorem State.tryStart_goes : s.Goes s.tryStart := by
  unfold State.tryStart
  split
  · next e current => exact .ite (fun waits => s.startTest_goes e current waits) fun _ => .refl s
  · exact .refl s

theorem State.advance_goes : s.Goes s.advance := by
  unfold State.advance
  have round (u : State) : u.Goes u.tryStart.tryPromote := u.tryStart_goes.trans (State.tryPromote_goes _)
  exact (((((round s).trans (round _)).trans (round _)).trans (round _)).trans (round _)).trans (State.tryStart_goes _)

theorem State.receiveStock_lines (c : CompId) (v : Nat) : s.LinesTo (s.receiveStock c v) := fun o h => by
  refine (State.startSettle_goes _ c).lines o (State.reorderNew_lines _ c o ?_)
  exact h

theorem State.receiveStock_gist (c : CompId) (v : Nat) :
    (s.receiveStock c v).gist = { s.gist with comps := Quad.modify s.gist.comps c CompGist.fill } := by
  rw [State.receiveStock, State.startSettle_gist, State.reorderNew_gist, State.modComp_gist _ _ _ CompGist.fill]
  exact fun _ => rfl

theorem State.storeReserved_lines (b : RecordBody) : s.LinesTo (s.storeReserved b) :=
  fun o h => State.testHighMark_lines _ o h

theorem State.closeReceipt_goes (e : Entry) (x : LoadContext) (k : EndCause) (r : Bool)
    (current : s.loader.current = some e) : s.Goes (s.closeReceipt e x k r) := by
  refine .after (State.raise_goes _ _) (.of_act (.receipt e.gist (s.gist_entry current)) ?_ fun o h => ?_)
  · rw [State.endEntry, State.setLoader_gist, State.receiveStock_gist, State.storeReserved_gist]
    simp only [State.receiveStock_frame, State.storeReserved_frame]
    rfl
  · exact State.receiveStock_lines _ _ _ o (State.storeReserved_lines _ _ o h)

theorem State.stopLoading_goes (k : EndCause) : s.Goes (s.stopLoading k) := by
  unfold State.stopLoading
  split
  · next e current =>
    split
    · next x _ context => exact s.settleLoad_goes e x k current context
    · exact .refl s
  · exact .refl s

theorem State.loadWindow_goes : s.Goes s.loadWindow := by
  unfold State.loadWindow
  split
  · next e current =>
    split
    · next x _ context =>
      refine .ite (fun _ => s.settleLoad_goes e x _ current context) fun _ => .ite (fun _ => ?_) fun _ =>
        .ite (fun _ => ?_) fun _ => .refl s
      · exact s.setLoader_goes _ rfl (by simp [current, Entry.gist, context]) rfl
      · exact s.setLoader_goes _ rfl rfl rfl
    · exact .refl s
  · exact .refl s

/-! ### The blocks that follow -/

theorem State.followWatch_goes (old : State) : s.Goes (s.followWatch old) :=
  .ite (fun _ => .ite (fun _ => .refl s) fun _ => .of_still rfl rfl) fun _ => .of_still rfl rfl

theorem State.settle_goes : s.Goes s.settle := by
  have round (u : State) : u.Goes u.advance.arbitrate := u.advance_goes.trans (State.arbitrate_goes _)
  exact (round s).trans (round _)

theorem State.follow_goes (old : State) : s.Goes (s.follow old) :=
  .after (State.followWatch_goes _ old) <|
    .after (.ite (fun _ => State.testNoFlow_goes _) fun _ => .refl _) <|
      .after (State.followRun_goes _) <| .after (State.settle_goes _) s.followRun_goes

/-- The drive is on only by the run condition (R103). -/
def State.PumpFollows (s : State) : Prop := s.gist.drive = true → s.gist.runs = true

/-- The pump has followed the run condition. -/
theorem State.followRun_rests (agrees : s.gist.driveAgrees) : s.followRun.PumpFollows := by
  have run : s.runCondition = s.gist.runs := s.runCondition_gist
  unfold State.PumpFollows State.followRun
  split
  · next h => split <;> exact fun _ => run ▸ h
  · split
    · intro k; cases k
    · next still => exact fun k => absurd (agrees.mp k) still

theorem State.testNoFlow_gist : s.testNoFlow.gist = s.gist := by
  unfold State.testNoFlow
  dsimp only
  split
  · split
    · split <;> rfl
    · rfl
  · rfl

theorem State.followWatch_gist (old : State) : (s.followWatch old).gist = s.gist := by
  unfold State.followWatch
  split
  · split <;> rfl
  · rfl

theorem State.follow_pumpFollows (old : State) (agrees : s.gist.PumpCalm) : (s.follow old).PumpFollows := by
  have calm := (s.followRun_goes.trans (State.settle_goes _)).path.keeps (fun _ _ => Gist.Act.pumpCalm) agrees
  have rest := State.followRun_rests _ calm.1
  unfold State.PumpFollows State.follow
  rw [State.followWatch_gist]
  split
  · rw [State.testNoFlow_gist]; exact rest
  · exact rest

end blocks

end Sys2Proof.Machine

/-! SUPPORT AND CERTIFICATES. A delivery opens, is lowered and draws on its stock: the acts these are made of. -/

namespace Sys2Proof.Machine

open Sys2Proof

section deliveries

variable (s : State)

/-! ### The stock a delivery draws on -/

/-- The pick of the compartment with the most stock passes its test. -/
theorem State.mostStock_ok {ok : CompId → Bool} {c : CompId} (h : s.mostStock ok = some c) : ok c = true := by
  refine List.foldlRecOn (motive := fun o => ∀ b, o = some b → ok b = true) Num4.all _ (by simp) ?_ c h
  intro best hb d _ b hd
  split at hd
  · next k =>
    split at hd
    · cases hd; exact k
    · split at hd
      · cases hd; exact k
      · exact hb b hd
  · exact hb b hd

theorem State.comp_of_eligible {c : CompId} {q : ProductId} (h : s.eligible c q = true) : (s.comp c).isSome = true := by
  unfold State.eligible at h
  cases hc : s.comp c with
  | none => simp [hc] at h
  | some x => rfl

theorem State.chooseComp_comp {c : CompId} {q : ProductId} (h : s.chooseComp q = some c) :
    (s.comp c).isSome = true := by
  unfold State.chooseComp at h
  split at h
  · next k =>
    cases h
    have := (Option.filter_eq_some_iff.mp k).2
    rw [Bool.and_eq_true] at this
    exact s.comp_of_eligible this.1
  · exact s.comp_of_eligible (s.mostStock_ok (ok := fun d => s.eligible d q) h)

/-- A change of a record makes none and removes none. -/
theorem State.modComp_isSome (c d : CompId) (f : Compartment → Compartment) :
    ((s.modComp c f).comp d).isSome = (s.comp d).isSome := by
  rw [State.modComp_comp]
  split
  · next h => subst h; exact Option.isSome_map
  · rfl

theorem State.markSuctionLost_goes (c : CompId) : s.Goes (s.markSuctionLost c) :=
  .ite (fun _ => .after (State.raise_goes _ _) <| s.modComp_goes c _ fun _ => rfl) fun _ => .refl s

/-- A compartment that is not LOADING, or that the selector holds, changes its state. -/
theorem State.serve_goes (c : CompId) (f : Compartment → Compartment) (y : CompState) {x : Compartment}
    (at_c : s.comp c = some x) (idle : x.state ≠ .loading ∨ s.arbiter.selector.holds c = true) (stays : y ≠ .loading)
    (hf : (f x).gist = { x.gist with state := y }) : s.Goes (s.modComp c f) := by
  refine .of_act (.serve c x.gist y (s.gist_at at_c) idle stays) ?_ (.of_ports rfl)
  rw [State.modComp, State.setComp_gist, at_c, Option.map_some, Option.map_some, hf]

theorem State.markEmpty_goes (c : CompId) (held : s.arbiter.selector.holds c = true) : s.Goes (s.markEmpty c) := by
  refine .ite (fun h => .after (State.raise_goes _ _) ?_) fun _ => .refl s
  cases hc : s.comp c with
  | none => simp [hc] at h
  | some x => exact s.serve_goes c _ .empty hc (.inr held) (by decide) rfl

theorem State.switchTo_goes (p : PointId) (c : CompId) (r : Nat) (hc : (s.comp c).isSome = true) :
    s.Goes (s.switchTo p c r) := by
  unfold State.switchTo
  split
  · exact .refl s
  · next d hd =>
    refine .after (State.startSettle_goes _ _) <| .after (State.setArbiter_goes _ _ rfl rfl rfl) <|
      .after (State.reorderFall_goes _ _) <| .after (State.modComp_goes _ c _ fun _ => rfl) ?_
    refine .of_act (.switch p d.gist c r (s.gist_open hd) ?_) ?_ (.of_ports rfl)
    · rw [State.gist_comp, Option.isSome_map]; exact hc
    · simp only [State.reserveOn_gist, State.setPoint_gist, State.releaseOn_gist, State.gist_point]
      rfl

theorem State.switchOrEnd_goes (c : CompId) (p : PointId) (h : (s.point p).state ≠ .closed) :
    s.Goes (s.switchOrEnd c p) := by
  unfold State.switchOrEnd
  split
  · exact .refl s
  · next x hx =>
    refine .ite (fun _ => s.finish_goes p _ h) fun _ => ?_
    split
    · exact s.finish_goes p _ h
    · next d hd =>
      have target : (s.comp d).isSome = true := by
        have := s.mostStock_ok hd
        rw [State.isTarget, Bool.and_eq_true] at this
        exact s.comp_of_eligible this.2
      refine .ite (fun low => ?_) fun _ => .ite (fun _ => s.finish_goes p _ h) fun _ => s.switchTo_goes p d _ target
      have lowered := s.lowerLimit_goes p (cLof x.current.net_uL + s.availableOn d) .stock fun y hy => by
        rw [hx] at hy; cases hy; omega
      have state : ((s.lowerLimit p (cLof x.current.net_uL + s.availableOn d) .stock).point p).state =
          (s.point p).state := by
        unfold State.lowerLimit; rw [hx]; simp
      have comp : ((s.lowerLimit p (cLof x.current.net_uL + s.availableOn d) .stock).comp d).isSome = true := by
        unfold State.lowerLimit; rw [hx]; exact (State.modComp_isSome _ _ _ _).trans target
      refine lowered.trans (.ite (fun _ => State.finish_goes _ p _ (by rw [state]; exact h)) fun _ => ?_)
      exact .after (State.compareLowered_goes _ p) (State.switchTo_goes _ p d _ comp)

theorem State.open_of_losesSuction {c : CompId} {p : PointId} (h : s.losesSuction c p = true) :
    (s.point p).state ≠ .closed := by
  rw [State.losesSuction, Bool.and_eq_true] at h
  exact PointState.open_of_unfinished h.2

theorem State.switchIf_goes (c : CompId) (p : PointId) : s.Goes (s.switchIf c p) :=
  .ite (fun h => s.switchOrEnd_goes c p (s.open_of_losesSuction h)) fun _ => .refl s

theorem State.suspendIf_goes (c : CompId) (p : PointId) : s.Goes (s.suspendIf c p) :=
  .ite (fun _ => s.suspendFlow_goes p _) fun _ => .refl s

theorem State.loseSuction_goes (c : CompId) : s.Goes (s.loseSuction c) := by
  have both (u : State) (p q : PointId) : u.Goes ((u.switchIf c p).switchIf c q) :=
    (u.switchIf_goes c p).trans (State.switchIf_goes _ c q)
  unfold State.loseSuction
  refine ((s.suspendIf_goes c .a).trans (State.suspendIf_goes _ c .b)).trans ?_
  generalize (s.suspendIf c .a).suspendIf c .b = u
  dsimp only
  split
  · refine State.Goes.trans (t := { u with choices := u.choices + 1 }) (.of_still rfl rfl) ?_
    split <;> exact both _ _ _
  · exact both _ _ _

theorem State.dryRun_goes (c : CompId) (held : s.arbiter.selector.holds c = true) : s.Goes (s.dryRun c) := by
  refine (s.markSuctionLost_goes c).trans (.ite (fun _ => ?_) fun _ => .refl _)
  exact .after (State.loseSuction_goes _ c) (State.markEmpty_goes _ c (by simpa using held))

theorem State.act_selector (k : FaultKind) : (s.act k).arbiter.selector = s.arbiter.selector := by
  have suspend (u : State) (p : PointId) (x : Cause) : (u.suspendFlow p x).arbiter.selector = u.arbiter.selector := by
    unfold State.suspendFlow
    split
    · exact (Arbiter.holdClaim_outputs _ p).1
    · rfl
  have tell (u : State) : u.tellFault.arbiter.selector = u.arbiter.selector := (suspend _ _ _).trans (suspend _ _ _)
  have latch (auto : Bool) : (s.latch k auto).arbiter.selector = s.arbiter.selector := by
    rw [State.latch, State.raise_arbiter, tell, State.setPump_arbiter]
  have retry : (s.retry k).arbiter.selector = s.arbiter.selector := by
    rw [State.retry, State.raise_arbiter, tell, State.setPump_arbiter]
  unfold State.act
  split
  · rfl
  · simp
  · split
    · exact retry
    · exact latch false
  · exact latch false
  · exact latch true

theorem State.detect_goes (k : FaultKind) : s.Goes (s.detect k) := by
  refine State.Goes.trans (s.setPump_still { s.pump with deglitch := s.pump.deglitch.set k none } rfl rfl) ?_
  unfold State.detect
  generalize s.setPump { s.pump with deglitch := s.pump.deglitch.set k none } = t
  dsimp only
  split
  · next c h => exact .after (State.dryRun_goes _ c (by rw [State.act_selector, h]; simp [Selector.holds])) (t.act_goes _)
  · exact t.act_goes _

/-! ### Opening -/

theorem State.bindChannel_goes (c : ChannelId) (q : ProductId) : s.Goes (s.bindChannel c q) := .of_still rfl rfl

/-- What an authorisation has checked lets the delivery open. -/
theorem State.openDelivery_goes (p : PointId) (r : AuthRequest) (a : Account) (c : CompId) (limit : Nat)
    (source : LimitSource) (price : Nat) (closed : (s.point p).state = .closed) (run : s.power.state = .run)
    (alone : s.machineBusy p r.machine.number = false) (machine : (findMachine s.roster r.machine.number).isSome = true)
    (account : (findAccount s.accounts a.number).isSome = true) (comp : (s.comp c).isSome = true)
    (room : s.journal.canReserve = true) : s.Goes (s.openDelivery p r a c limit source price) := by
  refine .of_act (.openDelivery p
    { machine := r.machine.number, account := a.number, comp := c, limit := limit, price := price,
      reservation := reservationFor limit price, remaining := limit } ?_ ?_ ?_ ⟨machine, account, ?_, rfl⟩ ?_) ?_ ?_
  · rw [State.gist_point]; exact closed
  · change s.power.state ≠ .inReset
    rw [run]; decide
  · intro e he
    rw [State.gist_point] at he
    obtain ⟨d, hd, rfl⟩ := Option.map_eq_some_iff.mp he
    intro k
    have : d.machine = r.machine.number := k.symm
    simp [State.machineBusy, hd, this] at alone
  · rw [State.gist_comp, Option.isSome_map]; exact comp
  · rw [State.gist_seqs_length]; exact Journal.room_of_canReserve room
  · unfold State.openDelivery
    simp only [State.setCoupler_gist, State.setPoint_gist, State.bindChannel_gist, State.reserveSlot_gist,
      State.reorderFall_gist, State.stopSettle_gist, State.reserveOn_gist, State.modAccount_gist, State.modMachine_gist]
    simp
    exact ⟨rfl, rfl, rfl⟩
  · intro o h
    refine State.reserveSlot_lines _ o (State.reorderFall_lines _ c o ?_)
    exact h

end deliveries

end Sys2Proof.Machine

/-! SUPPORT AND CERTIFICATES. A delivery closes, a window ends, time and roles move: the acts these are made of. -/

namespace Sys2Proof.Machine

open Sys2Proof

section closing

variable (s : State)

theorem findMachine_self {l : List MachineRec} {m : MachineRec} (h : m ∈ l) : (findMachine l m.number).isSome = true := by
  rw [findMachine, List.find?_isSome]
  exact ⟨m, h, beq_self_eq_true _⟩

/-- What an accepted authorisation has passed (R53). -/
theorem State.checkAuth_ok {p : PointId} {r : AuthRequest} {a : Account} {c : CompId} {limit price : Nat}
    {source : LimitSource} (h : s.checkAuth p r = .ok (a, c, limit, source, price)) :
    s.power.state = .run ∧ s.machineBusy p r.machine.number = false ∧
      findAccount s.accounts r.machine.account = some a ∧ s.chooseComp r.machine.product = some c ∧
      s.journal.canReserve = true := by
  unfold State.checkAuth at h
  split at h
  · cases h
  next run =>
  split at h
  · cases h
  next alone =>
  split at h
  · cases h
  split at h
  · cases h
  next found =>
  split at h
  · cases h
  split at h
  · cases h
  split at h
  · cases h
  next chosen =>
  split at h
  · cases h
  next room =>
  dsimp only at h
  split at h
  · cases h
  simp only [Except.ok.injEq, Prod.mk.injEq] at h
  obtain ⟨rfl, rfl, -⟩ := h
  exact ⟨not_not.mp run, by simpa using alone, found, chosen, by simpa using room⟩

/-- The machine and account of an authorisation are in their tables, and what it opens is a chain of acts. -/
theorem State.authorise_goes {p : PointId} {r : AuthRequest} {u : State} (h : s.authorise p r = .ok u)
    (closed : (s.point p).state = .closed) (machine : r.machine ∈ s.roster) : s.Goes u := by
  unfold State.authorise at h
  split at h
  · cases h
  · next a c limit source price k =>
    cases h
    obtain ⟨run, alone, found, chosen, room⟩ := s.checkAuth_ok k
    have number : a.number = r.machine.account := by simpa using List.find?_some found
    refine s.openDelivery_goes p r a c limit source price closed run alone (findMachine_self machine) ?_
      (s.chooseComp_comp chosen) room
    rw [number, found]; rfl

/-! ### Closing -/

/-- Records are stored, and nothing else of the gist changes: wherever the journal stands so, the same acts store them. -/
structure State.Logs (s t : State) : Prop where
  stored : ∃ seqs next, t.gist = { s.gist with seqs := seqs, next := next } ∧
    ∀ g : Gist, g.seqs = s.gist.seqs → g.next = s.gist.next → g.reserved = s.gist.reserved →
      g.Path { g with seqs := seqs, next := next }
  lines : s.LinesTo t

variable {s} in
theorem State.Logs.of_still {t : State} (hg : t.gist = s.gist) (hl : s.LinesTo t) : s.Logs t := by
  refine ⟨⟨s.gist.seqs, s.gist.next, hg, fun g hs hn _ => ?_⟩, hl⟩
  rw [← hs, ← hn]

theorem State.Logs.refl : s.Logs s := .of_still rfl fun _ h => h

variable {s} in
theorem State.Logs.trans {t u : State} (h : s.Logs t) (k : t.Logs u) : s.Logs u := by
  obtain ⟨l, n, ht, first⟩ := h.stored
  obtain ⟨m, o, hu, second⟩ := k.stored
  refine ⟨⟨m, o, by rw [hu, ht], fun g hs hn hr => ?_⟩, h.lines.trans k.lines⟩
  exact (first g hs hn hr).trans (second { g with seqs := l, next := n } (by rw [ht]) (by rw [ht]) (by rw [ht]; exact hr))

variable {s} in
theorem State.Logs.after {t u : State} (k : t.Logs u) (h : s.Logs t) : s.Logs u := h.trans k

theorem State.raise_logs (n : Notice) : s.Logs (s.raise n) := .of_still rfl (s.raise_lines n)

theorem State.storeSystem_logs (b : RecordBody) : s.Logs (s.storeSystem b) := by
  unfold State.storeSystem
  split
  · next h =>
    refine ⟨⟨_, _, s.store_gist b, fun g hs hn hr => ?_⟩, (s.store_goes b h).lines⟩
    rw [← hs, ← hn]
    refine .single (.store ?_)
    rw [hs, hr, State.gist_seqs_length]
    exact (Journal.hasRoom_iff _).mp h
  · exact .refl s

theorem State.modComp_logs (c : CompId) (f : Compartment → Compartment) (hf : ∀ x, (f x).gist = x.gist) :
    s.Logs (s.modComp c f) := .of_still (s.modComp_gist_same c f hf) (.of_ports rfl)

theorem State.chargeBook_logs (c : CompId) (p : PointId) (m v : Nat) : s.Logs (s.chargeBook c p m v) := by
  have fall (u : State) : u.Logs (u.reorderFall c) := .of_still (u.reorderFall_gist c) (u.reorderFall_lines c)
  unfold State.chargeBook
  split
  · exact .refl s
  · split
    · exact .after (fall _) <| s.modComp_logs c _ fun _ => rfl
    · exact .after (fall _) <| .after (State.raise_logs _ _) <|
        .after (State.modComp_logs _ c _ fun _ => rfl) <| s.storeSystem_logs _

theorem State.chargeBooks_logs (p : PointId) (m : Nat) (l : List (CompId × Nat)) :
    s.Logs (l.foldl (fun s x => s.chargeBook x.1 p m x.2) s) := by
  induction l generalizing s with
  | nil => exact .refl s
  | cons x l ih =>
    have first := s.chargeBook_logs x.1 p m x.2
    have rest := ih (s.chargeBook x.1 p m x.2)
    exact first.trans rest

/-- The reservations and the slot of a closed delivery, the point aside. -/
def Gist.released (g : Gist) (d : DeliveryGist) : Gist :=
  { g with
    roster := modRoster d.machine (MachineRec.hold 0) g.roster
    accounts := modAccounts d.account (Account.book (· - d.reservation)) g.accounts
    comps := Quad.modify g.comps d.comp (CompGist.book (· - d.remaining)) }

theorem State.releaseDelivery_gist (p : PointId) (d : Delivery) :
    (s.releaseDelivery p d).gist = s.gist.released d.gist := by
  simp only [State.releaseDelivery, State.unbindChannel_gist, State.releaseOn_gist, State.modAccount_gist,
    State.modMachine_gist]
  rfl

theorem State.quietPoint_gist (p : PointId) :
    (s.quietPoint p).gist =
      { s.gist with
        points := s.gist.points.set p { (s.point p).gist with fast := false, slow := false } } := by
  simp only [State.quietPoint, State.setArbiter_gist, State.stopGrace_gist, State.setPoint_gist]
  rfl

theorem State.chargeAccount_gist (n v : Nat) :
    (s.chargeAccount n v).gist = { s.gist with accounts := modAccounts n (fun a => a.charge v) s.gist.accounts } := by
  unfold State.chargeAccount
  dsimp only
  split <;> rfl

theorem State.chargeAccount_lines (n v : Nat) : s.LinesTo (s.chargeAccount n v) := by
  unfold State.chargeAccount
  dsimp only
  split
  · exact fun o h => State.raise_lines _ _ o h
  · exact fun _ h => h

/-- Two changes of the machine numbered `n`, one of them of what it has reserved, in either order. -/
theorem modRoster_comm {f g : MachineRec → MachineRec} (hf : ∀ m, (f m).number = m.number)
    (hg : ∀ m, (g m).number = m.number) (comm : ∀ m, f (g m) = g (f m)) (n : Nat) (l : List MachineRec) :
    modRoster n f (modRoster n g l) = modRoster n g (modRoster n f l) := by
  simp only [modRoster, List.map_map]
  refine List.map_congr_left fun m _ => ?_
  simp only [Function.comp_apply]
  split
  · next h => simp [hf, hg, h, comm]
  · rfl

theorem modAccounts_comm {f g : Account → Account} (hf : ∀ a, (f a).number = a.number)
    (hg : ∀ a, (g a).number = a.number) (comm : ∀ a, f (g a) = g (f a)) (n : Nat) (l : List Account) :
    modAccounts n f (modAccounts n g l) = modAccounts n g (modAccounts n f l) := by
  simp only [modAccounts, List.map_map]
  refine List.map_congr_left fun m _ => ?_
  simp only [Function.comp_apply]
  split
  · next h => simp [hf, hg, h, comm]
  · rfl

/-- The charge of a machine and an account: figures that no invariant reads. -/
def Gist.charged (g : Gist) (machine : Nat) (f : MachineRec → MachineRec) (account : Nat) (v : Nat) : Gist :=
  { g with
    roster := modRoster machine f g.roster
    accounts := modAccounts account (fun a => a.charge v) g.accounts }

theorem Gist.charged_path (g : Gist) (m n : Nat) (f : MachineRec → MachineRec) (v : Nat)
    (hf : ∀ x, (f x).number = x.number ∧ (f x).tagId = x.tagId ∧ (f x).reserved = x.reserved) :
    g.Path (g.charged m f n v) := by
  refine .tail (.single (.roster (fun x => if x.number = m then f x else x) fun x => ?_))
    (.accounts (fun a => if a.number = n then a.charge v else a) fun a => ?_)
  · split
    · exact hf x
    · exact ⟨rfl, rfl, rfl⟩
  · split <;> exact ⟨rfl, rfl⟩

/-- A charge writes what its segments call for and then the delivery's own record into its slot. -/
theorem State.chargeDelivery_logs (p : PointId) (d : Delivery) (k : EndCause) (r : Bool) :
    ∃ seqs next,
      (s.chargeDelivery p d k r).gist =
        { s.gist.charged d.machine (fun m => m.charge (cLof d.net_uL) d.hours) d.account
            (billAmount (cLof d.net_uL) d.price) with
          seqs := seqs ++ [next], next := next + 1, reserved := s.gist.reserved - 1 } ∧
      (∀ g : Gist, g.seqs = s.gist.seqs → g.next = s.gist.next → g.reserved = s.gist.reserved →
        g.Path { g with seqs := seqs, next := next }) ∧
      s.LinesTo (s.chargeDelivery p d k r) := by
  have charged : ((s.modMachine d.machine fun m => m.charge (cLof d.net_uL) d.hours).chargeAccount d.account
      (billAmount (cLof d.net_uL) d.price)).gist = s.gist.charged d.machine
        (fun m => m.charge (cLof d.net_uL) d.hours) d.account (billAmount (cLof d.net_uL) d.price) :=
    State.chargeAccount_gist _ _ _
  have lines : s.LinesTo ((s.modMachine d.machine fun m => m.charge (cLof d.net_uL) d.hours).chargeAccount d.account
      (billAmount (cLof d.net_uL) d.price)) :=
    fun o h => State.chargeAccount_lines _ _ _ o h
  unfold State.chargeDelivery
  dsimp only
  generalize (s.modMachine d.machine fun m => m.charge (cLof d.net_uL) d.hours).chargeAccount d.account
    (billAmount (cLof d.net_uL) d.price) = t at charged lines ⊢
  have logs := t.chargeBooks_logs p d.machine d.charges
  obtain ⟨seqs, next, gist, path⟩ := logs.stored
  rw [charged] at gist path
  refine ⟨seqs, next, ?_, path, fun o h => State.storeReserved_lines _ _ o (logs.lines o (lines o h))⟩
  rw [State.tallyDelivery, State.setJournal_gist]
  exact (State.storeReserved_gist _ _).trans (by rw [gist]; rfl)

/-- A point once closed, whatever it was (R88). -/
theorem State.setClosed_gist (p : PointId) (l : LastClose) (hf : (s.point p).fastValve = false)
    (hs : (s.point p).slowValve = false) :
    (s.setPoint p ((s.point p).closed l)).gist =
      { s.gist with points := s.gist.points.set p { state := .closed, fast := false, slow := false, open? := none } } := by
  rw [State.setPoint_gist]
  simp only [Point.gist, Point.closed, hf, hs]
  rfl

theorem State.returnSlot_gist : s.returnSlot.gist = { s.gist with reserved := s.gist.reserved - 1 } := rfl

theorem State.close_goes (p : PointId) (k : EndCause) (r : Bool) : s.Goes (s.close p k r) := by
  unfold State.close
  split
  · exact .refl s
  · next d hd =>
    have opened := s.gist_open hd
    refine .after (State.startSettle_goes _ _) <| .after (State.raise_goes _ _) ?_
    have quiet := ((s.quietPoint p).releaseDelivery_gist p d).trans (congrArg (·.released d.gist) (s.quietPoint_gist p))
    have point : ((s.quietPoint p).releaseDelivery p d).point p = (s.quietPoint p).point p := by simp
    have shut : (((s.quietPoint p).releaseDelivery p d).point p).fastValve = false ∧
        (((s.quietPoint p).releaseDelivery p d).point p).slowValve = false := by
      rw [point]; simp [State.quietPoint, Point.shut, Point.stopTimers]
    have lines : s.LinesTo ((s.quietPoint p).releaseDelivery p d) := .of_ports rfl
    generalize (s.quietPoint p).releaseDelivery p d = t at quiet shut lines ⊢
    cases void : d.isVoid k
    · simp only [Bool.false_eq_true, if_false]
      obtain ⟨seqs, next, gist, path, kept⟩ := t.chargeDelivery_logs p d k r
      rw [quiet] at gist path
      have act := Gist.Act.closeDelivery
        (g := { s.gist.charged d.machine (fun m => m.charge (cLof d.net_uL) d.hours) d.account
                  (billAmount (cLof d.net_uL) d.price) with seqs := seqs, next := next }) p d.gist true opened
      have whole := ((s.gist.charged_path d.machine d.account (fun m => m.charge (cLof d.net_uL) d.hours)
        (billAmount (cLof d.net_uL) d.price) fun _ => ⟨rfl, rfl, rfl⟩).trans (path _ rfl rfl rfl)).tail act
      have same : ((t.chargeDelivery p d k r).point p) = t.point p := by simp
      refine ⟨cast (congrArg _ ?_) whole, fun o h => kept o (lines o h)⟩
      rw [State.setClosed_gist _ p _ (by rw [same]; exact shut.1) (by rw [same]; exact shut.2), gist]
      simp [Gist.charged, Gist.released]
      exact ⟨modRoster_comm (by intro _; rfl) (by intro _; rfl) (by intro _; rfl) _ _,
        modAccounts_comm (by intro _; rfl) (by intro _; rfl) (by intro _; rfl) _ _⟩
    · simp only [if_true]
      refine .of_act (.closeDelivery p d.gist false opened) ?_ lines
      rw [t.returnSlot.setClosed_gist p _ shut.1 shut.2, State.returnSlot_gist, quiet]
      simp [Gist.released]

theorem State.close_closed (p : PointId) (k : EndCause) (r : Bool) {d : Delivery} (h : (s.point p).context = some d) :
    ((s.close p k r).point p).state = .closed := by
  unfold State.close
  rw [h]
  simp [Point.closed]

theorem State.raiseRefused_goes (x : AuthRefusal) : s.Goes (s.raiseRefused x) :=
  .after (.ite (fun _ => State.raise_goes _ _) fun _ => .refl _) (s.raise_goes _)

theorem State.rearm_goes (p : PointId) (d : Delivery) (q : Option Preset) (closed : (s.point p).state = .closed) :
    s.Goes (s.rearm p d q) := by
  unfold State.rearm
  split
  · exact s.raiseRefused_goes _
  · next m hm =>
    dsimp only
    split
    · next u hu =>
      exact .after (State.authorise_goes _ hu (by simpa using closed) (List.mem_of_find?_eq_some hm))
        (s.setPoint_goes p _ rfl)
    · exact s.raiseRefused_goes _

theorem State.closeOn_goes (p : PointId) (k : EndCause) : s.Goes (s.closeOn p k) := by
  unfold State.closeOn
  split
  · exact .refl s
  · next d hd =>
    exact .ite (fun _ => (s.close_goes p k false).trans (State.rearm_goes _ p d _ (s.close_closed p k false hd)))
      fun _ => s.close_goes p k false

/-! ### Windows -/

/-- A window hands its volume on: limits, reservations and states stay. -/
theorem State.handOver_goes (c : ChannelId) (w : WindowResult) : s.Goes (s.handOver c w) := by
  have taken (p : PointId) :
      s.Goes (s.setPoint p { s.point p with context := (s.point p).context.map fun d => d.take w }) := by
    refine s.setPoint_goes p _ ?_
    simp only [Point.gist, Option.map_map]
    rfl
  cases c with
  | a => exact taken .a
  | b => exact taken .b
  | load =>
    refine s.setLoader_goes _ rfl ?_ rfl
    simp only [Option.map_map]
    refine congrArg (Option.map · _) (funext fun e => ?_)
    simp [Entry.gist]

theorem State.endWindow_goes (c : ChannelId) (probe : Option Int) : s.Goes (s.endWindow c probe) := by
  unfold State.endWindow
  refine .ite (fun _ => ?_) fun _ => .ite (fun _ => ?_) fun _ => .of_still rfl rfl
  · exact .after (State.handOver_goes _ _ _) (.of_still rfl rfl)
  · exact .after (State.raise_goes _ _) (.of_still rfl rfl)

/-! ### Clock and prices -/

theorem State.takeOver_goes (x : PriceTable) (k : TakeOver) : s.Goes (s.takeOver x k) := by
  refine .after (State.raise_goes _ _) <| .after (State.storeSystem_goes _ _) ?_
  exact .of_still rfl rfl

theorem State.closeTally_goes (p n : ShiftId) : s.Goes (s.closeTally p n) := by
  unfold State.closeTally
  refine .ite (fun h => ?_) fun _ => .of_still rfl rfl
  exact .trans (s.store_goes _ h) (.of_still rfl rfl)

theorem State.rollover_goes (n : ShiftId) : s.Goes (s.rollover n) := by
  have prices (u : State) : u.Goes u.shiftPrices := by
    unfold State.shiftPrices
    split
    · exact u.takeOver_goes _ _
    · exact .refl u
  refine .after (State.raise_goes _ _) <| .after (State.reconcileAll_goes _ _) <| .after (prices _) ?_
  have named : s.Goes (s.setClock { s.clock with shift := n }) := .of_still rfl rfl
  refine (named.trans (State.closeTally_goes _ s.clock.shift n)).trans ?_
  refine .of_act (.roster (fun m => m.clearUsage s.clock.shift n) fun m => ?_) rfl (.of_ports rfl)
  unfold MachineRec.clearUsage
  split <;> exact ⟨rfl, rfl, rfl⟩

theorem State.evaluateShift_goes : s.Goes s.evaluateShift := .ite (fun _ => s.rollover_goes _) fun _ => .refl s

theorem State.loseClock_goes : s.Goes s.loseClock := .after (State.raise_goes _ _) (.of_still rfl rfl)

theorem State.passMinute_goes : s.Goes s.passMinute :=
  .ite (fun _ => .after (State.loseClock_goes _) (.of_still rfl rfl)) fun _ => .of_still rfl rfl

/-! ### Ports and roles -/

theorem State.denyRequest_goes : s.Goes s.denyRequest := by
  unfold State.denyRequest
  split
  · exact .refl s
  · exact .after (State.raiseOn_goes _ _ _) (.of_still rfl rfl)

theorem State.moveRole_goes (o : PortId) : s.Goes (s.moveRole o) := by
  have moved : s.Goes ((s.setRoles { s.roles with holder := o, requester := none, answer := none }).raise .roleChanged) :=
    .after (State.raise_goes _ _) (.of_still rfl rfl)
  unfold State.moveRole
  dsimp only
  split
  · exact .after (State.raiseOn_goes _ _ _) moved
  · exact moved

theorem State.applyLapse_goes : s.Goes s.applyLapse := by
  unfold State.applyLapse
  split
  · exact .ite (fun _ => s.moveRole_goes _) fun _ => .refl s
  · exact .refl s

/-- A port's silence changes, its notices and line do not. -/
theorem State.setPort_goes (o : PortId) (x : Port) (hx : (s.port o).lineAgrees → x.lineAgrees) :
    s.Goes (s.setPort o x) := .of_gist rfl (s.setPort_lines o x hx)

theorem State.frameReceived_goes (o : PortId) : s.Goes (s.frameReceived o) := by
  refine (s.setPort_goes o { s.port o with silence := 0 } id).trans (.ite (fun _ => ?_) fun _ => .refl _)
  refine .after (State.lift_goes _ _ _) <| .after (State.lift_goes _ _ _) ?_
  exact .of_still rfl rfl

/-! ### Resets -/

theorem Port.reset_agrees : Port.reset.lineAgrees := by
  unfold Port.lineAgrees; decide

theorem State.enterReset_goes : s.Goes s.enterReset := by
  refine .of_act .reset ?_ fun o _ => by cases o <;> exact Port.reset_agrees
  have comps : (s.stock.map fun x => x.map Compartment.reset).map (fun x => x.map Compartment.gist) =
      s.stock.map fun x => x.map Compartment.gist := by
    simp only [Quad.map, Option.map_map]
    rfl
  simp only [State.gist, State.enterReset, comps]
  rfl

end closing

end Sys2Proof.Machine

/-! SUPPORT AND CERTIFICATES. What every row's effect is made of; the frames, and the commands of any port and of the ACCOUNT role. -/

namespace Sys2Proof.Machine

open Sys2Proof

section turns

variable {s : State}

/-! ### What every row does -/

/-- A row's whole effect: a chain of acts with the attention lines right, and a pump that again runs only as its run
condition lets it. -/
structure State.Turns (s t : State) : Prop where
  goes : s.Goes t
  pump : s.gist.PumpCalm → s.PumpFollows → t.PumpFollows

theorem State.Turns.refl (s : State) : s.Turns s := ⟨.refl s, fun _ h => h⟩

theorem State.Turns.trans {t u : State} (h : s.Turns t) (k : t.Turns u) : s.Turns u :=
  ⟨h.goes.trans k.goes, fun calm follows =>
    k.pump (h.goes.path.keeps (fun _ _ => Gist.Act.pumpCalm) calm) (h.pump calm follows)⟩

theorem State.Turns.after {t u : State} (k : t.Turns u) (h : s.Turns t) : s.Turns u := h.trans k

theorem State.Turns.of_gist {t : State} (hg : t.gist = s.gist) (hl : s.LinesTo t) : s.Turns t :=
  ⟨.of_gist hg hl, fun _ h => by unfold State.PumpFollows; rw [hg]; exact h⟩

theorem State.Turns.of_still {t : State} (hg : t.gist = s.gist) (hp : t.ports = s.ports) : s.Turns t :=
  .of_gist hg (.of_ports hp)

/-- The blocks have followed (R103). -/
theorem State.Turns.follow {t : State} (h : s.Goes t) (old : State) : s.Turns (t.follow old) :=
  ⟨h.trans (t.follow_goes old), fun calm _ =>
    t.follow_pumpFollows old (h.path.keeps (fun _ _ => Gist.Act.pumpCalm) calm)⟩

/-- The drive, the points that flow and the selector are as they were. -/
theorem State.Turns.of_flow {t : State} (h : s.Goes t) (drive : t.pump.drive = s.pump.drive)
    (flow : ∀ p, t.flowingOnHeld p = s.flowingOnHeld p) : s.Turns t := by
  refine ⟨h, fun _ follows on => ?_⟩
  rw [← State.runCondition_gist, State.runCondition, flow, flow]
  rw [show t.gist.drive = s.gist.drive from drive] at on
  exact s.runCondition_gist.trans (follows on)

/-- The points, the pump and the selector are as they were. -/
theorem State.Turns.of_parts {t : State} (h : s.Goes t) (points : t.points = s.points) (pump : t.pump = s.pump)
    (arbiter : t.arbiter = s.arbiter) : s.Turns t :=
  .of_flow h (congrArg _ pump) fun p => by
    simp only [State.flowingOnHeld, State.drawsOn, State.segmentComp, State.point, points, arbiter]

/-- The drive is off. -/
theorem State.Turns.of_off {t : State} (h : s.Goes t) (off : s.gist.PumpCalm → t.pump.drive = false) : s.Turns t :=
  ⟨h, fun calm _ on => absurd ((off calm).symm.trans on) (by decide)⟩

theorem State.Turns.ite {c : Prop} [Decidable c] {t u : State} (ht : c → s.Turns t) (hu : ¬ c → s.Turns u) :
    s.Turns (if c then t else u) := by
  split
  · next h => exact ht h
  · next h => exact hu h

theorem State.Turns.ite_body {c : Prop} [Decidable c] {x y : State × Reply} (hx : c → s.Turns x.1)
    (hy : ¬ c → s.Turns y.1) : s.Turns (if c then x else y).1 := by
  split
  · next h => exact hx h
  · next h => exact hy h

variable (s)

/-! ### Frames (R173 to R178) -/

theorem State.answer_turns (o : PortId) (x : Response) : s.Turns (s.answer o x) := .of_gist rfl (s.answer_goes o x).lines

theorem State.raiseOn_turns (o : PortId) (n : Notice) : s.Turns (s.raiseOn o n) := .of_gist rfl (s.raiseOn_lines o n)

theorem State.queueExtra_turns (o : PortId) (x : Response) : s.Turns (s.queueExtra o x) :=
  .ite (fun _ => .refl s) fun _ => .of_gist rfl (s.setPort_lines o _ id)

theorem State.reply_turns (o : PortId) (x : Response) : s.Turns (s.reply o x) :=
  .ite (fun _ => s.queueExtra_turns o x) fun _ => s.answer_turns o x

/-- A lift is from a suspended state to a suspended state: no flow begins or ends. -/
theorem State.lift_flowing (p q : PointId) (k : Cause) : (s.lift p k).flowingOnHeld q = s.flowingOnHeld q := by
  unfold State.lift
  split
  · next h =>
    by_cases e : q = p
    · subst e
      simp only [State.flowingOnHeld, State.setPoint_arbiter, State.setPoint_point, if_true, h, PointState.isFlowing,
        Bool.false_and]
    · simp only [State.flowingOnHeld, State.drawsOn, State.segmentComp, State.setPoint_arbiter, State.setPoint_point, e,
        if_false]
  · rfl

theorem State.lift_turns (p : PointId) (k : Cause) : s.Turns (s.lift p k) :=
  .of_flow (s.lift_goes p k) (by simp) fun q => s.lift_flowing p q k

theorem State.frameReceived_turns (o : PortId) : s.Turns (s.frameReceived o) := by
  have heard : s.Turns (s.setPort o { s.port o with silence := 0 }) := .of_gist rfl (s.setPort_lines o _ id)
  refine heard.trans (.ite (fun _ => ?_) fun _ => .refl _)
  exact .after (State.lift_turns _ _ _) <| .after (State.lift_turns _ _ _) <| .of_still rfl rfl

theorem State.framed_turns (r : Req) (code : Nat) (access : Access) (body : State → State × Reply)
    (h : ∀ u : State, u.Turns (body u).1) : s.Turns (s.framed r code access body) := by
  have heard := s.frameReceived_turns r.port
  unfold State.framed
  generalize s.frameReceived r.port = t at heard ⊢
  refine heard.trans (.ite (fun _ => t.queueExtra_turns _ _) fun _ => .ite (fun _ => t.answer_turns _ _) fun _ =>
    .ite (fun _ => ?_) fun _ => ?_)
  · exact .after (State.answer_turns _ _ _) (h t)
  · exact .after (State.answer_turns _ _ _) (t.raiseOn_turns _ _)

/-! ### Commands of any port -/

theorem State.moveRole_turns (o : PortId) : s.Turns (s.moveRole o) :=
  .of_parts (s.moveRole_goes o) (by simp) (by simp) (by simp)

theorem bodyGetStatus_turns (n : Nat) : s.Turns (bodyGetStatus n s).1 := by
  unfold bodyGetStatus; split <;> exact .refl s

theorem bodyGetMachine_turns (k : Nat) (v : BitVec 64) : s.Turns (bodyGetMachine k v s).1 := by
  unfold bodyGetMachine; split <;> exact .refl s

theorem bodyGetAccount_turns (n : Nat) : s.Turns (bodyGetAccount n s).1 := by
  refine .ite_body (fun _ => ?_) fun _ => .refl s
  split <;> exact .refl s

theorem bodyGetStock_turns (n : Nat) : s.Turns (bodyGetStock n s).1 := by
  unfold bodyGetStock
  split
  · exact .refl s
  · split <;> exact .refl s

theorem bodyReadJournal_turns (q : SeqNo) (n : Nat) : s.Turns (bodyReadJournal q n s).1 := by
  refine .ite_body (fun _ => ?_) fun _ => .refl s
  split <;> exact .refl s

/-- A port's mask, enable and pending set change with its line following. -/
theorem State.setPort_turns (o : PortId) (x : Port) (h : x.lineAgrees) : s.Turns (s.setPort o x) :=
  .of_gist rfl (s.setPort_lines o x fun _ => h)

theorem bodySetNoticeMask_turns (o : PortId) (m e : Nat) : s.Turns (bodySetNoticeMask o m e s).1 := by
  unfold bodySetNoticeMask
  split
  · exact .ite_body (fun _ => s.setPort_turns o _ rfl) fun _ => .refl s
  · exact .refl s

theorem bodyRequestAccountRole_turns (o : PortId) : s.Turns (bodyRequestAccountRole o s).1 := by
  refine .ite_body (fun _ => .refl s) fun _ => .ite_body (fun _ => s.moveRole_turns o) fun _ =>
    .ite_body (fun _ => .refl s) fun _ => ?_
  exact .after (State.raiseOn_turns _ _ _) (.of_still rfl rfl)

/-! ### Commands of the ACCOUNT role -/

theorem State.setRoster_turns (l : List MachineRec) (h : s.gist.Path { s.gist with roster := l }) :
    s.Turns (s.setRoster l) := .of_parts ⟨h, .of_ports rfl⟩ rfl rfl rfl

theorem State.setAccounts_turns (l : List Account) (h : s.gist.Path { s.gist with accounts := l }) :
    s.Turns (s.setAccounts l) := .of_parts ⟨h, .of_ports rfl⟩ rfl rfl rfl

theorem State.tag_of_tagInUse {t : Option TagId} {n : Nat} (h : s.tagInUse t n = false) (u : TagId) (hu : t = some u) :
    ∀ y ∈ s.roster, y.number ≠ n → y.tagId ≠ some u := by
  subst hu
  simp only [State.tagInUse, List.any_eq_false, Bool.and_eq_true, beq_iff_eq, bne_iff_ne, not_and] at h
  exact fun y hy hn k => h y hy k hn

theorem bodyPutMachine_turns (raw : RawMachine) : s.Turns (bodyPutMachine raw s).1 := by
  unfold bodyPutMachine
  split
  · exact .refl s
  · next m _ =>
    refine .ite_body (fun _ => .refl s) fun _ => .ite_body (fun _ => .refl s) fun tag => .ite_body (fun _ => .refl s)
      fun full => s.setRoster_turns _ (.single (.putMachine _ ?_ ?_ ?_))
    · exact s.tag_of_tagInUse (Bool.not_eq_true _ ▸ tag)
    · intro none
      have none : (findMachine s.roster m.number).isNone = true := Option.isNone_iff_eq_none.mpr none
      exact Nat.lt_of_not_le fun k => full ⟨none, k⟩
    · rfl

theorem State.machine_of_machineOpen {n : Nat} (h : s.machineOpen n = false) (p : PointId) (d : DeliveryGist)
    (hd : (s.gist.points.get p).open? = some d) : d.machine ≠ n := by
  rw [State.gist_point] at hd
  obtain ⟨x, hx, rfl⟩ := Option.map_eq_some_iff.mp hd
  simp only [State.machineOpen, Bool.or_eq_false_iff] at h
  have none : (s.point p).context.any (fun d => d.machine == n) = false := by
    cases p
    · exact h.1
    · exact h.2
  rw [hx] at none
  change x.machine ≠ n
  simpa using none

theorem bodyDropMachine_turns (n : Nat) : s.Turns (bodyDropMachine n s).1 :=
  .ite_body (fun _ => .refl s) fun _ => .ite_body (fun _ => .refl s) fun _ => .ite_body (fun _ => .refl s) fun h =>
    s.setRoster_turns _ (.single (.dropMachine n (s.machine_of_machineOpen (Bool.not_eq_true _ ▸ h))))

theorem bodyPutAccount_turns (n : Nat) (code : List Nat) (credit tier closed : Nat) :
    s.Turns (bodyPutAccount n code credit tier closed s).1 := by
  unfold bodyPutAccount
  split
  · next t x _ _ _ =>
    refine s.setAccounts_turns _ (.single (.putAccount _ ?_))
    cases h : findAccount s.accounts n with
    | none => simp [accountRecord, State.gist, h]
    | some a =>
      have number : a.number = n := by simpa using List.find?_some h
      simp [accountRecord, State.gist, number, h]
  · exact .refl s

theorem bodyCreditAdjust_turns (n credit reset : Nat) : s.Turns (bodyCreditAdjust n credit reset s).1 := by
  unfold bodyCreditAdjust
  split
  · next zero _ _ =>
    split
    · exact .refl s
    · next a found =>
      refine .ite_body (fun _ => .refl s) fun full => ?_
      have stored : s.Turns (if zero then s.store (.accountReset n a.code a.spent a.credit credit a.reserved) else s) := by
        refine .ite (fun z => ?_) fun _ => .refl s
        exact .of_parts (s.store_goes _ (by simpa [z] using full)) (by simp) (by simp) (by simp)
      have table : (if zero then s.store (.accountReset n a.code a.spent a.credit credit a.reserved) else s).accounts =
          s.accounts := by split <;> simp
      generalize (if zero then s.store (.accountReset n a.code a.spent a.credit credit a.reserved) else s) = t at *
      have number : a.number = n := by simpa using List.find?_some found
      have put : s.Turns (t.setAccounts (putAccountRec (a.adjust credit zero) t.accounts)) := by
        refine stored.trans (t.setAccounts_turns _ (.single (.putAccount _ ?_)))
        have : findAccount t.gist.accounts (a.adjust credit zero).number = some a := by
          change findAccount t.accounts a.number = _
          rw [table, number, found]
        rw [this]
        rfl
      dsimp only
      refine .ite (fun _ => ?_) fun _ => put
      exact put.trans (.of_gist rfl (State.raise_lines _ _))
  · exact .refl s

theorem bodyPutProduct_turns (q : Nat) (code : List Nat) (alpha points : Nat) :
    s.Turns (bodyPutProduct q code alpha points s).1 := by
  unfold bodyPutProduct
  split
  · exact .of_still rfl rfl
  · exact .refl s

theorem bodyStagePrices_turns (c : Nat) (x : Quad (Quad Nat)) : s.Turns (bodyStagePrices c x s).1 := by
  unfold bodyStagePrices
  split
  · exact .of_parts (s.takeOver_goes _ _) (by simp) (by simp) (by simp)
  · exact .of_still rfl rfl
  · exact .refl s

theorem bodySetLimitSettings_turns (m c : Nat) : s.Turns (bodySetLimitSettings m c s).1 :=
  .ite_body (fun _ => .of_still rfl rfl) fun _ => .refl s

theorem State.adjustStock_goes (c : CompId) (x : Compartment) (book : Nat) (at_c : s.comp c = some x)
    (idle : x.state ≠ .loading) (room : s.journal.hasRoom = true) : s.Goes (s.adjustStock c x book) := by
  refine .after (State.reorderNew_goes _ c) <| .after (State.serve_goes _ c _
    (if x.state = .empty then .inService else x.state) (x := x) (by simpa using at_c) (.inl idle) ?_ rfl)
    (s.store_goes _ room)
  split
  · decide
  · exact idle

theorem bodyAdjustStock_turns (n book : Nat) : s.Turns (bodyAdjustStock n book s).1 := by
  unfold bodyAdjustStock
  split
  · next c _ _ =>
    split
    · exact .refl s
    · next x hx =>
      refine .ite_body (fun _ => .refl s) fun idle => .ite_body (fun _ => .refl s) fun room => ?_
      exact .follow (s.adjustStock_goes c x book hx (not_or.mp idle).2 (not_not.mp room)) s
  · exact .refl s

theorem bodySetStockLimits_turns (n r t : Nat) : s.Turns (bodySetStockLimits n r t s).1 := by
  unfold bodySetStockLimits
  split
  · refine .ite_body (fun _ => .refl s) fun _ => .of_gist ?_ ?_
    · exact (State.reorderNew_gist _ _).trans (s.modComp_gist_same _ _ fun _ => rfl)
    · exact fun o h => State.reorderNew_lines _ _ o h
  · exact .refl s

theorem Journal.place_stored {j : Journal} {q : SeqNo} {k : Nat} (h : j.place q = .stored k) : k < j.records.length := by
  unfold Journal.place at h
  dsimp only at h
  split at h
  · next less => cases h; exact less
  · split at h <;> cases h

theorem bodyReleaseThrough_turns (q : SeqNo) : s.Turns (bodyReleaseThrough q s).1 := by
  unfold bodyReleaseThrough
  split
  · next k h =>
    dsimp only
    have freed : s.Goes (s.setJournal (s.journal.release (k + 1))) := by
      refine .of_act (.free (k + 1) ?_) ?_ (.of_ports rfl)
      · rw [State.gist_seqs_length]; exact Journal.place_stored h
      · rw [State.setJournal_gist]
        simp only [Journal.release, List.map_drop]
        rfl
    exact .follow freed s
  · exact .refl s
  · exact .refl s

/-- The clock moves and its shift is evaluated. -/
theorem State.evaluateShift_turns : s.Turns s.evaluateShift :=
  .of_parts s.evaluateShift_goes (by simp) (by simp) (by simp)

theorem bodySetTime_turns (a b c d e f : Nat) : s.Turns (bodySetTime a b c d e f s).1 :=
  .ite_body (fun _ => .after (State.evaluateShift_turns _) (.of_still rfl rfl)) fun _ => .refl s

theorem State.passMinute_turns : s.Turns s.passMinute := .of_parts s.passMinute_goes (by simp) (by simp) (by simp)

theorem bodyTrimClock_turns : s.Turns (bodyTrimClock s).1 := by
  refine .ite_body (fun _ => .after (State.evaluateShift_turns _) ?_) fun _ => .refl s
  exact .ite (fun _ => .of_still rfl rfl) fun _ => s.passMinute_turns

theorem bodySetShifts_turns (l : List (Nat × Nat)) : s.Turns (bodySetShifts l s).1 :=
  .ite_body (fun _ => .after (State.evaluateShift_turns _) (.of_still rfl rfl)) fun _ => .refl s

theorem bodySetSuctionPolicy_turns (x p : Nat) : s.Turns (bodySetSuctionPolicy x p s).1 := by
  unfold bodySetSuctionPolicy
  split
  · refine .follow ?_ s
    exact s.setArbiter_goes _ rfl rfl rfl
  · exact .refl s

theorem bodyYieldAccountRole_turns : s.Turns (bodyYieldAccountRole s).1 := by
  unfold bodyYieldAccountRole
  split
  · exact s.moveRole_turns _
  · exact .refl s

theorem State.denyRequest_turns : s.Turns s.denyRequest := by
  unfold State.denyRequest
  split
  · exact .refl s
  · exact .after (State.raiseOn_turns _ _ _) (.of_still rfl rfl)

theorem bodyDenyAccountRole_turns : s.Turns (bodyDenyAccountRole s).1 := by
  unfold bodyDenyAccountRole
  split
  · exact s.denyRequest_turns
  · exact .refl s

end turns

end Sys2Proof.Machine

/-! SUPPORT AND CERTIFICATES. The commands of the CALIBRATE role, of OPERATE, and of OPERATE or ACCOUNT. -/

namespace Sys2Proof.Machine

open Sys2Proof

section calibrate

variable (s : State)

/-! ### Commands of the CALIBRATE role -/

theorem bodySetKFactor_turns (c k : Nat) : s.Turns (bodySetKFactor c k s).1 := by
  unfold bodySetKFactor
  split
  · exact .ite_body (fun _ => .refl s) fun _ => .of_still rfl rfl
  · exact .refl s

theorem bodySetRatedFlow_turns (c k : Nat) : s.Turns (bodySetRatedFlow c k s).1 := by
  unfold bodySetRatedFlow
  split
  · exact .of_still rfl rfl
  · exact .refl s

theorem bodySetLinearisation_turns (c : Nat) (l : List (Nat × Nat)) : s.Turns (bodySetLinearisation c l s).1 := by
  unfold bodySetLinearisation
  split
  · exact .ite_body (fun _ => .refl s) fun _ => .of_still rfl rfl
  · exact .refl s

/-- A change of a point that its gist does not show. -/
theorem State.setPoint_turns (p : PointId) (x : Point) (hx : x.gist = (s.point p).gist) : s.Turns (s.setPoint p x) :=
  .of_still (s.setPoint_gist_same p x hx) rfl

theorem bodySetPointVolumes_turns (p a b : Nat) : s.Turns (bodySetPointVolumes p a b s).1 := by
  unfold bodySetPointVolumes
  split
  · exact .ite_body (fun _ => s.setPoint_turns _ _ rfl) fun _ => .refl s
  · exact .refl s

theorem bodySetPointTimes_turns (a b c d : Nat) : s.Turns (bodySetPointTimes a b c d s).1 :=
  .ite_body (fun _ => .of_still rfl rfl) fun _ => .refl s

theorem bodySetSuctionTimes_turns (a b : Nat) : s.Turns (bodySetSuctionTimes a b s).1 :=
  .ite_body (fun _ => .of_still rfl rfl) fun _ => .refl s

theorem Pump.setFault_gist (x : Pump) (k : FaultKind) (f : FaultSetting) :
    (x.setFault k f).state = x.state ∧ (x.setFault k f).drive = x.drive := by
  unfold Pump.setFault
  dsimp only
  split <;> exact ⟨rfl, rfl⟩

theorem bodySetPumpFault_turns (k a d x y : Nat) : s.Turns (bodySetPumpFault k a d x y s).1 := by
  unfold bodySetPumpFault
  split
  · next k _ _ _ =>
    split
    · next f _ =>
      obtain ⟨state, drive⟩ := s.pump.setFault_gist k f
      exact .of_still (by rw [State.setPump_gist, state, drive]; rfl) rfl
    · exact .refl s
  · exact .refl s

theorem bodySetPumpRun_turns (a b c : Nat) : s.Turns (bodySetPumpRun a b c s).1 :=
  .ite_body (fun _ => .of_still rfl rfl) fun _ => .refl s

/-- The stock changes, the points, the pump and the selector do not. -/
theorem State.setComp_turns (c : CompId) (x : Option Compartment) (h : s.gist.Path (s.setComp c x).gist) :
    s.Turns (s.setComp c x) := .of_parts ⟨h, .of_ports rfl⟩ rfl rfl rfl

theorem State.modComp_turns (c : CompId) (f : Compartment → Compartment) (hf : ∀ x, (f x).gist = x.gist) :
    s.Turns (s.modComp c f) := .of_still (s.modComp_gist_same c f hf) rfl

theorem bodyConfigureCompartment_turns (a b c d e f : Nat) : s.Turns (bodyConfigureCompartment a b c d e f s).1 := by
  unfold bodyConfigureCompartment
  split
  · next c q _ _ _ =>
    split
    · next none =>
      refine s.setComp_turns _ _ ?_
      rw [State.setComp_gist]
      exact .single (.addComp c (by rw [State.gist_comp, none]; rfl))
    · refine .ite_body (fun _ => .refl s) fun _ => .ite_body (fun _ => .refl s) fun _ => ?_
      exact .after (.of_gist (State.reorderFall_gist _ _) (State.reorderFall_lines _ _)) <|
        s.modComp_turns c _ fun _ => rfl
  · exact .refl s

theorem State.unused_of_segmentOn {c : CompId} (h : s.segmentOn c = false) (p : PointId) (d : DeliveryGist)
    (hd : (s.gist.points.get p).open? = some d) : d.comp ≠ c := by
  rw [State.gist_point] at hd
  obtain ⟨x, hx, rfl⟩ := Option.map_eq_some_iff.mp hd
  simp only [State.segmentOn, Bool.or_eq_false_iff] at h
  have none : (s.point p).context.any (fun d => d.touches c) = false := by
    cases p
    · exact h.1
    · exact h.2
  rw [hx] at none
  simp only [Option.any_some, Delivery.touches, Bool.or_eq_false_iff, beq_eq_false_iff_ne] at none
  exact none.1

theorem bodyRemoveCompartment_turns (n : Nat) : s.Turns (bodyRemoveCompartment n s).1 := by
  unfold bodyRemoveCompartment
  split
  · exact .refl s
  · next c _ =>
    split
    · exact .refl s
    · next x hx =>
      refine .ite_body (fun _ => .refl s) fun _ => .ite_body (fun _ => .refl s) fun free =>
        .ite_body (fun _ => .refl s) fun _ => s.setComp_turns c none ?_
      simp only [State.compInUse, Bool.or_eq_true, not_or, Bool.not_eq_true, bne_eq_false_iff_eq] at free
      rw [State.setComp_gist]
      exact .single (.dropComp c x.gist (s.gist_at hx) free.1.1 (s.unused_of_segmentOn free.1.2))

theorem bodySetStrapping_turns (n : Nat) (l : List (Nat × Nat)) : s.Turns (bodySetStrapping n l s).1 := by
  unfold bodySetStrapping
  split
  · refine .ite_body (fun _ => .refl s) fun _ => ?_
    exact s.modComp_turns _ _ fun _ => rfl
  · exact .refl s

theorem bodySetStockSettle_turns (n : Nat) : s.Turns (bodySetStockSettle n s).1 :=
  .ite_body (fun _ => .of_still rfl rfl) fun _ => .refl s

theorem bodySetLoadSettings_turns (a b : Nat) : s.Turns (bodySetLoadSettings a b s).1 :=
  .ite_body (fun _ => .ite_body (fun _ => .refl s) fun _ => .of_still rfl rfl) fun _ => .refl s

theorem bodySetCouplingGrace_turns (n : Nat) : s.Turns (bodySetCouplingGrace n s).1 :=
  .ite_body (fun _ => .of_still rfl rfl) fun _ => .refl s

theorem State.applyLapse_turns : s.Turns s.applyLapse := by
  unfold State.applyLapse
  split
  · exact .ite (fun _ => s.moveRole_turns _) fun _ => .refl s
  · exact .refl s

theorem bodySetPortSupervision_turns (a b c : Nat) : s.Turns (bodySetPortSupervision a b c s).1 := by
  unfold bodySetPortSupervision
  split
  · refine .after (State.applyLapse_turns _) <| .of_gist (State.followWatch_gist _ _) ?_
    exact fun o h => (State.followWatch_goes _ _).lines o h
  · exact .refl s

theorem bodySetWakeSettle_turns (n : Nat) : s.Turns (bodySetWakeSettle n s).1 :=
  .ite_body (fun _ => .of_still rfl rfl) fun _ => .refl s

/-! ### Commands of the OPERATE role -/

/-- The last identification outcome of a point is kept. -/
theorem State.setRefusal_turns (p : PointId) (x : Status) (r : Option Reason) (l : Option LimitSource)
    (t : Option TagId) (m : Option Nat) : s.Turns (s.setRefusal p x r l t m) := .of_still rfl rfl

theorem State.raise_turns (n : Notice) : s.Turns (s.raise n) := .of_gist rfl (s.raise_lines n)

theorem State.identifyManual_turns (p : PointId) (n : Nat) (h : Option Nat) :
    s.Turns (s.identifyManual p n h).1 := by
  have refuse (u : State) (x : Reply) (m : Option Nat) : u.Turns (u.refuseManual p x m).1 := u.setRefusal_turns ..
  refine .ite_body (fun _ => refuse s _ _) fun _ => .ite_body (fun _ => refuse s _ _) fun closed =>
    .ite_body (fun _ => refuse s _ _) fun _ => .ite_body (fun _ => refuse s _ _) fun _ => ?_
  split
  · exact refuse s _ _
  · next m hm =>
    refine .ite_body (fun _ => refuse s _ _) fun _ => .ite_body (fun _ => refuse s _ _) fun _ => ?_
    split
    · next u hu => exact .follow (s.authorise_goes hu (not_not.mp closed) (List.mem_of_find?_eq_some hm)) s
    · exact .after (refuse _ _ _) (.ite (fun _ => s.raise_turns _) fun _ => .refl s)

theorem bodyIdentifyManual_turns (p n : Nat) (h : RawOpt Nat) : s.Turns (bodyIdentifyManual p n h s).1 := by
  unfold bodyIdentifyManual
  split
  · exact .refl s
  · split
    · exact s.setRefusal_turns ..
    · exact .ite_body (fun _ => s.identifyManual_turns _ _ _) fun _ => s.setRefusal_turns ..

theorem State.presetOpen_turns (p : PointId) (d : Delivery) (x : Option Preset) (hd : (s.point p).context = some d) :
    s.Turns (s.presetOpen p d x).1 := by
  unfold State.presetOpen
  split
  · exact .refl s
  · next q =>
    refine .ite_body (fun low => ?_) fun _ => .refl s
    refine .follow ?_ s
    have lowered := s.lowerLimit_goes p (q.volumeAt d.price) .preset fun y hy => by
      rw [hd] at hy; cases hy; exact Nat.le_of_lt low
    refine .after (State.compareLowered_goes _ p) <| .after (State.setPoint_goes _ p _ ?_) lowered
    simp only [Point.gist, Option.map_map]
    rfl

theorem bodySetPreset_turns (p k v : Nat) : s.Turns (bodySetPreset p k v s).1 := by
  unfold bodySetPreset
  split
  · split
    · next hd => exact s.presetOpen_turns _ _ _ hd
    · exact s.setPoint_turns _ _ rfl
  · exact .refl s

theorem State.endFinish_goes (p : PointId) (k : EndCause) (h : (s.point p).state.unfinished = true) :
    s.Goes ((s.endSeries p).finish p k) :=
  .after (State.finish_goes _ p k (by simpa [State.endSeries] using PointState.open_of_unfinished h)) (s.endSeries_goes p)

theorem bodyStopPoint_turns (n : Nat) : s.Turns (bodyStopPoint n s).1 := by
  unfold bodyStopPoint
  split
  · exact .refl s
  · next p _ =>
    exact .ite_body (fun h => .follow (s.endFinish_goes p _ h) s) fun _ =>
      .ite_body (fun _ => s.setPoint_turns p _ rfl) fun _ => .refl s

theorem bodyStopRepeat_turns (n : Nat) : s.Turns (bodyStopRepeat n s).1 := by
  unfold bodyStopRepeat
  split
  · exact .refl s
  · exact .ite_body (fun _ => s.setPoint_turns _ _ rfl) fun _ => .refl s

theorem bodySetPointMode_turns (p m c : Nat) : s.Turns (bodySetPointMode p m c s).1 := by
  unfold bodySetPointMode
  split
  · exact .ite_body (fun _ => s.setPoint_turns _ _ rfl) fun _ => .refl s
  · exact .refl s

theorem bodyParkPoint_turns (n : Nat) : s.Turns (bodyParkPoint n s).1 := by
  unfold bodyParkPoint
  split
  · exact .refl s
  · exact .ite_body (fun _ => s.setPoint_turns _ _ rfl) fun _ => .refl s

theorem bodyUnparkPoint_turns (n : Nat) : s.Turns (bodyUnparkPoint n s).1 := by
  unfold bodyUnparkPoint
  split
  · exact .refl s
  · exact s.setPoint_turns _ _ rfl

theorem bodyClearPumpFault_turns : s.Turns (bodyClearPumpFault s).1 := by
  refine .ite_body (fun latched => .ite_body (fun _ => ?_) fun _ => .refl s) fun _ => .refl s
  refine .follow ?_ s
  exact .after (State.releasePump_goes _ (.inr latched)) (s.setPump_still _ rfl rfl)

/-! ### Commands of OPERATE or ACCOUNT -/

theorem bodyOpenLoadPlan_turns (d : RawOpt (List Nat)) : s.Turns (bodyOpenLoadPlan d s).1 := by
  unfold bodyOpenLoadPlan
  split
  · exact .refl s
  · refine .ite_body (fun _ => .refl s) fun none => .ite_body (fun _ => .refl s) fun _ => .of_parts ⟨?_, .of_ports rfl⟩ rfl rfl rfl
    exact .tail (.single (.forget (not_not.mp none))) (.plan .opened (by simp))

theorem bodyAppendLoadEntry_turns (c t : Nat) : s.Turns (bodyAppendLoadEntry c t s).1 := by
  unfold bodyAppendLoadEntry
  split
  · refine .ite_body (fun _ => .refl s) fun _ => .ite_body (fun _ => .refl s) fun _ => .ite_body (fun _ => .refl s) fun _ => ?_
    refine .follow ?_ s
    exact .after (State.clearStageEmpty_goes _) (s.setLoader_goes _ rfl rfl rfl)
  · exact .refl s

theorem State.dropWaiting_goes {e : Entry} (current : s.loader.current = some e)
    (waits : e.state = .due ∨ e.state = .waiting) (k : EndCause) : s.Goes ((s.dropEntry e k).raise .loadDone) :=
  .after (State.raise_goes _ _) (s.dropEntry_goes e k current (Entry.bare waits))

theorem bodyStopLoad_turns : s.Turns (bodyStopLoad s).1 := by
  unfold bodyStopLoad
  split
  · exact .refl s
  · next e current =>
    have drop (waits : e.state = .due ∨ e.state = .waiting) :
        s.Turns ((((s.dropEntry e .operatorStop).raise .loadDone).afterEntry).follow s) :=
      .follow (.after (State.afterEntry_goes _ rfl) (s.dropWaiting_goes current waits _)) s
    split
    · exact .follow (s.stopLoading_goes _) s
    · exact .refl s
    · next h => exact drop (.inl h)
    · next h => exact drop (.inr h)

theorem State.beginClosing_turns : s.Turns s.beginClosing := by
  refine .of_parts ?_ rfl rfl rfl
  exact s.setPlan_goes _ (by simp) rfl rfl

theorem State.closePlan_turns (h : s.loader.current = none) : s.Turns s.closePlan :=
  .of_parts (s.closePlan_goes h) (by simp) (by simp) (by simp)

theorem bodyCloseLoadPlan_turns : s.Turns (bodyCloseLoadPlan s).1 := by
  refine .ite_body (fun _ => .refl s) fun _ => ?_
  split
  · next none => exact s.closePlan_turns none
  · next e current =>
    have drop (waits : e.state = .due ∨ e.state = .waiting) :
        s.Turns ((((s.dropEntry e .operatorStop).raise .loadDone).closePlan).follow s) :=
      .follow (.after (State.closePlan_goes _ rfl) (s.dropWaiting_goes current waits _)) s
    split
    · refine .follow ?_ s
      exact .after (State.beginClosing_turns _).goes (s.stopLoading_goes _)
    · exact s.beginClosing_turns
    · next h => exact drop (.inl h)
    · next h => exact drop (.inr h)

/-- SET_COMPARTMENT_SERVICE neither finds a LOADING compartment nor makes one (R117). -/
theorem CompState.service_idle {x y : CompState} {on : Bool} (h : x.service on = some y) : x ≠ .loading ∧ y ≠ .loading := by
  cases x <;> cases on <;> cases h <;> decide

theorem bodySetCompartmentService_turns (n on : Nat) : s.Turns (bodySetCompartmentService n on s).1 := by
  unfold bodySetCompartmentService
  split
  · split
    · exact .refl s
    · next x hx =>
      split
      · exact .refl s
      · next st h =>
        obtain ⟨idle, stays⟩ := CompState.service_idle h
        refine .follow ?_ s
        exact s.serve_goes _ _ st hx (.inl idle) stays rfl
  · exact .refl s

theorem State.reconcile_turns (t : Trigger) (c : CompId) : s.Turns (s.reconcile t c) :=
  .of_parts (s.reconcile_goes t c) (by simp) (by simp) (by simp)

theorem bodyReconcile_turns (n : Nat) : s.Turns (bodyReconcile n s).1 := by
  refine .ite_body (fun _ => ?_) fun _ => ?_
  · exact .of_parts (s.reconcileAll_goes _) (by simp) (by simp) (by simp)
  · split
    · exact .refl s
    · exact .ite_body (fun _ => .refl s) fun _ => s.reconcile_turns _ _

end calibrate

end Sys2Proof.Machine

/-! SUPPORT AND CERTIFICATES. The field lines, the trigger, the pump's rows, the power, and the way out of reset. -/

namespace Sys2Proof.Machine

open Sys2Proof

section events

variable (s : State)

/-! ### Field lines -/

theorem State.setCoupler_turns (p : PointId) (x : Coupler) : s.Turns (s.setCoupler p x) := .of_still rfl rfl

theorem State.stopLoading_turns (k : EndCause) : s.Turns (s.stopLoading k) :=
  .of_parts (s.stopLoading_goes k) (by simp) (by simp) (by simp)

theorem State.loadWindow_turns : s.Turns s.loadWindow := .of_parts s.loadWindow_goes (by simp) (by simp) (by simp)

theorem State.pointWindow_turns (p : PointId) : s.Turns (s.pointWindow p) := by
  refine .ite (fun _ => ?_) fun _ => .refl s
  have followed := State.Turns.follow (s.compareFlow_goes p) s
  exact .ite (fun _ => .after (.of_gist (State.testNoFlow_gist _) (State.testNoFlow_goes _).lines) followed)
    fun _ => followed

/-- A window hands its volume to its owner, which may then act on it. -/
theorem State.endWindow_gist (c : ChannelId) (probe : Option Int) : (s.endWindow c probe).gist = s.gist := by
  have taken (u : State) (p : PointId) (w : WindowResult) :
      (u.setPoint p { u.point p with context := (u.point p).context.map fun d => d.take w }).gist = u.gist := by
    refine u.setPoint_gist_same p _ ?_
    simp only [Point.gist, Option.map_map]
    rfl
  have handed (u : State) (w : WindowResult) : (u.handOver c w).gist = u.gist := by
    cases c with
    | a => exact taken u .a w
    | b => exact taken u .b w
    | load =>
      have : (u.loader.current.map fun e => { e with context := e.context.map fun x => x.take w }).map Entry.gist =
          u.loader.current.map Entry.gist := by
        simp only [Option.map_map]
        exact congrArg (Option.map · _) (funext fun e => by simp [Entry.gist])
      rw [State.handOver, State.setLoader_gist, this]
      rfl
  unfold State.endWindow
  dsimp only
  split
  · exact handed _ _
  · split <;> rfl

theorem State.endWindow_turns (c : ChannelId) (probe : Option Int) : s.Turns (s.endWindow c probe) :=
  .of_gist (s.endWindow_gist c probe) (s.endWindow_goes c probe).lines

theorem State.ownerActs_turns (c : ChannelId) : s.Turns (s.ownerActs c) := by
  cases c with
  | a => exact s.pointWindow_turns .a
  | b => exact s.pointWindow_turns .b
  | load => exact s.loadWindow_turns

theorem State.hangNozzle_turns (p : PointId) : s.Turns (s.hangNozzle p) := by
  have hung := s.setCoupler_turns p { s.coupler p with offHook := false, coupling := .uncoupled }
  unfold State.hangNozzle
  generalize s.setCoupler p { s.coupler p with offHook := false, coupling := .uncoupled } = t at hung ⊢
  refine .ite (fun h => .follow (hung.goes.trans (t.endFinish_goes p _ h)) s) fun _ =>
    .ite (fun _ => hung.trans (t.setPoint_turns p _ rfl)) fun _ => hung

theorem State.refuseTag_turns (p : PointId) (r : Reason) (t : TagId) (m : Option Nat) : s.Turns (s.refuseTag p r t m) :=
  .after (State.raise_turns _ _) (s.setRefusal_turns ..)

theorem State.raiseRefused_turns (x : AuthRefusal) : s.Turns (s.raiseRefused x) :=
  .after (.ite (fun _ => State.raise_turns _ _) fun _ => .refl _) (s.raise_turns _)

theorem State.identifyTag_turns (p : PointId) (x : ValidRead) (closed : (s.point p).state = .closed) :
    s.Turns (s.identifyTag p x) := by
  refine .ite (fun _ => s.refuseTag_turns ..) fun _ => ?_
  split
  · exact s.refuseTag_turns ..
  · next m hm =>
    refine .ite (fun _ => s.refuseTag_turns ..) fun _ => ?_
    split
    · next u hu => exact .follow (s.authorise_goes hu closed (List.mem_of_find?_eq_some hm)) s
    · exact .after (State.raiseRefused_turns _ _) (s.setRefusal_turns ..)

theorem State.regain_turns (p : PointId) : s.Turns (s.regain p) :=
  .after (State.lift_turns _ _ _) (.of_still rfl rfl)

theorem State.couplingReached_turns (p : PointId) (x : ValidRead) : s.Turns (s.couplingReached p x) := by
  unfold State.couplingReached
  split
  · exact .ite (fun h => s.identifyTag_turns p x h.1) fun _ => .refl s
  · exact .ite (fun _ => s.regain_turns p) fun _ => .refl s

theorem State.validRead_turns (p : PointId) (x : ValidRead) : s.Turns (s.validRead p x) := by
  unfold State.validRead
  dsimp only
  have read (y : Coupler) := s.setCoupler_turns p y
  refine .ite (fun _ => .follow (.after (State.closeOn_goes _ _ _) (read _).goes) _) fun _ =>
    .ite (fun _ => .after (State.couplingReached_turns _ _ _) (read _)) fun _ => read _

theorem State.couplingLost_turns (p : PointId) : s.Turns (s.couplingLost p) := by
  refine .ite (fun _ => .follow ?_ s) fun _ => .refl s
  exact .after (State.suspendFlow_goes _ _ _) (s.setCoupler_turns p _).goes

theorem State.failedRead_turns (p : PointId) : s.Turns (s.failedRead p) := by
  unfold State.failedRead
  dsimp only
  split
  · exact .ite (fun _ => .after (State.couplingLost_turns _ _) (s.setCoupler_turns p _)) fun _ => s.setCoupler_turns p _
  · exact s.setCoupler_turns p _

/-! ### The trigger -/

theorem PointState.open_of_waitsForPress {x : PointState} (h : x.waitsForPress = true) : x ≠ .closed := by
  rintro rfl; cases h

theorem PointState.still_of_waitsForPress {x : PointState} (h : x.waitsForPress = true) : x.isFlowing = false := by
  cases x with
  | flowing => cases h
  | _ => rfl

theorem State.takePress_goes (p : PointId) (d : Delivery) (h : (s.point p).state.waitsForPress = true) :
    s.Goes (s.takePress p d) := by
  refine .ite (fun _ => s.finish_goes p _ (PointState.open_of_waitsForPress h)) fun _ => ?_
  refine .after (State.fileRequest_goes _ p _) (s.setPoint_moves p _ (PointState.open_of_waitsForPress h) (by simp) rfl ?_)
  exact PointGist.valvesAgree_still rfl rfl (PointState.still_of_waitsForPress h) rfl

theorem State.press_turns (p : PointId) : s.Turns (s.press p) := by
  unfold State.press
  split
  · exact .ite (fun h => .follow (s.takePress_goes p _ h.1) s) fun _ => .refl s
  · exact .refl s

theorem State.letGo_turns (p : PointId) : s.Turns (s.letGo p) :=
  .ite (fun h => .follow (s.suspend_goes p _ (PointState.open_of_wantsFlow h.2)) s) fun _ => .refl s

/-! ### Pump and switches -/

theorem Pump.followSupply_parts (x : Pump) (was : SupplySense) :
    (x.followSupply was).state = x.state ∧ (x.followSupply was).drive = x.drive := by
  unfold Pump.followSupply
  split
  · split
    · split <;> exact ⟨rfl, rfl⟩
    · exact ⟨rfl, rfl⟩
  · exact ⟨rfl, rfl⟩

/-- The pump's timers and marks change, its state and drive do not. -/
theorem State.setPump_turns (x : Pump) (hs : x.state = s.pump.state) (hd : x.drive = s.pump.drive) :
    s.Turns (s.setPump x) := .of_still (by rw [State.setPump_gist, hs, hd]; rfl) rfl

theorem State.switchRole_turns (closed : Bool) : s.Turns (s.switchRole closed) :=
  .ite (fun _ => .ite (fun _ => s.moveRole_turns _) fun _ => .refl s) fun _ =>
    .ite (fun _ => s.moveRole_turns _) fun _ => .refl s

/-! ### Power -/

theorem State.setPower_goes (x : Power) (out : x.state ≠ .inReset)
    (leaves : s.power.state = .inReset → ∀ p, (s.point p).context = none) : s.Goes (s.setPower x) := by
  refine .of_act (.power x.state out fun h p => ?_) rfl (.of_ports rfl)
  rw [State.gist_point, Point.gist, leaves h p]
  rfl

/-- The power's marks change, its state does not. -/
theorem State.setPower_still (x : Power) (h : x.state = s.power.state) : s.Turns (s.setPower x) :=
  .of_still (by rw [State.setPower_gist, h]; rfl) rfl

theorem State.ignitionEnds_goes (p : PointId) : s.Goes (s.ignitionEnds p) :=
  .ite (fun h => s.endFinish_goes p _ h) fun _ => .refl s

theorem State.enterReset_turns : s.Turns s.enterReset := .of_off s.enterReset_goes fun _ => rfl

/-! ### Out of reset -/

theorem State.testBackup_goes (held : Bool) : s.Goes (s.testBackup held) := by
  have set : s.Goes (if held then s else s.setClock { s.clock with now := DateTime.epoch, valid := false }) :=
    .ite (fun _ => .refl s) fun _ => .of_still rfl rfl
  exact .ite (fun _ => set) fun _ => .after (State.raise_goes _ _) set

theorem State.leaveReset_goes (held : Bool) : s.Goes (s.leaveReset held) := by
  refine .after (State.testBackup_goes _ held) <| .after (State.setPump_still _ _ (by simp) (by simp)) ?_
  exact (s.setPower_still _ (by rfl)).goes

theorem State.recoverEntry_goes : s.Goes s.recoverEntry.1 := by
  unfold State.recoverEntry
  split
  · exact .refl s
  · next e current =>
    split
    · exact s.closeReceipt_goes e _ _ _ current
    · next bare => exact s.dropEntry_goes e _ current fun _ => by rw [bare]; rfl

theorem State.recoverEntry_none : s.recoverEntry.1.loader.current = none := by
  unfold State.recoverEntry
  split
  · next h => exact h
  · split
    · simp [State.closeReceipt, State.endEntry]
    · rfl

theorem State.recover_goes : s.Goes s.recover := by
  refine .after (State.setPower_still _ _ (by rfl)).goes <| .after (State.closePlan_goes _ (State.recoverEntry_none _)) <|
    .after (State.recoverEntry_goes _) <| .after (State.close_goes _ _ _ _) (s.close_goes _ _ _)

theorem State.recoverTo_goes (k : RecoveryPoint) : s.Goes (s.recoverTo k) := by
  cases k with
  | start => exact .refl s
  | pointA => exact s.close_goes _ _ _
  | pointB => exact .after (State.close_goes _ _ _ _) (s.close_goes _ _ _)
  | entry => exact .after (State.recoverEntry_goes _) <| .after (State.close_goes _ _ _ _) (s.close_goes _ _ _)
  | plan => exact s.recover_goes

end events

end Sys2Proof.Machine

/-! SUPPORT AND CERTIFICATES. Every row of the table, and the tenth of a second. -/

namespace Sys2Proof.Machine

open Sys2Proof

section rows

variable (s : State)

/-- After both recovery closes no delivery is open (R192). -/
theorem State.recovered_none (p : PointId) :
    (((s.recoverDelivery .a).recoverDelivery .b).point p).context = none := by
  have closed (u : State) (q : PointId) : ((u.recoverDelivery q).point q).context = none := by
    cases h : (u.point q).context with
    | none =>
      have : u.recoverDelivery q = u := by rw [State.recoverDelivery, State.close, h]
      rw [this, h]
    | some d => exact (u.close_point q _ _ h).1
  cases p with
  | a => exact (congrArg Point.context (State.close_other _ .b .a _ _ (by decide))).trans (closed s .a)
  | b => exact closed _ .b

theorem State.recover_none (p : PointId) : (s.recover.point p).context = none := by
  have := s.recovered_none p
  generalize hu : (s.recoverDelivery .a).recoverDelivery .b = u at this
  have kept : s.recover.point p = u.point p := by
    unfold State.recover
    rw [hu]
    simp [State.recoverEntry]
    split
    · rfl
    · split <;> simp
  rw [kept, this]

theorem State.setPowerState_goes (h : ∀ p, (s.point p).context = none) : s.Goes s.setPowerState :=
  .ite (fun _ => s.setPower_goes _ (by simp) fun _ => h) fun _ => s.setPower_goes _ (by simp) fun _ => h

theorem State.startAllSettle_goes : s.Goes s.startAllSettle := by
  refine .of_still ?_ rfl
  have comps : (s.stock.map fun x => x.map fun y => { y with settle := some s.stockSettle }).map
      (fun x => x.map Compartment.gist) = s.stock.map fun x => x.map Compartment.gist := by
    simp only [Quad.map, Option.map_map]
    rfl
  simp only [State.gist, State.startAllSettle, comps]

theorem State.startBlocks_goes (h : ∀ p, (s.point p).context = none) : s.Goes s.startBlocks := by
  refine .after (State.setPowerState_goes _ fun p => ?_) <| .after (State.evaluateShift_goes _) <|
    .after (State.startAllSettle_goes _) (.of_gist s.testHighMark_gist s.testHighMark_lines)
  have settled (u : State) : u.startAllSettle.point p = u.point p := rfl
  have : s.testHighMark.startAllSettle.evaluateShift.point p = s.point p := by simp [settled]
  rw [this, h]

/-- Leaving reset the drive stays as the reset left it. -/
theorem State.exitReset_drive (x : ResetExit) (h : x.cut = none) : (s.exitReset x).pump.drive = s.pump.drive := by
  have started (u : State) : u.startBlocks.pump = u.pump := by
    have settled (v : State) : v.startAllSettle.pump = v.pump := rfl
    unfold State.startBlocks State.setPowerState State.wakeUp State.standBy
    split <;> simp [settled]
  have entry (u : State) : u.recoverEntry.1.pump = u.pump := by
    unfold State.recoverEntry
    split
    · rfl
    · split <;> simp
  have recovered (u : State) : u.recover.pump = u.pump := by
    simp [State.recover, State.recoverDelivery, entry]
  have left (u : State) (held : Bool) : (u.leaveReset held).pump = u.pump.testAll := by
    unfold State.leaveReset State.testBackup
    dsimp only
    split <;> split <;> rfl
  rw [State.exitReset, h]
  dsimp only
  rw [started, recovered, left, Pump.testAll_drive]

theorem State.exitReset_turns (x : ResetExit) (h : s.inReset = true) : s.Turns (s.exitReset x) := by
  have power : s.gist.power = .inReset := beq_iff_eq.mp h
  cases cut : x.cut with
  | none =>
    refine .of_off ?_ fun calm => (s.exitReset_drive x cut).trans (calm.2 power).2
    rw [State.exitReset, cut]
    exact .after (State.startBlocks_goes _ (State.recover_none _)) <| .after (State.recover_goes _) <|
      s.leaveReset_goes _
  | some k =>
    refine .of_off ?_ fun _ => by rw [State.exitReset, cut]; rfl
    rw [State.exitReset, cut]
    exact .after (State.enterReset_goes _) <| .after (State.recoverTo_goes _ _) <| s.leaveReset_goes _

theorem turns_next {s t u : State} (h : Host.Outcome.next (φ := Fault) (ρ := Refusal) u = .next t) (k : s.Turns u) :
    s.Turns t := by
  cases h
  exact k

theorem framed_turns {r : Req} {code : Nat} {a : Access} {body : State → State × Reply} {s t : State}
    (h : Host.Outcome.next (φ := Fault) (ρ := Refusal) (s.framed r code a body) = .next t)
    (hb : ∀ u : State, u.Turns (body u).1) : s.Turns t := turns_next h (s.framed_turns r code a body hb)

theorem command_turns {i : Instr} {s t : State} {f : Req × Nat × Access} (hf : framing i = some f)
    (h : exec i s = .next t) : s.Turns t := by
  cases i with
  | getStatus => exact framed_turns h fun u => bodyGetStatus_turns u _
  | getMachine => exact framed_turns h fun u => bodyGetMachine_turns u ..
  | getAccount => exact framed_turns h fun u => bodyGetAccount_turns u ..
  | getStock => exact framed_turns h fun u => bodyGetStock_turns u ..
  | readJournal => exact framed_turns h fun u => bodyReadJournal_turns u ..
  | getNotices r => exact framed_turns h fun u => u.setPort_turns r.port _ rfl
  | getTime => exact framed_turns h fun u => .refl u
  | setNoticeMask => exact framed_turns h fun u => bodySetNoticeMask_turns u ..
  | requestAccountRole => exact framed_turns h fun u => bodyRequestAccountRole_turns u ..
  | identifyManual => exact framed_turns h fun u => bodyIdentifyManual_turns u ..
  | setPreset => exact framed_turns h fun u => bodySetPreset_turns u ..
  | stopPoint => exact framed_turns h fun u => bodyStopPoint_turns u ..
  | stopRepeat => exact framed_turns h fun u => bodyStopRepeat_turns u ..
  | setPointMode => exact framed_turns h fun u => bodySetPointMode_turns u ..
  | parkPoint => exact framed_turns h fun u => bodyParkPoint_turns u ..
  | unparkPoint => exact framed_turns h fun u => bodyUnparkPoint_turns u ..
  | clearPumpFault => exact framed_turns h fun u => bodyClearPumpFault_turns u ..
  | openLoadPlan => exact framed_turns h fun u => bodyOpenLoadPlan_turns u ..
  | appendLoadEntry => exact framed_turns h fun u => bodyAppendLoadEntry_turns u ..
  | stopLoad => exact framed_turns h fun u => bodyStopLoad_turns u ..
  | closeLoadPlan => exact framed_turns h fun u => bodyCloseLoadPlan_turns u ..
  | setCompartmentService => exact framed_turns h fun u => bodySetCompartmentService_turns u ..
  | reconcile => exact framed_turns h fun u => bodyReconcile_turns u ..
  | putMachine => exact framed_turns h fun u => bodyPutMachine_turns u ..
  | dropMachine => exact framed_turns h fun u => bodyDropMachine_turns u ..
  | putAccount => exact framed_turns h fun u => bodyPutAccount_turns u ..
  | creditAdjust => exact framed_turns h fun u => bodyCreditAdjust_turns u ..
  | putProduct => exact framed_turns h fun u => bodyPutProduct_turns u ..
  | stagePrices => exact framed_turns h fun u => bodyStagePrices_turns u ..
  | setLimitSettings => exact framed_turns h fun u => bodySetLimitSettings_turns u ..
  | adjustStock => exact framed_turns h fun u => bodyAdjustStock_turns u ..
  | setStockLimits => exact framed_turns h fun u => bodySetStockLimits_turns u ..
  | releaseThrough => exact framed_turns h fun u => bodyReleaseThrough_turns u ..
  | setTime => exact framed_turns h fun u => bodySetTime_turns u ..
  | trimClock => exact framed_turns h fun u => bodyTrimClock_turns u ..
  | setShifts => exact framed_turns h fun u => bodySetShifts_turns u ..
  | setSuctionPolicy => exact framed_turns h fun u => bodySetSuctionPolicy_turns u ..
  | yieldAccountRole => exact framed_turns h fun u => bodyYieldAccountRole_turns u ..
  | denyAccountRole => exact framed_turns h fun u => bodyDenyAccountRole_turns u ..
  | setKFactor => exact framed_turns h fun u => bodySetKFactor_turns u ..
  | setRatedFlow => exact framed_turns h fun u => bodySetRatedFlow_turns u ..
  | setLinearisation => exact framed_turns h fun u => bodySetLinearisation_turns u ..
  | setPointVolumes => exact framed_turns h fun u => bodySetPointVolumes_turns u ..
  | setPointTimes => exact framed_turns h fun u => bodySetPointTimes_turns u ..
  | setSuctionTimes => exact framed_turns h fun u => bodySetSuctionTimes_turns u ..
  | setPumpFault => exact framed_turns h fun u => bodySetPumpFault_turns u ..
  | setPumpRun => exact framed_turns h fun u => bodySetPumpRun_turns u ..
  | configureCompartment => exact framed_turns h fun u => bodyConfigureCompartment_turns u ..
  | removeCompartment => exact framed_turns h fun u => bodyRemoveCompartment_turns u ..
  | setStrapping => exact framed_turns h fun u => bodySetStrapping_turns u ..
  | setStockSettle => exact framed_turns h fun u => bodySetStockSettle_turns u ..
  | setLoadSettings => exact framed_turns h fun u => bodySetLoadSettings_turns u ..
  | setCouplingGrace => exact framed_turns h fun u => bodySetCouplingGrace_turns u ..
  | setPortSupervision => exact framed_turns h fun u => bodySetPortSupervision_turns u ..
  | setWakeSettle => exact framed_turns h fun u => bodySetWakeSettle_turns u ..
  | _ => cases hf

/-! ### The rows of the field, the timers and the power -/

theorem State.expireClose_turns (p : PointId) (x : Timer) (k : EndCause) : s.Turns (s.expireClose p x k) :=
  .ite (fun _ => .follow (s.closeOn_goes p k) s) fun _ => .refl s

theorem State.findSilent_goes : s.Goes s.findSilent := by
  have silent : s.Goes ((s.setWatch { s.watch with timer := none, silent := true }).raise .consoleSilent) :=
    .after (State.raise_goes _ _) (.of_still rfl rfl)
  unfold State.findSilent
  refine silent.trans ?_
  generalize (s.setWatch { s.watch with timer := none, silent := true }).raise .consoleSilent = t
  dsimp only
  split
  · exact .refl t
  · refine .after (State.suspendFlow_goes _ _ _) <| .after (State.suspendFlow_goes _ _ _) ?_
    exact .of_still rfl rfl

theorem State.endSettling_turns : s.Turns s.endSettling := by
  unfold State.endSettling
  split
  · next e current =>
    split
    · split
      · exact .follow (.after (State.afterEntry_goes _ (by simp [State.closeReceipt, State.endEntry]))
          (s.closeReceipt_goes e _ _ _ current)) s
      · exact .refl s
    · exact .refl s
  · exact .refl s

theorem event_turns {i : Instr} {s t : State} (hf : framing i = none) (h : exec i s = .next t) : s.Turns t := by
  cases i with
  | badFrame => exact turns_next h (.after (State.reply_turns _ _ _) (s.frameReceived_turns _))
  | frameTimeout => exact turns_next h (.refl s)
  | frameWhileAnswering port frame =>
    refine turns_next h (.ite (fun _ => ?_) fun _ => .refl s)
    cases frame with
    | good => exact .after (State.queueExtra_turns _ _ _) (s.frameReceived_turns _)
    | bad => exact .after (State.queueExtra_turns _ _ _) (s.frameReceived_turns _)
  | frameDuringRecovery =>
    exact turns_next h (.ite (fun _ => .after (State.reply_turns _ _ _) (s.frameReceived_turns _)) fun _ => .refl s)
  | responseSent =>
    exact turns_next h (.ite (fun _ => .of_gist rfl (s.setPort_lines _ _ id)) fun _ => .refl s)
  | unknownCommandCode => exact framed_turns h fun u => .refl u
  | meterPulse => exact turns_next h (.ite (fun _ => .refl s) fun _ => .of_still rfl rfl)
  | meterWindowEnd =>
    exact turns_next h (.ite (fun _ => .refl s) fun _ => .after (State.ownerActs_turns _ _) (s.endWindow_turns _ _))
  | nozzleOffHook => exact turns_next h (s.setCoupler_turns _ _)
  | nozzleOnHook => exact turns_next h (.ite (fun _ => s.hangNozzle_turns _) fun _ => .refl s)
  | tagRead p reply =>
    refine turns_next h (.ite (fun _ => .refl s) fun _ => ?_)
    cases reply with
    | none => exact s.failedRead_turns p
    | some x => exact s.validRead_turns p _
  | couplingGraceExpiry => exact turns_next h (s.expireClose_turns _ _ _)
  | triggerPress p =>
    have pressed := s.setPoint_turns p { s.point p with trigger := true } rfl
    exact turns_next h (.ite (fun _ => .refl s) fun _ => .ite (fun _ => pressed) fun _ =>
      pressed.trans (State.press_turns _ p))
  | triggerRelease p =>
    have released := s.setPoint_turns p { s.point p with trigger := false } rfl
    exact turns_next h (.ite (fun _ => .ite (fun _ => released) fun _ => released.trans (State.letGo_turns _ p))
      fun _ => .refl s)
  | authTimerExpiry => exact turns_next h (s.expireClose_turns _ _ _)
  | pressWaitExpiry => exact turns_next h (s.expireClose_turns _ _ _)
  | pumpFaultSuspendExpiry => exact turns_next h (s.expireClose_turns _ _ _)
  | meterSettleExpiry p =>
    refine turns_next h ?_
    split
    · exact s.expireClose_turns _ _ _
    · exact .refl s
  | selectorArrival =>
    refine turns_next h ?_
    split
    · next c hc => exact .follow (s.arrive_goes c hc) s
    · exact .refl s
    · exact .refl s
  | suctionHoldExpiry p =>
    refine turns_next h (.ite (fun _ => .follow ?_ s) fun _ => .refl s)
    exact s.setArbiter_goes _ rfl rfl rfl
  | pumpRampExpiry =>
    refine turns_next h (.ite (fun starting => ?_) fun _ => .refl s)
    refine .after (.of_gist (State.testNoFlow_gist _) (State.testNoFlow_goes _).lines) ?_
    refine .of_flow (s.setPump_goes _ (fun agrees => ?_) fun on => .inl ?_) ?_ fun _ => rfl
    · have on : s.pump.drive = true := agrees.mpr (.inl starting.1)
      simp [Pump.driveAgrees, Pump.run, on]
    · simpa [Pump.run] using on
    · simp [Pump.run]
  | pumpSenseChange speed current supply =>
    obtain ⟨state, drive⟩ :=
      { s.pump with speed := speed, current := current, supply := supply }.testAll.followSupply_parts s.pump.supply
    refine turns_next h (.ite (fun _ => s.setPump_turns _ rfl rfl) fun _ => s.setPump_turns _ ?_ ?_)
    · rw [state, Pump.testAll_state]
    · rw [drive, Pump.testAll_drive]
  | faultDeglitchExpiry =>
    exact turns_next h (.ite (fun _ => .follow (s.detect_goes _) s) fun _ => .refl s)
  | pumpOvercurrent =>
    exact turns_next h (.ite (fun _ => .follow (s.detect_goes _) s) fun _ => .refl s)
  | noFlowTimerExpiry =>
    refine turns_next h (.ite (fun _ => .follow ?_ s) fun _ => .refl s)
    exact .after (State.detect_goes _ _) (s.setPump_still _ rfl rfl)
  | retryTimerExpiry =>
    exact turns_next h (.ite (fun k => .follow (s.releasePump_goes (.inl k.1)) s) fun _ => .refl s)
  | cleanRunExpiry => exact turns_next h (.ite (fun _ => s.setPump_turns _ rfl rfl) fun _ => .refl s)
  | clearTimerExpiry =>
    exact turns_next h (.ite (fun k => .follow (s.releasePump_goes (.inr k.1)) s) fun _ => .refl s)
  | consoleTimerExpiry =>
    exact turns_next h (.ite (fun _ => .of_still rfl rfl) fun _ =>
      .ite (fun _ => .follow s.findSilent_goes s) fun _ => .refl s)
  | stockSettleExpiry c =>
    exact turns_next h (.ite (fun _ => .after (State.reconcile_turns _ _ c) (s.modComp_turns c _ fun _ => rfl))
      fun _ => .refl s)
  | levelProbeReading c reading =>
    have probed : s.Turns { s with probes := s.probes.set c reading } := .of_still rfl rfl
    exact turns_next h (.ite (fun _ => .after (State.modComp_turns _ c _ fun _ => rfl) probed) fun _ => probed)
  | highLevelSwitch c active =>
    have switched : s.Turns (s.setLoader { s.loader with highLevel := s.loader.highLevel.set c active }) :=
      .of_still rfl rfl
    exact turns_next h (.ite (fun _ => .after (State.stopLoading_turns _ _) switched) fun _ => switched)
  | loadNoFlowExpiry => exact turns_next h (.ite (fun _ => s.stopLoading_turns _) fun _ => .refl s)
  | loadSettleExpiry => exact turns_next h (.ite (fun _ => s.endSettling_turns) fun _ => .refl s)
  | clockMinute =>
    exact turns_next h (.ite (fun _ => s.passMinute_turns) fun _ => s.passMinute_turns.trans (State.evaluateShift_turns _))
  | roleAnswerTimerExpiry => exact turns_next h (.ite (fun _ => s.denyRequest_turns) fun _ => .refl s)
  | roleLapse =>
    refine turns_next h (.ite (fun _ => ?_) fun _ => .refl s)
    exact .after (State.applyLapse_turns _) (.of_gist rfl (s.setPort_lines _ _ id))
  | calibrationSwitchChange closed =>
    have switched : s.Turns (s.setRoles { s.roles with calibration := closed }) := .of_still rfl rfl
    exact turns_next h (.ite (fun _ => switched) fun _ => switched.trans (State.switchRole_turns _ _))
  | ignitionOff =>
    have line : s.Turns (s.setPower { s.power with ignition := false }) := s.setPower_still _ rfl
    have off (out : s.power.state ≠ .inReset) :
        s.Turns ((((s.setPower { s.power with ignition := false }).standBy.ignitionEnds .a).ignitionEnds .b).follow s) := by
      refine .follow (.after (State.ignitionEnds_goes _ _) <| .after (State.ignitionEnds_goes _ _) ?_) s
      exact line.goes.trans (State.setPower_goes _ _ (by simp) fun k => absurd k out)
    refine turns_next h ?_
    split
    · next k => exact off (by rw [k]; decide)
    · next k => exact off (by rw [k]; decide)
    · exact line
    · exact line
  | ignitionOn =>
    have line : s.Turns (s.setPower { s.power with ignition := true }) := s.setPower_still _ rfl
    refine turns_next h ?_
    split
    · next k =>
      exact .follow (line.goes.trans (State.setPower_goes _ _ (by simp) fun m => absurd (k.symm.trans m) (by decide))) s
    · exact line
    · exact line
    · exact line
  | wakeSettleExpiry =>
    refine turns_next h (.ite (fun k => .follow ?_ s) fun _ => .refl s)
    exact s.setPower_goes _ (by simp) fun m => absurd (k.2.symm.trans m) (by decide)
  | supplyFail =>
    refine turns_next h (.after (State.enterReset_turns _) <| .after (State.setPower_still _ _ (by rfl)) <|
      .after (State.endWindow_turns _ _ _) <| .after (State.endWindow_turns _ _ _) (s.endWindow_turns _ _))
  | resetPin => exact turns_next h (.after (State.enterReset_turns _) (s.setPower_still _ (by rfl)))
  | powerOn => exact turns_next h (.after (State.enterReset_turns _) (s.setPower_still _ (by rfl)))
  | resetExit x => exact turns_next h (.ite (fun k => s.exitReset_turns x k) fun _ => .refl s)
  | _ => cases hf

theorem exec_turns {i : Instr} {s t : State} (h : exec i s = .next t) : s.Turns t := by
  cases hf : framing i with
  | none => exact event_turns hf h
  | some f => exact command_turns hf h

/-! ### Time -/

theorem State.tick_turns : s.Turns s.tick := by
  have clock (u : State) : u.Turns u.tickClock := .ite (fun _ => .refl u) fun _ => .of_still rfl rfl
  have queue (u : State) (l : List Instr) : u.Turns { u with pending := l } := .of_still rfl rfl
  have timers : s.Turns s.tickTimers := by
    have comps : (s.stock.map fun x => x.map Compartment.tick).map (fun x => x.map Compartment.gist) =
        s.stock.map fun x => x.map Compartment.gist := by
      simp only [Quad.map, Option.map_map]
      rfl
    refine .of_gist ?_ fun o h => by cases o <;> exact h
    simp only [State.gist, State.tickTimers, comps]
    simp [Arbiter.tick, tickTimer, Point.tick, Point.gist, Pump.tick]
  exact .ite (fun _ => .after (queue _ _) (clock s)) fun _ => .after (queue _ _) <| .after (clock _) timers

/-- Every step is a chain of acts, with the attention lines right and the pump following its run condition. -/
theorem step_turns {s t : State} (h : step s = .next t) : s.Turns t := by
  unfold step at h
  split at h
  · exact turns_next h s.tick_turns
  · exact .after (exec_turns h) (.of_still rfl rfl)

end rows

end Sys2Proof.Machine

/-! SUPPORT AND CERTIFICATES. The invariants O7 to O14, each from what the acts keep of it. -/

namespace Sys2Proof.Machine

open Sys2Proof

/-- What every act keeps of a gist, every step keeps of the state. -/
theorem step_keeps {P : Gist → Prop} (act : ∀ g h, Gist.Act g h → P g → P h) {s t : State} (h : step s = .next t)
    (hs : P s.gist) : P t.gist := (step_turns h).goes.path.keeps act hs

/-- Settles O7: no act sets a valve apart from its point's state, or the motor and the travel timer from MOVING. -/
theorem outputsFollowTheirStates : Obligations.OutputsFollowTheirStates := by
  intro s t h
  rw [State.valvesAgree_gist, State.valvesAgree_gist, State.selectorAgrees_gist, State.selectorAgrees_gist]
  exact ⟨step_keeps (fun _ _ => Gist.Act.valvesAgree) h, step_keeps (fun _ _ => Gist.Act.selectorAgrees) h⟩

/-- Settles O8: every step that moves a point, the selector or the pump's drive ends with the pump following its run
condition, and the acts keep the drive with the pump's state and a reset quiet. -/
theorem pumpRunsOnlyOnFlow : Obligations.PumpRunsOnlyOnFlow := by
  intro s t hs h
  rw [State.pumpSafe_gist] at hs ⊢
  obtain ⟨agrees, follows, quiet⟩ := hs
  obtain ⟨agrees', quiet'⟩ := step_keeps (fun _ _ => Gist.Act.pumpCalm) h ⟨agrees, quiet⟩
  exact ⟨agrees', (step_turns h).pump ⟨agrees, quiet⟩ follows, quiet'⟩

/-- Settles O9: what a selector comes to hold is in service, loading starts on a compartment it does not hold, and only the
current entry fills or drains. -/
theorem noSuctionFromLoading : Obligations.NoSuctionFromLoading := by
  intro s t h
  rw [State.inletsSafe_gist, State.inletsSafe_gist, State.loadsAgree_gist, State.loadsAgree_gist]
  exact ⟨step_keeps (fun _ _ => Gist.Act.inletsSafe) h, step_keeps (fun _ _ => Gist.Act.loadsAgree) h⟩

/-- Settles O10: every write of a pending set, a mask or an enable lets the line follow. -/
theorem attentionFollowsNotices : Obligations.AttentionFollowsNotices := fun _ _ hs h o =>
  (step_turns h).goes.lines o (hs o)

/-- Settles O11: a PUT inserts in order, a DROP thins, and every other act changes records in place. -/
theorem tablesStayOrdered : Obligations.TablesStayOrdered := by
  intro s t h
  rw [State.rosterOrdered_gist, State.rosterOrdered_gist, State.accountsOrdered_gist, State.accountsOrdered_gist]
  exact ⟨step_keeps (P := fun g => rosterOrdered g.roster) (fun _ _ => Gist.Act.rosterOrdered) h,
    step_keeps (P := fun g => accountsOrdered g.accounts) (fun _ _ => Gist.Act.accountsOrdered) h⟩

/-- Settles O12: records are stored with the next number and freed from the oldest. -/
theorem journalStaysContiguous : Obligations.JournalStaysContiguous := by
  intro s t hs h
  rw [State.contiguous_gist] at hs ⊢
  exact step_keeps (fun _ _ => Gist.Act.contiguous) h hs

/-- Settles O13: each act that opens or ends work takes or gives back its slot. -/
theorem slotsStayHeld : Obligations.SlotsStayHeld := by
  intro s t hs h
  rw [State.slotsAgree_gist] at hs ⊢
  exact step_keeps (fun _ _ => Gist.Act.slotsAgree) h hs

/-- Settles O14: each act that opens, closes, lowers or switches a delivery moves the reserved sums with it. -/
theorem reservationsStayExact : Obligations.ReservationsStayExact := by
  intro s t hs h
  rw [State.booksAgree_gist] at hs ⊢
  exact step_keeps (fun _ _ => Gist.Act.booksAgree) h hs

end Sys2Proof.Machine

/-! CERTIFICATES. The queue, the reset state, the frame rows, and the answers of a command that is not taken. -/

namespace Sys2Proof.Machine

open Sys2Proof

/-- Settles O1: `step` takes the front of the queue. -/
theorem stepTakesTheFront : Obligations.StepTakesTheFront := fun _ _ _ => rfl

/-- Settles O3: each arm of `exec` answers a next state. -/
theorem everyRowIsTaken : Obligations.EveryRowIsTaken := by
  intro i s
  cases hf : framing i with
  | some f =>
    obtain ⟨r, code, a⟩ := f
    obtain ⟨body, framed⟩ := exec_of_framing hf
    exact ⟨_, framed s⟩
  | none => cases i <;> exact ⟨_, rfl⟩

/-- Settles O6: an ANSWERING port queues or drops the BUSY, and a READY port sends it in reset. -/
theorem busyIsAnswered : Obligations.BusyIsAnswered := by
  intro i r code a s u hf hu
  obtain ⟨body, framed⟩ := exec_of_framing hf
  subst hu
  refine ⟨fun answering none => ?_, fun answering queued => ?_, fun ready reset => ?_⟩
  · rw [framed, s.framed_answering r code a body answering, State.queueExtra]
    simp [none]
  · rw [framed, s.framed_answering r code a body answering, State.queueExtra]
    simp [queued]
  · rw [framed, s.framed_inReset r code a body ready reset]
    rfl

/-! ### The reset state -/

theorem reset_quiet : State.reset.gist.Quiet := fun _ => ⟨fun p => by cases p <;> rfl, rfl⟩

theorem reset_workAgrees : State.reset.gist.WorkAgrees :=
  ⟨fun p _ => by cases p <;> decide, fun p _ => by cases p <;> rfl, fun _ => rfl⟩

/-- In the reset state compartment 1 alone has a record: out of service, empty and unreserved. -/
theorem reset_comps (c : CompId) (x : CompGist) (h : State.reset.gist.comps.get c = some x) :
    x = { state := .outOfService, draining := false, reserved := 0 } := by
  cases c <;> cases h
  rfl

theorem reset_loadsAgree : State.reset.gist.LoadsAgree := by
  refine ⟨fun _ => rfl, nofun, fun c => ?_⟩
  unfold Gist.loadsFor
  cases h : State.reset.gist.comps.get c with
  | none => simp
  | some x => simp [reset_comps c x h]

theorem reset_booksAgree : State.reset.gist.BooksAgree where
  work := reset_workAgrees
  roster := ⟨.nil, by decide⟩
  accounts := .nil
  distinct := fun p d _ hd => by cases p <;> cases hd
  backing := fun p d hd => by cases p <;> cases hd
  machineSums := fun m hm => by cases hm
  accountSums := fun a ha => by cases ha
  compSums := fun c x hx => by rw [reset_comps c x hx]; rfl

/-- Settles O17: nothing is open, held, driven or reserved, and the tables and the journal are empty. -/
theorem resetHasTheInvariants : Obligations.ResetHasTheInvariants := by
  refine ⟨?_, ?_, ?_, ?_, State.reset.loadsAgree_gist.mpr reset_loadsAgree, fun o => ?_, ⟨.nil, by decide⟩, .nil, ?_, ?_,
    State.reset.booksAgree_gist.mpr reset_booksAgree⟩
  · rw [State.valvesAgree_gist]
    intro p
    cases p <;> exact ⟨by simp [State.reset, State.gist, Pair.get, Point.gist, Point.factory], by decide⟩
  · rw [State.pumpSafe_gist]
    exact ⟨by unfold Gist.driveAgrees; decide, nofun, reset_quiet⟩
  · exact ⟨⟨nofun, nofun⟩, ⟨nofun, nofun⟩⟩
  · intro c
    refine ⟨nofun, fun h => ?_⟩
    cases c <;> cases h
  · cases o <;> (unfold Port.lineAgrees; decide)
  · intro i r h
    cases h
  · rw [State.slotsAgree_gist]
    exact ⟨reset_workAgrees, rfl, by decide⟩

/-! ### Taken commands that change nothing -/

section denials

variable (s : State)

/-- What a body answers: OK, ACCEPTED, or an error that leaves the state (R176). -/
def State.Heeds (x : State × Reply) : Prop := x.2.status = .ok ∨ x.2.status = .accepted ∨ x.1 = s

variable {s}

theorem State.Heeds.ite {c : Prop} [Decidable c] {x y : State × Reply} (hx : c → s.Heeds x) (hy : ¬ c → s.Heeds y) :
    s.Heeds (if c then x else y) := by
  split
  · next h => exact hx h
  · next h => exact hy h

theorem State.Heeds.ok (t : State) : s.Heeds (t, Reply.ok) := .inl rfl

theorem State.Heeds.okWith (t : State) (l : List Field) : s.Heeds (t, Reply.okWith l) := .inl rfl

theorem State.Heeds.same (x : Reply) : s.Heeds (s, x) := .inr (.inr rfl)

variable (s)

theorem bodyGetStatus_heeds (n : Nat) : s.Heeds (bodyGetStatus n s) := by
  unfold bodyGetStatus; split <;> exact .same _

theorem bodyGetMachine_heeds (k : Nat) (v : BitVec 64) : s.Heeds (bodyGetMachine k v s) := by
  unfold bodyGetMachine; split <;> exact .same _

theorem bodyGetAccount_heeds (n : Nat) : s.Heeds (bodyGetAccount n s) := by
  refine .ite (fun _ => ?_) fun _ => .same _
  split <;> exact .same _

theorem bodyGetStock_heeds (n : Nat) : s.Heeds (bodyGetStock n s) := by
  unfold bodyGetStock
  split
  · exact .same _
  · split <;> exact .same _

theorem bodyReadJournal_heeds (q : SeqNo) (n : Nat) : s.Heeds (bodyReadJournal q n s) := by
  refine .ite (fun _ => ?_) fun _ => .same _
  split <;> exact .same _

theorem bodySetNoticeMask_heeds (o : PortId) (m e : Nat) : s.Heeds (bodySetNoticeMask o m e s) := by
  unfold bodySetNoticeMask
  split
  · exact .ite (fun _ => .ok _) fun _ => .same _
  · exact .same _

theorem bodyRequestAccountRole_heeds (o : PortId) : s.Heeds (bodyRequestAccountRole o s) :=
  .ite (fun _ => .same _) fun _ => .ite (fun _ => .ok _) fun _ => .ite (fun _ => .same _) fun _ => .inr (.inl rfl)

theorem State.presetOpen_heeds (p : PointId) (d : Delivery) (x : Option Preset) : s.Heeds (s.presetOpen p d x) := by
  unfold State.presetOpen
  split
  · exact .same _
  · exact .ite (fun _ => .ok _) fun _ => .same _

theorem bodySetPreset_heeds (p k v : Nat) : s.Heeds (bodySetPreset p k v s) := by
  unfold bodySetPreset
  split
  · split
    · exact s.presetOpen_heeds _ _ _
    · exact .ok _
  · exact .same _

theorem bodyStopPoint_heeds (n : Nat) : s.Heeds (bodyStopPoint n s) := by
  unfold bodyStopPoint
  split
  · exact .same _
  · exact .ite (fun _ => .ok _) fun _ => .ite (fun _ => .ok _) fun _ => .same _

theorem bodyStopRepeat_heeds (n : Nat) : s.Heeds (bodyStopRepeat n s) := by
  unfold bodyStopRepeat
  split
  · exact .same _
  · exact .ite (fun _ => .ok _) fun _ => .same _

theorem bodySetPointMode_heeds (p m c : Nat) : s.Heeds (bodySetPointMode p m c s) := by
  unfold bodySetPointMode
  split
  · exact .ite (fun _ => .ok _) fun _ => .same _
  · exact .same _

theorem bodyParkPoint_heeds (n : Nat) : s.Heeds (bodyParkPoint n s) := by
  unfold bodyParkPoint
  split
  · exact .same _
  · exact .ite (fun _ => .ok _) fun _ => .same _

theorem bodyUnparkPoint_heeds (n : Nat) : s.Heeds (bodyUnparkPoint n s) := by
  unfold bodyUnparkPoint
  split
  · exact .same _
  · exact .ok _

theorem bodyClearPumpFault_heeds : s.Heeds (bodyClearPumpFault s) :=
  .ite (fun _ => .ite (fun _ => .ok _) fun _ => .same _) fun _ => .same _

theorem bodyOpenLoadPlan_heeds (d : RawOpt (List Nat)) : s.Heeds (bodyOpenLoadPlan d s) := by
  unfold bodyOpenLoadPlan
  split
  · exact .same _
  · exact .ite (fun _ => .same _) fun _ => .ite (fun _ => .same _) fun _ => .ok _

theorem bodyAppendLoadEntry_heeds (c t : Nat) : s.Heeds (bodyAppendLoadEntry c t s) := by
  unfold bodyAppendLoadEntry
  split
  · exact .ite (fun _ => .same _) fun _ => .ite (fun _ => .same _) fun _ => .ite (fun _ => .same _) fun _ => .okWith _ _
  · exact .same _

theorem bodyStopLoad_heeds : s.Heeds (bodyStopLoad s) := by
  unfold bodyStopLoad
  split
  · exact .same _
  · split <;> exact .inl rfl

theorem bodyCloseLoadPlan_heeds : s.Heeds (bodyCloseLoadPlan s) := by
  refine .ite (fun _ => .same _) fun _ => ?_
  split
  · exact .ok _
  · split <;> exact .ok _

theorem bodySetCompartmentService_heeds (n on : Nat) : s.Heeds (bodySetCompartmentService n on s) := by
  unfold bodySetCompartmentService
  split
  · split
    · exact .same _
    · split
      · exact .same _
      · exact .ok _
  · exact .same _

theorem bodyReconcile_heeds (n : Nat) : s.Heeds (bodyReconcile n s) := by
  refine .ite (fun _ => .okWith _ _) fun _ => ?_
  split
  · exact .same _
  · exact .ite (fun _ => .same _) fun _ => .okWith _ _

theorem bodyPutMachine_heeds (raw : RawMachine) : s.Heeds (bodyPutMachine raw s) := by
  unfold bodyPutMachine
  split
  · exact .same _
  · exact .ite (fun _ => .same _) fun _ => .ite (fun _ => .same _) fun _ => .ite (fun _ => .same _) fun _ => .ok _

theorem bodyDropMachine_heeds (n : Nat) : s.Heeds (bodyDropMachine n s) :=
  .ite (fun _ => .same _) fun _ => .ite (fun _ => .same _) fun _ => .ite (fun _ => .same _) fun _ => .ok _

theorem bodyPutAccount_heeds (n : Nat) (code : List Nat) (credit tier closed : Nat) :
    s.Heeds (bodyPutAccount n code credit tier closed s) := by
  unfold bodyPutAccount
  split
  · exact .ok _
  · exact .same _

theorem bodyCreditAdjust_heeds (n credit reset : Nat) : s.Heeds (bodyCreditAdjust n credit reset s) := by
  unfold bodyCreditAdjust
  split
  · split
    · exact .same _
    · exact .ite (fun _ => .same _) fun _ => .ok _
  · exact .same _

theorem bodyPutProduct_heeds (q : Nat) (code : List Nat) (alpha points : Nat) :
    s.Heeds (bodyPutProduct q code alpha points s) := by
  unfold bodyPutProduct
  split
  · exact .ok _
  · exact .same _

theorem bodyStagePrices_heeds (c : Nat) (x : Quad (Quad Nat)) : s.Heeds (bodyStagePrices c x s) := by
  unfold bodyStagePrices
  split
  · exact .ok _
  · exact .ok _
  · exact .same _

theorem bodyAdjustStock_heeds (n book : Nat) : s.Heeds (bodyAdjustStock n book s) := by
  unfold bodyAdjustStock
  split
  · split
    · exact .same _
    · exact .ite (fun _ => .same _) fun _ => .ite (fun _ => .same _) fun _ => .ok _
  · exact .same _

theorem bodySetStockLimits_heeds (n r t : Nat) : s.Heeds (bodySetStockLimits n r t s) := by
  unfold bodySetStockLimits
  split
  · exact .ite (fun _ => .same _) fun _ => .ok _
  · exact .same _

theorem bodyReleaseThrough_heeds (q : SeqNo) : s.Heeds (bodyReleaseThrough q s) := by
  unfold bodyReleaseThrough
  split
  · exact .okWith _ _
  · exact .okWith _ _
  · exact .same _

theorem bodySetSuctionPolicy_heeds (x p : Nat) : s.Heeds (bodySetSuctionPolicy x p s) := by
  unfold bodySetSuctionPolicy
  split
  · exact .ok _
  · exact .same _

theorem bodyYieldAccountRole_heeds : s.Heeds (bodyYieldAccountRole s) := by
  unfold bodyYieldAccountRole
  split
  · exact .ok _
  · exact .same _

theorem bodyDenyAccountRole_heeds : s.Heeds (bodyDenyAccountRole s) := by
  unfold bodyDenyAccountRole
  split
  · exact .ok _
  · exact .same _

theorem bodySetKFactor_heeds (c k : Nat) : s.Heeds (bodySetKFactor c k s) := by
  unfold bodySetKFactor
  split
  · exact .ite (fun _ => .same _) fun _ => .ok _
  · exact .same _

theorem bodySetRatedFlow_heeds (c k : Nat) : s.Heeds (bodySetRatedFlow c k s) := by
  unfold bodySetRatedFlow
  split
  · exact .ok _
  · exact .same _

theorem bodySetLinearisation_heeds (c : Nat) (l : List (Nat × Nat)) : s.Heeds (bodySetLinearisation c l s) := by
  unfold bodySetLinearisation
  split
  · exact .ite (fun _ => .same _) fun _ => .ok _
  · exact .same _

theorem bodySetPointVolumes_heeds (p a b : Nat) : s.Heeds (bodySetPointVolumes p a b s) := by
  unfold bodySetPointVolumes
  split
  · exact .ite (fun _ => .ok _) fun _ => .same _
  · exact .same _

theorem bodySetPumpFault_heeds (k a d x y : Nat) : s.Heeds (bodySetPumpFault k a d x y s) := by
  unfold bodySetPumpFault
  split
  · split
    · exact .ok _
    · exact .same _
  · exact .same _

theorem bodyConfigureCompartment_heeds (a b c d e f : Nat) : s.Heeds (bodyConfigureCompartment a b c d e f s) := by
  unfold bodyConfigureCompartment
  split
  · split
    · exact .ok _
    · exact .ite (fun _ => .same _) fun _ => .ite (fun _ => .same _) fun _ => .ok _
  · exact .same _

theorem bodyRemoveCompartment_heeds (n : Nat) : s.Heeds (bodyRemoveCompartment n s) := by
  unfold bodyRemoveCompartment
  split
  · exact .same _
  · split
    · exact .same _
    · exact .ite (fun _ => .same _) fun _ => .ite (fun _ => .same _) fun _ => .ite (fun _ => .same _) fun _ => .ok _

theorem bodySetStrapping_heeds (n : Nat) (l : List (Nat × Nat)) : s.Heeds (bodySetStrapping n l s) := by
  unfold bodySetStrapping
  split
  · exact .ite (fun _ => .same _) fun _ => .ok _
  · exact .same _

theorem bodySetLoadSettings_heeds (a b : Nat) : s.Heeds (bodySetLoadSettings a b s) :=
  .ite (fun _ => .ite (fun _ => .same _) fun _ => .ok _) fun _ => .same _

theorem bodySetPortSupervision_heeds (a b c : Nat) : s.Heeds (bodySetPortSupervision a b c s) := by
  unfold bodySetPortSupervision
  split
  · exact .ok _
  · exact .same _

end denials

/-- A taken command is answered with its body's answer. -/
theorem answers_of_heeds {i : Instr} {r : Req} {code : Nat} {a : Access} {s : State} (body : State → State × Reply)
    (hi : ∀ v, exec i v = .next (v.framed r code a body)) (ht : s.takes r a) (hb : ∀ u : State, u.Heeds (body u)) :
    ∃ u x, Answers i s r code u x ∧ (x.status ≠ .ok → x.status ≠ .accepted → u = s.frameReceived r.port) := by
  refine ⟨_, _, Answers.of_body hi ht rfl, fun ok accepted => ?_⟩
  rcases hb (s.frameReceived r.port) with h | h | h
  · exact absurd h ok
  · exact absurd h accepted
  · exact h

/-- Settles O4: each body answers OK or ACCEPTED, or denies and leaves the state. -/
theorem errorsChangeNothing : Obligations.ErrorsChangeNothing := by
  intro i r code a s hf ht other
  cases i with
  | getStatus => cases hf; exact answers_of_heeds _ (fun _ => rfl) ht fun u => bodyGetStatus_heeds u _
  | getMachine => cases hf; exact answers_of_heeds _ (fun _ => rfl) ht fun u => bodyGetMachine_heeds u ..
  | getAccount => cases hf; exact answers_of_heeds _ (fun _ => rfl) ht fun u => bodyGetAccount_heeds u ..
  | getStock => cases hf; exact answers_of_heeds _ (fun _ => rfl) ht fun u => bodyGetStock_heeds u ..
  | readJournal => cases hf; exact answers_of_heeds _ (fun _ => rfl) ht fun u => bodyReadJournal_heeds u ..
  | getNotices => cases hf; exact answers_of_heeds _ (fun _ => rfl) ht fun u => .okWith _ _
  | getTime => cases hf; exact answers_of_heeds _ (fun _ => rfl) ht fun u => .okWith _ _
  | setNoticeMask => cases hf; exact answers_of_heeds _ (fun _ => rfl) ht fun u => bodySetNoticeMask_heeds u ..
  | requestAccountRole =>
    cases hf; exact answers_of_heeds _ (fun _ => rfl) ht fun u => bodyRequestAccountRole_heeds u ..
  | identifyManual r' p m h => exact absurd rfl (by cases hf; exact other p m h)
  | setPreset => cases hf; exact answers_of_heeds _ (fun _ => rfl) ht fun u => bodySetPreset_heeds u ..
  | stopPoint => cases hf; exact answers_of_heeds _ (fun _ => rfl) ht fun u => bodyStopPoint_heeds u ..
  | stopRepeat => cases hf; exact answers_of_heeds _ (fun _ => rfl) ht fun u => bodyStopRepeat_heeds u ..
  | setPointMode => cases hf; exact answers_of_heeds _ (fun _ => rfl) ht fun u => bodySetPointMode_heeds u ..
  | parkPoint => cases hf; exact answers_of_heeds _ (fun _ => rfl) ht fun u => bodyParkPoint_heeds u ..
  | unparkPoint => cases hf; exact answers_of_heeds _ (fun _ => rfl) ht fun u => bodyUnparkPoint_heeds u ..
  | clearPumpFault => cases hf; exact answers_of_heeds _ (fun _ => rfl) ht fun u => bodyClearPumpFault_heeds u ..
  | openLoadPlan => cases hf; exact answers_of_heeds _ (fun _ => rfl) ht fun u => bodyOpenLoadPlan_heeds u ..
  | appendLoadEntry => cases hf; exact answers_of_heeds _ (fun _ => rfl) ht fun u => bodyAppendLoadEntry_heeds u ..
  | stopLoad => cases hf; exact answers_of_heeds _ (fun _ => rfl) ht fun u => bodyStopLoad_heeds u ..
  | closeLoadPlan => cases hf; exact answers_of_heeds _ (fun _ => rfl) ht fun u => bodyCloseLoadPlan_heeds u ..
  | setCompartmentService =>
    cases hf; exact answers_of_heeds _ (fun _ => rfl) ht fun u => bodySetCompartmentService_heeds u ..
  | reconcile => cases hf; exact answers_of_heeds _ (fun _ => rfl) ht fun u => bodyReconcile_heeds u ..
  | putMachine => cases hf; exact answers_of_heeds _ (fun _ => rfl) ht fun u => bodyPutMachine_heeds u ..
  | dropMachine => cases hf; exact answers_of_heeds _ (fun _ => rfl) ht fun u => bodyDropMachine_heeds u ..
  | putAccount => cases hf; exact answers_of_heeds _ (fun _ => rfl) ht fun u => bodyPutAccount_heeds u ..
  | creditAdjust => cases hf; exact answers_of_heeds _ (fun _ => rfl) ht fun u => bodyCreditAdjust_heeds u ..
  | putProduct => cases hf; exact answers_of_heeds _ (fun _ => rfl) ht fun u => bodyPutProduct_heeds u ..
  | stagePrices => cases hf; exact answers_of_heeds _ (fun _ => rfl) ht fun u => bodyStagePrices_heeds u ..
  | setLimitSettings =>
    cases hf; exact answers_of_heeds _ (fun _ => rfl) ht fun u => .ite (fun _ => .ok _) fun _ => .same _
  | adjustStock => cases hf; exact answers_of_heeds _ (fun _ => rfl) ht fun u => bodyAdjustStock_heeds u ..
  | setStockLimits => cases hf; exact answers_of_heeds _ (fun _ => rfl) ht fun u => bodySetStockLimits_heeds u ..
  | releaseThrough => cases hf; exact answers_of_heeds _ (fun _ => rfl) ht fun u => bodyReleaseThrough_heeds u ..
  | setTime =>
    cases hf; exact answers_of_heeds _ (fun _ => rfl) ht fun u => .ite (fun _ => .okWith _ _) fun _ => .same _
  | trimClock =>
    cases hf; exact answers_of_heeds _ (fun _ => rfl) ht fun u => .ite (fun _ => .okWith _ _) fun _ => .same _
  | setShifts =>
    cases hf; exact answers_of_heeds _ (fun _ => rfl) ht fun u => .ite (fun _ => .okWith _ _) fun _ => .same _
  | setSuctionPolicy => cases hf; exact answers_of_heeds _ (fun _ => rfl) ht fun u => bodySetSuctionPolicy_heeds u ..
  | yieldAccountRole => cases hf; exact answers_of_heeds _ (fun _ => rfl) ht fun u => bodyYieldAccountRole_heeds u ..
  | denyAccountRole => cases hf; exact answers_of_heeds _ (fun _ => rfl) ht fun u => bodyDenyAccountRole_heeds u ..
  | setKFactor => cases hf; exact answers_of_heeds _ (fun _ => rfl) ht fun u => bodySetKFactor_heeds u ..
  | setRatedFlow => cases hf; exact answers_of_heeds _ (fun _ => rfl) ht fun u => bodySetRatedFlow_heeds u ..
  | setLinearisation => cases hf; exact answers_of_heeds _ (fun _ => rfl) ht fun u => bodySetLinearisation_heeds u ..
  | setPointVolumes => cases hf; exact answers_of_heeds _ (fun _ => rfl) ht fun u => bodySetPointVolumes_heeds u ..
  | setPointTimes =>
    cases hf; exact answers_of_heeds _ (fun _ => rfl) ht fun u => .ite (fun _ => .ok _) fun _ => .same _
  | setSuctionTimes =>
    cases hf; exact answers_of_heeds _ (fun _ => rfl) ht fun u => .ite (fun _ => .ok _) fun _ => .same _
  | setPumpFault => cases hf; exact answers_of_heeds _ (fun _ => rfl) ht fun u => bodySetPumpFault_heeds u ..
  | setPumpRun =>
    cases hf; exact answers_of_heeds _ (fun _ => rfl) ht fun u => .ite (fun _ => .ok _) fun _ => .same _
  | configureCompartment =>
    cases hf; exact answers_of_heeds _ (fun _ => rfl) ht fun u => bodyConfigureCompartment_heeds u ..
  | removeCompartment => cases hf; exact answers_of_heeds _ (fun _ => rfl) ht fun u => bodyRemoveCompartment_heeds u ..
  | setStrapping => cases hf; exact answers_of_heeds _ (fun _ => rfl) ht fun u => bodySetStrapping_heeds u ..
  | setStockSettle =>
    cases hf; exact answers_of_heeds _ (fun _ => rfl) ht fun u => .ite (fun _ => .ok _) fun _ => .same _
  | setLoadSettings => cases hf; exact answers_of_heeds _ (fun _ => rfl) ht fun u => bodySetLoadSettings_heeds u ..
  | setCouplingGrace =>
    cases hf; exact answers_of_heeds _ (fun _ => rfl) ht fun u => .ite (fun _ => .ok _) fun _ => .same _
  | setPortSupervision => cases hf; exact answers_of_heeds _ (fun _ => rfl) ht fun u => bodySetPortSupervision_heeds u ..
  | setWakeSettle =>
    cases hf; exact answers_of_heeds _ (fun _ => rfl) ht fun u => .ite (fun _ => .ok _) fun _ => .same _
  | _ => cases hf

end Sys2Proof.Machine

/-! CERTIFICATES. The frame rows, the items of a point, and a tenth of a second. -/

namespace Sys2Proof.Machine

open Sys2Proof

section frames

variable (s : State)

/-! ### Frames (R173 to R176, R186) -/

theorem State.setPoint_point_self (p : PointId) : s.setPoint p (s.point p) = s := by
  unfold State.setPoint State.point
  rw [Pair.set_get]

/-- A lift writes its point alone. -/
theorem State.lift_setPoint (p : PointId) (k : Cause) : s.lift p k = s.setPoint p ((s.lift p k).point p) := by
  unfold State.lift
  split
  · simp
  · exact (s.setPoint_point_self p).symm

/-- An OPERATOR frame writes the watch, the points and its port alone. -/
theorem State.frameReceived_operator :
    ∃ w x y z, s.frameReceived .operator =
      (((s.setPort .operator z).setWatch w).setPoint .a x).setPoint .b y := by
  unfold State.frameReceived
  rw [if_pos rfl, State.consoleTraffic, State.lift_setPoint _ .b, State.lift_setPoint _ .a]
  exact ⟨_, _, _, _, rfl⟩

theorem State.frameReceived_rest (o : PortId) :
    { s.frameReceived o with ports := s.ports, points := s.points, watch := s.watch } = s := by
  by_cases h : o = .operator
  · subst h
    obtain ⟨w, x, y, z, e⟩ := s.frameReceived_operator
    rw [e]; rfl
  · unfold State.frameReceived
    rw [if_neg h]; rfl

theorem State.frameReceived_quiet (o : PortId) (h : o ≠ .operator) : s.frameReceived o = s.setPort o { s.port o with silence := 0 } := by
  unfold State.frameReceived
  rw [if_neg h]

/-- An OPERATOR frame ends a suspension by the console's silence (R186). -/
theorem State.frameReceived_point (p : PointId) :
    (s.frameReceived .operator).point p =
      if (s.point p).state = .suspended .consoleSilent then
        { s.point p with
          state := .suspended .triggerReleased, authTimer := none, pumpSuspend := none
          pressWait := some s.times.holdToRun }
      else s.point p := by
  unfold State.frameReceived State.consoleTraffic
  rw [if_pos rfl]
  cases p with
  | a =>
    rw [State.lift_point_ne _ .b .a _ (by decide), State.lift_point]
    rfl
  | b =>
    rw [State.lift_point, State.lift_point_ne _ .a .b _ (by decide), State.lift_times]
    rfl

/-- An extra response is queued where none is, as the port stood before the frame. -/
theorem State.queueExtra_heard (o : PortId) (x : Response) (k : (s.port o).extra = none) :
    (s.frameReceived o).queueExtra o x =
      (s.frameReceived o).setPort o { s.port o with silence := 0, extra := some x } := by
  simp [State.queueExtra, k]

theorem State.queueExtra_dropped (o : PortId) (x : Response) (k : (s.port o).extra.isSome = true) :
    (s.frameReceived o).queueExtra o x = s.frameReceived o := by
  simp [State.queueExtra, k]

/-- A frame that reaches an ANSWERING port is answered behind the response being sent. -/
theorem State.reply_heard (o : PortId) (x : Response) (h : (s.port o).sending.isSome = true) :
    (s.frameReceived o).reply o x = (s.frameReceived o).queueExtra o x := by
  simp [State.reply, h]

theorem State.reply_ready (o : PortId) (x : Response) (h : (s.port o).sending = none) : s.reply o x = s.answer o x := by
  simp [State.reply, h]

theorem State.reply_queued (o : PortId) (x : Response) (h : (s.port o).sending.isSome = true)
    (k : (s.port o).extra = none) : s.reply o x = s.setPort o { s.port o with extra := some x } := by
  simp [State.reply, State.queueExtra, h, k]

theorem State.reply_dropped (o : PortId) (x : Response) (h : (s.port o).sending.isSome = true)
    (k : (s.port o).extra.isSome = true) : s.reply o x = s := by
  simp [State.reply, State.queueExtra, h, k]

/-- An answer writes its port's two responses alone. -/
theorem State.reply_writes (o : PortId) (x : Response) :
    ∃ a b, s.reply o x = s.setPort o { s.port o with sending := a, extra := b } := by
  unfold State.reply
  split
  · unfold State.queueExtra
    split
    · exact ⟨(s.port o).sending, (s.port o).extra, by cases o <;> rfl⟩
    · exact ⟨_, _, rfl⟩
  · exact ⟨_, _, rfl⟩

end frames

theorem badFrame_heard (o : PortId) (why : FrameDefect) (s : State) :
    ∃ t : State, exec (.badFrame o why) s = .next t ∧
      (t.port o).silence = 0 ∧
      ((s.port o).sending = none →
        (t.port o).sending = some { tag := 0, code := 0, status := .badFrame, reason := none, detail := none, data := [] }) ∧
      ((s.port o).sending.isSome = true → (s.port o).extra = none → (t.port o).sending = (s.port o).sending ∧
        (t.port o).extra = some { tag := 0, code := 0, status := .badFrame, reason := none, detail := none, data := [] }) ∧
      ((s.port o).sending.isSome = true → (s.port o).extra.isSome = true →
        t.port o = { s.port o with silence := 0 }) ∧
      (t.port o).notices = (s.port o).notices ∧ (t.port o).attention = (s.port o).attention ∧
      (∀ q, q ≠ o → t.port q = s.port q) ∧
      (o ≠ .operator → { t with ports := s.ports } = s) ∧
      (o = .operator →
        t.watch =
            { s.watch with
              silent := false, block := false
              timer := if s.watchActive then s.watch.timeout else s.watch.timer
              overtaken :=
                if s.watchActive then s.pending.count .consoleTimerExpiry else s.watch.overtaken } ∧
          (∀ p,
            t.point p =
              if (s.point p).state = .suspended .consoleSilent then
                { s.point p with
                  state := .suspended .triggerReleased, authTimer := none, pumpSuspend := none
                  pressWait := some s.times.holdToRun }
              else s.point p) ∧
          { t with ports := s.ports, points := s.points, watch := s.watch } = s) := by
  obtain ⟨a, b, writes⟩ := (s.frameReceived o).reply_writes o badFrameResponse
  refine ⟨_, rfl, ?_, fun h => ?_, fun h k => ?_, fun h k => ?_, ?_, ?_, fun q hq => ?_, fun h => ?_, fun h => ?_⟩
  · rw [writes]; simp
  · rw [State.reply_ready _ _ _ (by simpa using h)]; simp; rfl
  · rw [State.reply_queued _ _ _ (by simpa using h) (by simpa using k)]; simp; rfl
  · rw [State.reply_dropped _ _ _ (by simpa using h) (by simpa using k)]; simp
  · rw [writes]; simp
  · rw [writes]; simp
  · rw [writes]; simp [hq]
  · rw [writes, s.frameReceived_quiet o h]; rfl
  · subst h
    refine ⟨?_, fun p => ?_, ?_⟩
    · rw [writes, State.setPort_watch, State.frameReceived_watch, State.restartedWatch_eq, if_pos rfl]
    · rw [writes]; exact s.frameReceived_point p
    · rw [writes]; exact s.frameReceived_rest .operator

/-- Settles O18: each frame row in its port's state. -/
theorem framesAreHeardAndAnswered : Obligations.FramesAreHeardAndAnswered := by
  refine ⟨badFrame_heard, fun o r tag code why s => ⟨fun h k => ⟨?_, ?_⟩, fun h k f => ?_, fun h f => ?_, fun h => ?_,
    fun h i hi => ?_, fun h k => ?_, fun h k => ?_, fun h => congrArg _ (if_pos h), rfl, fun h => ?_⟩⟩
  · exact congrArg _ ((if_pos h).trans (s.queueExtra_heard o _ k))
  · exact congrArg _ ((if_pos h).trans (s.queueExtra_heard o _ k))
  · cases f with
    | good => exact congrArg _ ((if_pos h).trans (s.queueExtra_dropped o _ k))
    | bad => exact congrArg _ ((if_pos h).trans (s.queueExtra_dropped o _ k))
  · exact congrArg _ (if_neg (by simp [h]))
  · exact congrArg _ (if_neg (by simpa [State.inReset] using h))
  · have queued : exec i s = .next ((s.frameReceived r.port).queueExtra r.port ((Reply.of .busy).response r.tag code)) := by
      rcases hi with ⟨rfl, reset⟩ | rfl
      · exact congrArg _ ((if_pos (beq_iff_eq.mp reset)).trans (s.reply_heard _ _ h))
      · exact congrArg _ (s.framed_answering r code .anyPort State.badParam h)
    exact ⟨fun k => queued.trans (congrArg _ (s.queueExtra_heard _ _ k)),
      fun k => queued.trans (congrArg _ (s.queueExtra_dropped _ _ k))⟩
  · exact congrArg _ (s.framed_inReset r code .anyPort State.badParam k h)
  · exact congrArg _ ((if_pos (beq_iff_eq.mp h)).trans (State.reply_ready _ _ _ (by simpa using k)))
  · exact Answers.of_body (fun _ => rfl) h rfl

/-! ### Items of a point (R68, R70, R93) -/

/-- Settles O30: each body writes its item where its rule takes it. -/
theorem pointItemsAreSet : Obligations.PointItemsAreSet := by
  intro r s u n p ht hu hp
  subst hu
  refine ⟨fun h k => ?_, fun h => ?_, fun mode k count hk h1 h2 h => ?_, fun h => ?_, fun h => ?_, ?_⟩
  · exact Answers.of_body (fun _ => rfl) ht (by rw [bodyStopRepeat, hp]; exact if_pos ⟨h, k⟩)
  · refine Answers.of_body (fun _ => rfl) ht ?_
    rw [bodyStopRepeat, hp]
    exact if_neg fun k => h.elim k.1 fun m => m k.2
  · refine Answers.of_body (fun _ => rfl) ht ?_
    rw [bodySetPointMode, hp, hk, (inRange_iff ..).mpr ⟨h1, h2⟩]
    exact if_pos h
  · exact Answers.of_body (fun _ => rfl) ht (by rw [bodyParkPoint, hp]; exact if_pos h)
  · exact Answers.of_body (fun _ => rfl) ht (by rw [bodyParkPoint, hp]; exact if_neg h)
  · exact Answers.of_body (fun _ => rfl) ht (by rw [bodyUnparkPoint, hp])

end Sys2Proof.Machine

namespace Sys2Proof.Machine

open Sys2Proof

section tenth

variable (s : State)

/-! ### A tenth of a second (log entries 1, 2) -/

theorem mem_dueNow (i j : Instr) (t : Timer) : i ∈ dueNow t j ↔ i = j ∧ t = some 1 := by
  unfold dueNow
  split
  · next h => simp [h]
  · next h => simp [h]

theorem mem_dueMinute (i : Instr) :
    i ∈ s.dueMinute ↔ (i = .clockMinute ∧ s.clock.now.second = 59 ∧ s.clock.now.tenth = 9) := by
  unfold State.dueMinute
  split
  · next h => simpa [DateTime.atMinuteEnd] using fun _ => h
  · next h => simpa [DateTime.atMinuteEnd] using fun _ => h

theorem mem_dueSettle (i : Instr) (c : CompId) :
    i ∈ s.dueSettle c ↔ ∃ x, i = .stockSettleExpiry c ∧ s.comp c = some x ∧ x.settle = some 1 := by
  rw [State.dueSettle, mem_dueNow, Option.bind_eq_some_iff]
  simp

theorem State.holderLapsed_iff :
    s.holderLapsed = true ↔
      ¬ (s.roles.holder = .service ∧ s.roles.calibration = true) ∧
        s.watch.lapse ≤ (s.port s.roles.holder).silence := by
  simp only [State.holderLapsed, State.holderProtected, State.holdsCalibrate, Bool.and_eq_true, Bool.not_eq_true',
    Bool.and_eq_false_iff, beq_eq_false_iff_ne, decide_eq_true_eq, not_and_or, ne_eq, Bool.not_eq_true]

theorem mem_dueLapse (i : Instr) :
    i ∈ s.dueLapse ↔ (i = .roleLapse ∧ s.roles.requester.isSome = true ∧ s.holderLapsed = true) := by
  unfold State.dueLapse
  split
  · next h => simpa using fun _ => h
  · next h => simpa using fun _ k => by simpa [k] using h

theorem mem_num4 (c : CompId) : c ∈ Num4.all := by cases c <;> decide

theorem exists_pointId {P : PointId → Prop} : (∃ p, P p) ↔ P .a ∨ P .b :=
  ⟨fun ⟨p, h⟩ => by cases p; exacts [.inl h, .inr h], fun h => h.elim (⟨_, ·⟩) (⟨_, ·⟩)⟩

/-- The kinds that a deglitch timer detects. -/
theorem exists_deglitched {P : FaultKind → Prop} :
    (∃ k, k ≠ .noFlow ∧ k ≠ .overcurrent ∧ P k) ↔ P .stall ∨ P .dryRun ∨ P .supplyLow ∨ P .supplyHigh := by
  constructor
  · rintro ⟨k, h, h', hk⟩
    cases k <;> simp_all
  · rintro (h | h | h | h) <;> exact ⟨_, by decide, by decide, h⟩

theorem State.tickTimers_port (o : PortId) :
    s.tickTimers.port o = { s.port o with silence := min Config.max32 ((s.port o).silence + 1) } := by
  cases o <;> rfl

/-- The clock's tenth moves the clock alone. -/
theorem State.tickClock_eq :
    s.tickClock = { s with clock := s.tickClock.clock } := by
  unfold State.tickClock
  split <;> rfl

theorem State.tickTimers_lapsed :
    s.tickTimers.tickClock.holderLapsed = true ↔
      ¬ (s.roles.holder = .service ∧ s.roles.calibration = true) ∧
        s.watch.lapse ≤ min Config.max32 ((s.port s.roles.holder).silence + 1) := by
  rw [State.tickClock_eq, State.holderLapsed_iff]
  change ¬ (s.roles.holder = .service ∧ s.roles.calibration = true) ∧
    s.watch.lapse ≤ (s.tickTimers.port s.roles.holder).silence ↔ _
  rw [State.tickTimers_port]

theorem mem_duePoint (i : Instr) (p : PointId) :
    i ∈ s.duePoint p ↔
      (i = .authTimerExpiry p ∧ (s.point p).authTimer = some 1) ∨
        (i = .pressWaitExpiry p ∧ (s.point p).pressWait = some 1) ∨
        (i = .pumpFaultSuspendExpiry p ∧ (s.point p).pumpSuspend = some 1) ∨
        (i = .meterSettleExpiry p ∧ (s.point p).meterSettle = some 1) ∨
        (i = .couplingGraceExpiry p ∧ (s.coupler p).grace = some 1) := by
  simp only [State.duePoint, List.mem_append, mem_dueNow, or_assoc]

theorem mem_dueStock (i : Instr) :
    i ∈ Num4.all.flatMap s.dueSettle ↔
      ∃ c x, i = .stockSettleExpiry c ∧ s.comp c = some x ∧ x.settle = some 1 := by
  simp only [List.mem_flatMap, mem_num4, true_and, mem_dueSettle]

theorem or_shuffle (a b t ha hb r : Prop) :
    (a ∨ b ∨ t ∨ ha ∨ hb ∨ r) ↔ (a ∨ ha ∨ b ∨ hb ∨ t ∨ r) := by tauto

/-- Each timer at its last tenth, the lapse and the minute are queued, and nothing else is. -/
theorem mem_due (i : Instr) :
    i ∈ s.dueTimers ++ s.tickTimers.tickClock.dueLapse ++ s.dueMinute ↔ s.fallsDue i := by
  have requester : s.tickTimers.tickClock.roles.requester = s.roles.requester := by rw [State.tickClock_eq]; rfl
  have points (p : PointId) :
      ((i = .authTimerExpiry p ∧ (s.point p).authTimer = some 1) ∨
        (i = .pressWaitExpiry p ∧ (s.point p).pressWait = some 1) ∨
        (i = .pumpFaultSuspendExpiry p ∧ (s.point p).pumpSuspend = some 1) ∨
        (i = .meterSettleExpiry p ∧ (s.point p).meterSettle = some 1) ∨
        (i = .couplingGraceExpiry p ∧ (s.coupler p).grace = some 1) ∨
        (i = .suctionHoldExpiry p ∧ s.arbiter.hold.get p = some 1)) ↔
      i ∈ s.duePoint p ∨ (i = .suctionHoldExpiry p ∧ s.arbiter.hold.get p = some 1) := by
    simp only [mem_duePoint, or_assoc]
  unfold State.fallsDue
  simp only [points, exists_pointId, exists_deglitched]
  simp only [State.dueTimers, Pump.due, List.mem_append, mem_dueNow,
    mem_dueStock, mem_dueLapse, requester, State.tickTimers_lapsed, mem_dueMinute, PerFault.get, Pair.get, or_assoc]
  exact or_shuffle _ _ _ _ _ _

/-! ### Each row falls due once -/

/-- The timers of the part with their rows, in the order of the queue (log entry 2). -/
def State.dueTable : List (Timer × Instr) :=
  [((s.point .a).authTimer, .authTimerExpiry .a), ((s.point .a).pressWait, .pressWaitExpiry .a),
    ((s.point .a).pumpSuspend, .pumpFaultSuspendExpiry .a), ((s.point .a).meterSettle, .meterSettleExpiry .a),
    ((s.coupler .a).grace, .couplingGraceExpiry .a),
    ((s.point .b).authTimer, .authTimerExpiry .b), ((s.point .b).pressWait, .pressWaitExpiry .b),
    ((s.point .b).pumpSuspend, .pumpFaultSuspendExpiry .b), ((s.point .b).meterSettle, .meterSettleExpiry .b),
    ((s.coupler .b).grace, .couplingGraceExpiry .b),
    (s.arbiter.travel, .selectorArrival), (s.arbiter.hold.a, .suctionHoldExpiry .a),
    (s.arbiter.hold.b, .suctionHoldExpiry .b), (s.pump.ramp, .pumpRampExpiry),
    (s.pump.deglitch.stall, .faultDeglitchExpiry .stall), (s.pump.deglitch.dryRun, .faultDeglitchExpiry .dryRun),
    (s.pump.deglitch.supplyLow, .faultDeglitchExpiry .supplyLow),
    (s.pump.deglitch.supplyHigh, .faultDeglitchExpiry .supplyHigh), (s.pump.noFlow, .noFlowTimerExpiry),
    (s.pump.retry, .retryTimerExpiry), (s.pump.cleanRun, .cleanRunExpiry), (s.pump.clear, .clearTimerExpiry),
    (s.watch.timer, .consoleTimerExpiry),
    ((s.comp .n1).bind fun x => x.settle, .stockSettleExpiry .n1),
    ((s.comp .n2).bind fun x => x.settle, .stockSettleExpiry .n2),
    ((s.comp .n3).bind fun x => x.settle, .stockSettleExpiry .n3),
    ((s.comp .n4).bind fun x => x.settle, .stockSettleExpiry .n4),
    (s.loader.noFlow, .loadNoFlowExpiry), (s.loader.settle, .loadSettleExpiry),
    (s.roles.answer, .roleAnswerTimerExpiry), (s.power.wake, .wakeSettleExpiry)]

theorem State.dueTimers_eq : s.dueTimers = s.dueTable.flatMap fun x => dueNow x.1 x.2 := by
  simp [State.dueTimers, State.dueTable, State.duePoint, Pump.due, State.dueSettle, Num4.all]

theorem dueNow_sublist (l : List (Timer × Instr)) :
    (l.flatMap fun x => dueNow x.1 x.2).Sublist (l.map Prod.snd) := by
  induction l with
  | nil => exact .refl _
  | cons x l ih =>
    rw [List.flatMap_cons, List.map_cons, ← List.singleton_append]
    refine .append ?_ ih
    unfold dueNow
    split
    · exact .refl _
    · exact List.nil_sublist _

theorem due_nodup : (s.dueTimers ++ s.tickTimers.tickClock.dueLapse ++ s.dueMinute).Nodup := by
  have lapse (t : State) : t.dueLapse.Sublist [.roleLapse] := by
    unfold State.dueLapse
    split
    · exact .refl _
    · exact List.nil_sublist _
  have minute : s.dueMinute.Sublist [.clockMinute] := by
    unfold State.dueMinute
    split
    · exact .refl _
    · exact List.nil_sublist _
  rw [State.dueTimers_eq]
  refine (((dueNow_sublist _).append (lapse _)).append minute).nodup ?_
  simp [State.dueTable]

/-- In reset and out of it the clock counts (R163, R192). -/
theorem State.tick_clock : s.tick.clock = s.tickClock.clock := by
  have timers : s.tickTimers.tickClock.clock = s.tickClock.clock := by
    simp only [State.tickClock, show s.tickTimers.clock = s.clock from rfl]
    split <;> rfl
  unfold State.tick
  split
  · rfl
  · exact timers

end tenth

/-- Settles O2: what a tenth moves, and what it queues. -/
theorem emptyQueueIsATenth : Obligations.EmptyQueueIsATenth := by
  intro s hp
  refine ⟨s.tick, by rw [step, hp], fun reset => ?_, fun running => ?_, fun minute => ?_, fun counts => ?_⟩
  · have tick : s.tick = { s.tickClock with pending := s.dueMinute } := if_pos reset
    refine ⟨?_, fun i => ?_⟩
    · rw [tick, State.tickClock_eq]
    · rw [tick]; exact mem_dueMinute s i
  · have tick : s.tick =
        { s.tickTimers with
          clock := s.tickTimers.tickClock.clock
          pending := s.dueTimers ++ s.tickTimers.tickClock.dueLapse ++ s.dueMinute } := by
      rw [State.tick, if_neg (by simp [running])]
      dsimp only
      rw [State.tickClock_eq s.tickTimers]
    rw [tick]
    exact ⟨fun p => by cases p <;> rfl, fun p => by cases p <;> rfl, fun o => by cases o <;> rfl,
      fun c => Quad.get_map _ _ _, rfl, fun k => by cases k <;> rfl, rfl, rfl, rfl, rfl, rfl, mem_due s, due_nodup s, rfl,
      rfl, rfl, rfl, rfl, rfl, rfl, rfl, rfl, rfl, rfl⟩
  · rw [s.tick_clock, State.tickClock, if_pos (by simpa [DateTime.atMinuteEnd] using minute)]
  · rw [s.tick_clock, State.tickClock, if_neg (by simpa [DateTime.atMinuteEnd] using counts)]
    rfl

end Sys2Proof.Machine

/-! SUPPORT AND CERTIFICATES. The settings of the CALIBRATE role, and the account role between the ports (R104, R179 to R181,
R186). -/

namespace Sys2Proof.Machine

open Sys2Proof

/-! ### Ranges -/

theorem inRange_of {lo hi n : Nat} (h : lo ≤ n) (k : n ≤ hi) : inRange lo hi n = true := (inRange_iff ..).mpr ⟨h, k⟩

theorem wholeSeconds_iff (lo hi d : Nat) : wholeSeconds lo hi d = true ↔ d % 10 = 0 ∧ lo * 10 ≤ d ∧ d ≤ hi * 10 := by
  simp only [wholeSeconds, Bool.and_eq_true, beq_iff_eq, inRange_iff]

theorem wholeSeconds_mul {lo hi n : Nat} (h : lo ≤ n) (k : n ≤ hi) : wholeSeconds lo hi (n * 10) = true :=
  (wholeSeconds_iff ..).mpr (by omega)

/-! ### SET_PUMP_FAULT (R104) -/

/-- The settings taken carry the action asked for. -/
theorem faultSettingOf_action {k : FaultKind} {a : FaultAction} {dg x y : Nat} {f : FaultSetting}
    (h : faultSettingOf k a dg x y = some f) : f.action = a := by
  cases k <;> simp only [faultSettingOf, Option.ite_none_right_eq_some, Option.some.injEq, reduceCtorEq] at h <;>
    exact h.2 ▸ rfl

theorem PerFault.get_set {α : Type} (x : PerFault α) (k j : FaultKind) (v : α) :
    (x.set k v).get j = if j = k then v else x.get j := by
  cases k <;> cases j <;> rfl

theorem Pump.setFault_on (x : Pump) (k : FaultKind) (f : FaultSetting) (h : f.action ≠ .off) :
    x.setFault k f = { x with faults := x.faults.set k f } := if_neg h

theorem Pump.setFault_off (x : Pump) (k : FaultKind) (f : FaultSetting) (h : f.action = .off) :
    x.setFault k f =
      { x with
        faults := x.faults.set k f, deglitch := x.deglitch.set k none, reported := x.reported.set k false
        noFlow := if k = .noFlow then none else x.noFlow } := if_pos h

/-! ### SET_PORT_SUPERVISION (R185, R186) -/

section supervision

variable (u : State) (timeout : Nat) (mode : ConsoleMode) (lapse : Nat)

/-- The settings that SET_PORT_SUPERVISION writes, before the watch follows them. -/
def State.supervised : State :=
  u.setWatch
    { u.watch with
      timeout := if timeout == 0 then none else some timeout, mode := mode, lapse := lapse
      timer := if timeout == 0 then none else u.watch.timer }

theorem State.supervised_active :
    (u.supervised timeout mode lapse).watchActive =
      (timeout != 0 && (u.points.a.state.watched || u.points.b.state.watched)) := by
  by_cases h : timeout = 0
  · simp [State.watchActive, State.supervised, h]
  · simp [State.watchActive, State.supervised, h]

/-- The watch writes itself alone. -/
theorem State.followWatch_eq (s old : State) : s.followWatch old = s.setWatch (s.followWatch old).watch := by
  unfold State.followWatch
  split
  · split
    · rfl
    · rfl
  · rfl

theorem State.followWatch_kept (s old : State) :
    (s.followWatch old).watch = { s.watch with timer := (s.followWatch old).watch.timer } := by
  unfold State.followWatch
  split
  · split
    · rfl
    · rfl
  · rfl

theorem State.followWatch_active (s old : State) : (s.followWatch old).watchActive = s.watchActive := by
  unfold State.followWatch
  split
  · split
    · rfl
    · rfl
  · rfl

theorem State.followWatch_stops (s old : State) (h : s.watchActive = false) :
    (s.followWatch old).watch.timer = none := by
  rw [State.followWatch, if_neg (by simp [h])]
  rfl

theorem State.followWatch_runs (s old : State) (h : s.watchActive = true) (k : old.watchActive = true) :
    s.followWatch old = s := by
  rw [State.followWatch, if_pos h, if_pos k]

theorem State.followWatch_starts (s old : State) (h : s.watchActive = true) (k : old.watchActive = false) :
    (s.followWatch old).watch.timer = s.watch.timeout := by
  rw [State.followWatch, if_pos h, if_neg (by simp [k])]
  rfl

/-- A watch that is active minds a point. -/
theorem State.watched_of_active (s : State) (h : s.watchActive = true) :
    (s.points.a.state.watched || s.points.b.state.watched) = true := by
  rw [State.watchActive, Bool.and_eq_true] at h
  exact h.2

theorem bodySetPortSupervision_writes {n : Nat} (hm : consoleModeOf n = some mode)
    (ht : timeout = 0 ∨ (5 ≤ timeout ∧ timeout ≤ 100)) (h1 : 30 ≤ lapse) (h2 : lapse ≤ 3600) :
    bodySetPortSupervision timeout n (lapse * 10) u =
      (((u.supervised timeout mode (lapse * 10)).followWatch u).applyLapse, Reply.ok) := by
  have range : ((timeout == 0 || inRange 5 100 timeout) && wholeSeconds 30 3600 (lapse * 10)) = true := by
    rw [wholeSeconds_mul h1 h2, Bool.and_true, Bool.or_eq_true, beq_iff_eq, inRange_iff]
    exact ht
  rw [bodySetPortSupervision, hm, range]
  rfl

end supervision

/-- A pending request takes the role from a holder whose silence has reached the lapse, unless it is protected (R180). -/
theorem State.applyLapse_moves {s : State} {q : PortId} (hq : s.roles.requester = some q)
    (h : s.holderProtected = false) (k : s.watch.lapse ≤ (s.port s.roles.holder).silence) :
    s.RoleMoves s.applyLapse q := by
  have lapsed : s.holderLapsed = true := by simp [State.holderLapsed, h, k]
  have moves : s.applyLapse = s.moveRole q := by rw [State.applyLapse, hq]; exact if_pos lapsed
  rw [moves]
  exact s.moveRole_moves q

theorem State.applyLapse_stays {s : State}
    (h : s.roles.requester = none ∨ s.holderProtected = true ∨ (s.port s.roles.holder).silence < s.watch.lapse) :
    s.applyLapse = s := by
  unfold State.applyLapse
  split
  next q hq =>
    refine if_neg ?_
    rcases h with h | h | h
    · simp [hq] at h
    · simp [State.holderLapsed, h]
    · simp [State.holderLapsed, h]
  next => rfl

theorem State.holderProtected_iff (s : State) :
    s.holderProtected = true ↔ s.roles.holder = .service ∧ s.roles.calibration = true := by
  simp [State.holderProtected, State.holdsCalibrate]

/-- Settles O57: each setting is stored by its command's body, once its values are in range. -/
theorem serviceSettingsAreWritten : Obligations.ServiceSettingsAreWritten := by
  intro r s u ht hu
  subst hu
  have switch : (s.frameReceived r.port).roles.calibration = true := by
    have may := ht.2.2
    simp only [State.mayUse, State.holdsCalibrate, Bool.and_eq_true] at may
    simpa using may.2
  generalize hv : s.frameReceived r.port = u at switch
  refine ⟨fun n c maximum hc h1 h2 => ?_, fun n p slowdown ahead hp h1 h2 hs => ?_,
    fun auth hold settle pump a1 a2 b1 b2 c1 c2 d1 d2 => ?_, fun hold travel h1 h2 h3 => ?_,
    fun ramp retry limit a1 a2 b1 b2 c1 => ?_, fun k n kind action deglitch first second setting hk ha hf => ?_,
    fun time h1 h2 => ?_, fun time h => ?_, fun time h1 h2 => ?_, fun ahead time h1 h2 h3 h => ?_,
    fun timeout n mode lapse hm htime h1 h2 => ?_, fun time h1 h2 => ?_⟩ <;> subst hv
  · exact Answers.of_body (fun _ => rfl) ht (by rw [bodySetRatedFlow, hc, inRange_of h1 h2])
  · refine Answers.of_body (fun _ => rfl) ht ?_
    rw [bodySetPointVolumes, hp, inRange_of (Nat.zero_le _) h1, inRange_of (Nat.zero_le _) h2]
    exact if_pos hs
  · exact Answers.of_body (fun _ => rfl) ht
      (if_pos ⟨wholeSeconds_mul a1 a2, wholeSeconds_mul b1 b2, inRange_of c1 c2, wholeSeconds_mul d1 d2⟩)
  · exact Answers.of_body (fun _ => rfl) ht (if_pos ⟨wholeSeconds_mul (Nat.zero_le _) h1, inRange_of h2 h3⟩)
  · exact Answers.of_body (fun _ => rfl) ht (if_pos ⟨inRange_of a1 a2, wholeSeconds_mul b1 b2, c1⟩)
  · have act := faultSettingOf_action hf
    refine ⟨_, Answers.of_body (fun _ => rfl) ht (by rw [bodySetPumpFault, hk, ha]; dsimp only; rw [hf]), ?_⟩
    by_cases hoff : action = .off
    · rw [Pump.setFault_off _ _ _ (act.trans hoff)]
      exact ⟨rfl, act, rfl, rfl, fun h => absurd hoff h,
        fun _ => ⟨rfl, fun j => PerFault.get_set _ _ j _, fun j => PerFault.get_set _ _ j _⟩⟩
    · rw [Pump.setFault_on _ _ _ (act ▸ hoff)]
      exact ⟨rfl, act, rfl, rfl, fun _ => rfl, fun h => absurd h hoff⟩
  · exact Answers.of_body (fun _ => rfl) ht (if_pos (wholeSeconds_mul h1 h2))
  · exact Answers.of_body (fun _ => rfl) ht (if_neg fun k => h ((wholeSeconds_iff ..).mp k))
  · exact Answers.of_body (fun _ => rfl) ht (if_pos (wholeSeconds_mul h1 h2))
  · refine Answers.of_body (fun _ => rfl) ht ((if_pos ⟨inRange_of (Nat.zero_le _) h1, wholeSeconds_mul h2 h3⟩).trans ?_)
    exact if_neg (Bool.eq_false_iff.mp h)
  · generalize hv : s.frameReceived r.port = u at switch
    have kept := (u.supervised timeout mode (lapse * 10)).followWatch_kept u
    have writes := (u.supervised timeout mode (lapse * 10)).followWatch_eq u
    have active := u.supervised_active timeout mode (lapse * 10)
    refine ⟨((u.supervised timeout mode (lapse * 10)).followWatch u).watch, _,
      Answers.of_body (fun _ => rfl) ht (by rw [hv]; exact bodySetPortSupervision_writes u timeout mode lapse hm htime h1 h2),
      ?_, ?_, ?_, ?_, ?_, fun off => ?_, fun on was => ?_, fun on was => ?_, fun h => ?_, fun q hq hh hl => ?_⟩
    · rw [kept]; simp [State.supervised]
    · rw [kept]; rfl
    · rw [kept]; rfl
    · rw [kept]; rfl
    · rw [kept]; rfl
    · exact State.followWatch_stops _ _ (by rw [active, off]; rfl)
    · rw [State.followWatch_runs _ _ (by simp [active, on, u.watched_of_active was]) was]
      simp [State.supervised, on]
    · have same : (u.setWatch ((u.supervised timeout mode (lapse * 10)).followWatch u).watch).watchActive =
          (u.supervised timeout mode (lapse * 10)).watchActive :=
        (congrArg State.watchActive writes).symm.trans (State.followWatch_active _ u)
      rw [same]
      cases h : (u.supervised timeout mode (lapse * 10)).watchActive with
      | true => rw [State.followWatch_starts _ _ h was]; simp [State.supervised, on]
      | false => rw [State.followWatch_stops _ _ h]; rfl
    · refine (State.applyLapse_stays ?_).trans writes
      rw [State.holderProtected_iff, writes, kept]
      exact h.imp_right (Or.imp_left fun holder => ⟨holder, switch⟩)
    · rw [writes]
      refine State.applyLapse_moves hq (Bool.eq_false_iff.mpr fun k => hh ((State.holderProtected_iff _).mp k).1) ?_
      rw [kept]
      exact hl
  · exact Answers.of_body (fun _ => rfl) ht (if_pos (inRange_of h1 h2))

/-! ### The account role (R179 to R181) -/

section roles

variable (s : State)

@[simp] theorem State.frameReceived_lapse (o : PortId) : (s.frameReceived o).watch.lapse = s.watch.lapse := by
  rw [State.frameReceived_watch, State.restartedWatch_eq]
  split <;> rfl

/-- A frame on a port that does not hold the role leaves its holder's silence. -/
theorem State.frameReceived_holderLapsed (o : PortId) (h : s.roles.holder ≠ o) :
    (s.frameReceived o).holderLapsed = true ↔
      ¬ (s.roles.holder = .service ∧ s.roles.calibration = true) ∧ s.watch.lapse ≤ (s.port s.roles.holder).silence := by
  rw [State.holderLapsed_iff, State.frameReceived_lapse, State.frameReceived_roles, s.frameReceived_port_ne o _ h]

/-- A request moves the role at once: from the SERVICE port with its switch closed, or from a lapsed holder (R179). -/
theorem bodyRequestAccountRole_moves {o : PortId} (h : s.roles.holder ≠ o)
    (k : (o = .service ∧ s.roles.calibration = true) ∨ s.holderLapsed = true) :
    bodyRequestAccountRole o s = (s.moveRole o, Reply.ok) := by
  rw [bodyRequestAccountRole, if_neg (by simpa [State.holdsAccount] using h),
    if_pos (by simpa [State.holdsCalibrate] using k)]

theorem bodyRequestAccountRole_waits {o : PortId} (h : s.roles.holder ≠ o)
    (k : ¬ ((o = .service ∧ s.roles.calibration = true) ∨ s.holderLapsed = true)) :
    bodyRequestAccountRole o s =
      if s.roles.requester.isSome then s.deny .busy
      else
        ( (s.setRoles { s.roles with requester := some o, answer := some Config.answerTime }).raiseOn s.roles.holder
            .roleRequested,
          Reply.of .accepted ) := by
  rw [bodyRequestAccountRole, if_neg (by simpa [State.holdsAccount] using h),
    if_neg (by simpa [State.holdsCalibrate] using k)]

/-- The lapse row lifts the holder's silence to the lapse; silences apart, the role moves as from `s` (log entry 19). -/
theorem State.RoleMoves.of_silence {t : State} {o q : PortId} (n : Nat)
    (h : (s.setPort q { s.port q with silence := n }).RoleMoves t o) : s.RoleMoves t o := by
  have quiet (i : PortId) :
      (s.setPort q { s.port q with silence := n }).port i =
        { s.port i with silence := ((s.setPort q { s.port q with silence := n }).port i).silence } := by
    rw [State.setPort_port]
    split
    next hi => rw [hi]
    next => rfl
  obtain ⟨roles, changed, ports, rest⟩ := h
  refine ⟨roles, fun i => ?_, fun i => ?_, ?_⟩
  · rw [changed, quiet]; rfl
  · rw [ports, quiet]
  · exact congrArg (fun x : State => { x with ports := s.ports }) rest

end roles

/-- Settles O21: the body of REQUEST_ACCOUNT_ROLE, branch by branch. -/
theorem roleRequestIsDecided : Obligations.RoleRequestIsDecided := by
  intro r s u ht hu
  subst hu
  refine ⟨fun holds => ?_, fun other => ?_⟩
  · exact Answers.of_body (fun _ => rfl) ht (if_pos (by simpa [State.holdsAccount] using holds))
  · have lapsed := s.frameReceived_holderLapsed r.port other
    rw [← lapsed]
    refine ⟨fun takes => ⟨_, State.moveRole_moves _ _, ?_⟩, fun waits => ?_⟩
    · exact Answers.of_body (fun _ => rfl) ht
        (bodyRequestAccountRole_moves _ (by simpa using other) (by simpa using takes))
    · have body := bodyRequestAccountRole_waits (s.frameReceived r.port) (o := r.port) (by simpa using other)
        (by simpa using waits)
      refine ⟨fun pending => ?_, fun free => ?_⟩
      · exact Answers.of_body (fun _ => rfl) ht (body.trans (if_pos (by simpa using pending)))
      · refine Answers.of_body (fun _ => rfl) ht (body.trans ((if_neg (by simp [free])).trans ?_))
        rw [State.frameReceived_roles]
        rfl

/-- Settles O22: each end of a pending request is a move of the role or its denial. -/
theorem roleRequestEnds : Obligations.RoleRequestEnds := by
  intro s u r q
  refine ⟨fun ht hu => ⟨fun hq => ⟨⟨_, State.moveRole_moves _ _, ?_⟩, ?_⟩, fun hq => ⟨?_, ?_⟩⟩, fun hq ha => ?_,
    fun hq hp => ?_, fun running opened hq => ?_, fun running closed hh => ?_, fun on h1 h2 => ?_⟩
  · subst hu
    exact Answers.of_body (fun _ => rfl) ht (by rw [bodyYieldAccountRole, State.frameReceived_roles, hq])
  · subst hu
    refine Answers.of_body (fun _ => rfl) ht ?_
    rw [bodyDenyAccountRole, State.denyRequest, State.frameReceived_roles, hq]
  · subst hu
    exact Answers.of_body (fun _ => rfl) ht (by rw [bodyYieldAccountRole, State.frameReceived_roles, hq]; rfl)
  · subst hu
    exact Answers.of_body (fun _ => rfl) ht (by rw [bodyDenyAccountRole, State.frameReceived_roles, hq]; rfl)
  · refine congrArg _ ((if_pos ha).trans ?_)
    rw [State.denyRequest, hq]
  · have free : s.holderProtected = false := Bool.eq_false_iff.mpr fun k => hp ((State.holderProtected_iff s).mp k)
    refine ⟨_, congrArg Host.Outcome.next (if_pos ⟨by rw [hq]; rfl, by rw [free]; decide⟩), ?_⟩
    refine State.RoleMoves.of_silence s _ (State.applyLapse_moves hq free ?_)
    rw [State.setPort_roles, State.setPort_port_same]
    exact Nat.le_max_right _ _
  · refine ⟨_, congrArg Host.Outcome.next (if_neg (by simp [running, opened])), ?_⟩
    have moves : (s.setRoles { s.roles with calibration := true }).switchRole true =
        (s.setRoles { s.roles with calibration := true }).moveRole .service := if_pos hq
    rw [moves]
    exact State.moveRole_moves _ _
  · refine ⟨_, congrArg Host.Outcome.next (if_neg (by simp [running, closed])), ?_⟩
    have moves : (s.setRoles { s.roles with calibration := false }).switchRole false =
        (s.setRoles { s.roles with calibration := false }).moveRole .office := if_pos hh
    rw [moves]
    exact State.moveRole_moves _ _
  · refine congrArg _ (ite_eq_left_iff.mpr fun _ => ?_)
    cases on with
    | true => exact if_neg (h1 rfl)
    | false => exact if_neg (h2 rfl)

end Sys2Proof.Machine

/-! SUPPORT AND CERTIFICATES. The commands of the ACCOUNT role on the tables, the prices and the journal (R27, R29, R46, R49,
R51, R52, R56, R64, R65, R101, R161). -/

namespace Sys2Proof.Machine

open Sys2Proof

section roster

variable (s : State)

/-- A PUT_MACHINE whose fields and references are good (R27). -/
theorem bodyPutMachine_eq {raw : RawMachine} {m : MachineEdit} (hm : readMachine raw = some m)
    (hq : (s.product m.product).isSome = true) (ha : (findAccount s.accounts m.account).isSome = true) :
    bodyPutMachine raw s =
      if s.tagInUse m.tagId m.number then (s, Reply.refused .tagInUse)
      else if (findMachine s.roster m.number).isNone ∧ Config.rosterSize ≤ s.roster.length then s.deny .full
      else (s.setRoster (putMachineRec (m.record (findMachine s.roster m.number)) s.roster), Reply.ok) := by
  rw [bodyPutMachine, hm]
  exact if_neg (by simp [Option.isSome_iff_ne_none.mp hq, Option.isSome_iff_ne_none.mp ha])

/-- A DROP_MACHINE of a number in range (R29). -/
theorem bodyDropMachine_eq {n : Nat} (h1 : 1 ≤ n) (h2 : n ≤ 999999) :
    bodyDropMachine n s =
      if (findMachine s.roster n).isNone then s.deny .notFound
      else if s.machineOpen n then s.deny .busy
      else (s.setRoster (dropMachineRec n s.roster), Reply.ok) :=
  if_neg (by simp [inRange_of h1 h2])

theorem MachineEdit.record_eq (m : MachineEdit) (old : Option MachineRec) :
    m.record old =
      { number := m.number, tagId := m.tagId, product := m.product, capacity := m.capacity
        account := m.account, shiftAllowance := m.shiftAllowance, dayAllowance := m.dayAllowance
        shiftUsage := (old.map fun x => x.shiftUsage).getD 0, dayUsage := (old.map fun x => x.dayUsage).getD 0
        reserved := (old.map fun x => x.reserved).getD 0
        lastHours := if m.lastHours.isSome then m.lastHours else old.bind fun x => x.lastHours
        manualPermitted := m.manualPermitted, state := m.state } := by
  cases old <;> cases h : m.lastHours <;> simp [MachineEdit.record, h]

end roster

/-- Settles O50: a PUT replaces or inserts one record, and a DROP thins the roster by one. -/
theorem rosterIsWritten : Obligations.RosterIsWritten := by
  intro r s u ht hu
  subst hu
  refine ⟨fun raw m hm hq ha free room => ?_, fun raw m hm hq ha inUse => ?_, fun n h => ?_, fun n h1 h2 none => ?_,
    fun n h1 h2 known busy => ?_, fun n h1 h2 known free => ?_⟩
  · have body := bodyPutMachine_eq _ hm hq ha
    rw [if_neg (by simp [free]), if_neg fun full => room.elim (fun k => Option.isSome_iff_ne_none.mp k (Option.isNone_iff_eq_none.mp full.1)) fun k => ?_] at body
    · refine ⟨_, Answers.of_body (fun _ => rfl) ht body, ?_, fun k hk => findMachine_put_ne _ _ k hk⟩
      rw [← m.record_eq]
      exact findMachine_put_same _ _
    · exact absurd full.2 (Nat.not_le.mpr k)
  · exact Answers.of_body (fun _ => rfl) ht ((bodyPutMachine_eq _ hm hq ha).trans (if_pos inUse))
  · exact Answers.of_body (fun _ => rfl) ht (if_pos fun k => h ((inRange_iff ..).mp k))
  · exact Answers.of_body (fun _ => rfl) ht ((bodyDropMachine_eq _ h1 h2).trans (if_pos (by rw [none]; rfl)))
  · refine Answers.of_body (fun _ => rfl) ht ((bodyDropMachine_eq _ h1 h2).trans ?_)
    rw [if_neg (Option.isNone_iff_eq_none.not.mpr (Option.isSome_iff_ne_none.mp known)), if_pos busy]
    rfl
  · have body := bodyDropMachine_eq (s.frameReceived r.port) h1 h2
    rw [if_neg (Option.isNone_iff_eq_none.not.mpr (Option.isSome_iff_ne_none.mp known)), if_neg (by simp [free])] at body
    refine ⟨_, Answers.of_body (fun _ => rfl) ht body, ?_, fun k hk => ?_⟩
    · rw [findMachine_drop, if_pos rfl]
    · rw [findMachine_drop, if_neg hk]

/-- A notice raised stands on each of its ports (R182). -/
theorem State.raised (s : State) {n : Notice} {o : PortId} (h : n.ports.port o = true) :
    ((s.raise n).port o).has n = true := by
  rw [State.has_raise, h, BEq.rfl, Bool.and_true, Bool.or_true]

section accounts

variable (s : State)

theorem bodyPutAccount_writes {n credit k : Nat} {code : List Nat} {tier : Tier} (closed : Bool) (h1 : 1 ≤ n)
    (h2 : n ≤ 64) (hc : printableCode 8 code = true) (hx : credit ≤ Config.creditMax) (hk : num4Of k = some tier) :
    bodyPutAccount n code credit k (bit closed) s =
      ( s.setAccounts (putAccountRec (accountRecord (findAccount s.accounts n) n code credit tier closed) s.accounts),
        Reply.ok ) := by
  simp only [bodyPutAccount, inRange_of h1 h2, hc, hx, decide_true, Bool.and_self, hk, yesNo_bit]

/-- A record keeps its account number through a PUT_ACCOUNT. -/
theorem accountRecord_number (l : List Account) (n : Nat) (code : List Nat) (credit : Nat) (tier : Tier)
    (closed : Bool) : (accountRecord (findAccount l n) n code credit tier closed).number = n := by
  unfold accountRecord
  split
  next a h =>
    have same : a.number = n := findAccount_number h
    exact same
  next => rfl

/-- The journal of an account reset (R65); without one the state stays. -/
def State.noteReset (reset : Bool) (n credit : Nat) (a : Account) : State :=
  if reset then s.store (.accountReset n a.code a.spent a.credit credit a.reserved) else s

/-- What a CREDIT_ADJUST leaves (R64, R65). -/
def State.adjustCredit (reset : Bool) (n credit : Nat) (a : Account) : State :=
  let t := s.noteReset reset n credit a
  let t := t.setAccounts (putAccountRec (a.adjust credit reset) t.accounts)
  if (a.adjust credit reset).stopped ∧ ¬ a.stopped then t.raise .creditStop else t

/-- A CREDIT_ADJUST of an account held, with its fields in range (R64). -/
theorem bodyCreditAdjust_known {n credit : Nat} {a : Account} (reset : Bool) (h1 : 1 ≤ n) (h2 : n ≤ 64)
    (hx : credit ≤ Config.creditMax) (ha : findAccount s.accounts n = some a) :
    bodyCreditAdjust n credit (bit reset) s =
      if reset ∧ ¬ s.journal.hasRoom then s.deny .full else (s.adjustCredit reset n credit a, Reply.ok) := by
  simp only [bodyCreditAdjust, inRange_of h1 h2, hx, decide_true, Bool.and_self, yesNo_bit, ha]
  rfl

theorem bodyCreditAdjust_unknown {n credit : Nat} (reset : Bool) (h1 : 1 ≤ n) (h2 : n ≤ 64)
    (hx : credit ≤ Config.creditMax) (ha : findAccount s.accounts n = none) :
    bodyCreditAdjust n credit (bit reset) s = s.deny .notFound := by
  simp only [bodyCreditAdjust, inRange_of h1 h2, hx, decide_true, Bool.and_self, yesNo_bit, ha]

/-- A stored record changes the journal, and the ports by its high-mark notice. -/
theorem State.store_rest (b : RecordBody) : { s.store b with journal := s.journal, ports := s.ports } = s := by
  unfold State.store State.testHighMark
  split <;> rfl

theorem State.noteReset_rest (reset : Bool) (n credit : Nat) (a : Account) :
    { s.noteReset reset n credit a with journal := s.journal, ports := s.ports } = s := by
  cases reset with
  | true => exact s.store_rest _
  | false => rfl

theorem State.adjustCredit_accounts (reset : Bool) (n credit : Nat) (a : Account) :
    (s.adjustCredit reset n credit a).accounts = putAccountRec (a.adjust credit reset) s.accounts := by
  have same : (s.noteReset reset n credit a).accounts = s.accounts := by
    have rest := congrArg State.accounts (s.noteReset_rest reset n credit a)
    exact rest
  rw [← same, State.adjustCredit]
  split <;> rfl

theorem State.adjustCredit_journal (reset : Bool) (n credit : Nat) (a : Account) :
    (s.adjustCredit reset n credit a).journal = (s.noteReset reset n credit a).journal := by
  unfold State.adjustCredit
  split <;> rfl

theorem State.adjustCredit_rest (reset : Bool) (n credit : Nat) (a : Account) :
    { s.adjustCredit reset n credit a with accounts := s.accounts, journal := s.journal, ports := s.ports } = s := by
  have rest := congrArg (fun t : State => { t with accounts := s.accounts }) (s.noteReset_rest reset n credit a)
  unfold State.adjustCredit
  split <;> exact rest

end accounts

/-- Settles O51: each command puts one record, and a reset writes its own. -/
theorem accountsAreWritten : Obligations.AccountsAreWritten := by
  intro r s u n ht hu h1 h2
  subst hu
  refine ⟨fun code credit k tier closed hc hx hk => ?_, fun credit reset hx none => ?_, fun credit a hx ha full => ?_,
    fun credit reset a b hx ha room hb => ?_⟩
  · refine ⟨_, Answers.of_body (fun _ => rfl) ht (bodyPutAccount_writes _ closed h1 h2 hc hx hk), ?_, fun j hj => ?_⟩
    · have put := findAccount_put_same
        (accountRecord (findAccount (s.frameReceived r.port).accounts n) n code credit tier closed)
        (s.frameReceived r.port).accounts
      rw [accountRecord_number] at put
      rw [put]
      cases findAccount (s.frameReceived r.port).accounts n <;> rfl
    · exact findAccount_put_ne _ _ j (by rwa [accountRecord_number])
  · exact Answers.of_body (fun _ => rfl) ht (bodyCreditAdjust_unknown _ reset h1 h2 hx none)
  · exact Answers.of_body (fun _ => rfl) ht
      ((bodyCreditAdjust_known _ true h1 h2 hx ha).trans (if_pos ⟨rfl, Bool.eq_false_iff.mp full⟩))
  · have body : bodyCreditAdjust n credit (bit reset) (s.frameReceived r.port) =
        ((s.frameReceived r.port).adjustCredit reset n credit a, Reply.ok) :=
      (bodyCreditAdjust_known _ reset h1 h2 hx ha).trans (if_neg fun k => k.2 (room k.1))
    have adjusted : a.adjust credit reset = b := by rw [hb]; rfl
    have number : (a.adjust credit reset).number = n := by
      have same : a.number = n := findAccount_number ha
      exact same
    refine ⟨_, Answers.of_body (fun _ => rfl) ht body, ?_, fun k hk => ?_, fun off => ?_, fun on => ?_,
      fun now before => ?_, State.adjustCredit_rest _ _ _ _ _⟩
    · rw [State.adjustCredit_accounts, ← adjusted]
      exact number ▸ findAccount_put_same _ _
    · rw [State.adjustCredit_accounts]
      exact findAccount_put_ne _ _ k (by rwa [number])
    · rw [State.adjustCredit_journal, off]
      rfl
    · rw [State.adjustCredit_journal, on]
      exact ⟨_, (State.store_slots _ _).1, rfl, rfl⟩
    · rw [State.adjustCredit, if_pos ⟨by rw [adjusted, now], by simp [before]⟩]
      exact ⟨State.raised _ rfl, State.raised _ rfl⟩

/-! ### Products, prices, limits and policy (R49, R51, R52, R56, R101) -/

section office

variable (s : State)

/-- A system record changes the journal, and the ports by its high-mark notice. -/
theorem State.storeSystem_rest (b : RecordBody) : { s.storeSystem b with journal := s.journal, ports := s.ports } = s := by
  cases h : s.journal.hasRoom with
  | true => rw [s.storeSystem_room b h]; exact s.store_rest b
  | false => rw [s.storeSystem_full b h]

/-- The table that takes over, as its own write before the record and the notice (R52). -/
def State.putPrices (x : PriceTable) : State := { s with prices := { current := x, staged := none } }

theorem State.takeOver_eq (x : PriceTable) (k : TakeOver) :
    s.takeOver x k = ((s.putPrices x).storeSystem (.priceTakeover k x)).raise .priceTakeover := rfl

theorem State.takeOver_prices (x : PriceTable) (k : TakeOver) :
    (s.takeOver x k).prices = { current := x, staged := none } := by
  rw [State.takeOver_eq, State.raise_prices]
  simp only [State.storeSystem_frame]
  rfl

theorem State.takeOver_journal (x : PriceTable) (k : TakeOver) :
    (s.takeOver x k).journal = ((s.putPrices x).storeSystem (.priceTakeover k x)).journal := rfl

theorem State.takeOver_rest (x : PriceTable) (k : TakeOver) :
    { s.takeOver x k with prices := s.prices, journal := s.journal, ports := s.ports } = s :=
  congrArg (fun t : State => { t with prices := s.prices }) ((s.putPrices x).storeSystem_rest (.priceTakeover k x))

theorem Quad.all_toList {α : Type} (f : α → Bool) (x : Quad α) (h : ∀ n, f (x.get n) = true) :
    x.toList.all f = true := by
  simp only [Quad.toList, List.all_cons, List.all_nil, Bool.and_true, Bool.and_eq_true]
  exact ⟨h .n1, h .n2, h .n3, h .n4⟩

/-- Prices in range for STAGE_PRICES (R51). -/
theorem prices_inRange {x : PriceTable} (h : ∀ q t, 1 ≤ (x.get q).get t ∧ (x.get q).get t ≤ 9999999) :
    (x.toList.all fun t => t.toList.all fun n => inRange 1 9999999 n) = true :=
  Quad.all_toList _ x fun q => Quad.all_toList _ _ fun t => (inRange_iff ..).mpr (h q t)

end office

/-- Settles O52: each body writes its item, and a NOW table takes over with its record and notice. -/
theorem officeSettingsAreWritten : Obligations.OfficeSettingsAreWritten := by
  intro r s u ht hu
  subst hu
  refine ⟨fun n q code alpha k points hn hc ha hk => ?_, fun prices hp => ⟨?_, ?_⟩, fun minimum cap h1 h2 h3 => ?_,
    fun k n policy hp => ?_, fun k n hp => ?_⟩
  · refine Answers.of_body (fun _ => rfl) ht ?_
    rw [bodyPutProduct, hn, hk, hc, decide_eq_true ha]
    rfl
  · refine Answers.of_body (fun _ => rfl) ht ?_
    rw [bodyStagePrices, prices_inRange hp]
    rfl
  · refine ⟨_, Answers.of_body (fun _ => rfl) ht (by rw [bodyStagePrices, prices_inRange hp]; rfl),
      State.takeOver_prices _ _ _, State.raised _ rfl, State.raised _ rfl, fun room => ?_, fun full => ?_,
      State.takeOver_rest _ _ _⟩
    · rw [State.takeOver_journal, State.storeSystem_room (State.putPrices _ _) _ room]
      exact ⟨_, (State.store_slots _ _).1, rfl⟩
    · rw [State.takeOver_journal, State.storeSystem_full (State.putPrices _ _) _ full]
      rfl
  · exact Answers.of_body (fun _ => rfl) ht (if_pos ⟨inRange_of h1 h2, inRange_of (Nat.zero_le _) h3⟩)
  · refine ⟨_, State.follow_followedBy _ (s.frameReceived r.port), Answers.of_body (fun _ => rfl) ht ?_⟩
    rw [bodySetSuctionPolicy, hp]
  · exact Answers.of_body (fun _ => rfl) ht (by rw [bodySetSuctionPolicy, hp]; rfl)

/-! ### The journal's release (R161) -/

section release

variable (j : Journal) (q : SeqNo)

theorem Journal.place_cases :
    ((q - j.oldest).toNat < j.occupied → j.place q = .stored (q - j.oldest).toNat) ∧
      (j.occupied ≤ (q - j.oldest).toNat →
        (2147483648 ≤ (q - j.oldest).toNat → j.place q = .behind) ∧
        ((q - j.oldest).toNat < 2147483648 → j.place q = .ahead)) :=
  ⟨fun h => if_pos h, fun h => ⟨fun k => (if_neg h.not_gt).trans (if_neg k.not_gt),
    fun k => (if_neg h.not_gt).trans (if_pos k)⟩⟩

/-- With the record of `q` freed, the oldest is the next (R151). -/
theorem Journal.release_oldest (h : (q - j.oldest).toNat < j.occupied) :
    (j.release ((q - j.oldest).toNat + 1)).oldest = q + 1 := by
  obtain ⟨m, hm⟩ := Nat.exists_eq_add_of_lt h
  have place : BitVec.ofNat 32 (q - j.oldest).toNat = q - (j.next - BitVec.ofNat 32 j.occupied) := by
    rw [BitVec.ofNat_toNat, BitVec.setWidth_eq]
    rfl
  have split : BitVec.ofNat 32 j.occupied = BitVec.ofNat 32 (q - j.oldest).toNat + BitVec.ofNat 32 m + 1 := by
    rw [hm, BitVec.ofNat_add, BitVec.ofNat_add]
    rfl
  have left : (j.release ((q - j.oldest).toNat + 1)).oldest = j.next - BitVec.ofNat 32 m := by
    have count : (j.records.drop ((q - j.oldest).toNat + 1)).length = m := by
      rw [List.length_drop]
      exact (congrArg (· - _) hm).trans (by omega)
    rw [← count]
    rfl
  rw [left]
  linear_combination place + split

end release

/-- What the blocks that follow leave of the journal is its records and the number to come (R152). -/
theorem State.FollowedBy.oldest {u t : State} (h : u.FollowedBy t) : t.journal.oldest = u.journal.oldest := by
  rw [h.journal]
  rfl

/-- The oldest `n` records freed, and the other blocks following (R161). -/
def State.freed (s : State) (n : Nat) : State := (s.setJournal (s.journal.release n)).follow s

theorem State.freed_followedBy (s : State) (n : Nat) : (s.setJournal (s.journal.release n)).FollowedBy (s.freed n) :=
  State.follow_followedBy _ s

theorem bodyReleaseThrough_stored {s : State} {q : SeqNo} {k : Nat} (h : s.journal.place q = .stored k) :
    bodyReleaseThrough q s = (s.freed (k + 1), Reply.okWith (releaseFlds (k + 1) (s.freed (k + 1)).journal)) := by
  rw [bodyReleaseThrough, h]
  rfl

/-- Settles O53: by the place of the number, and the arithmetic of the sequence numbers behind it. -/
theorem journalIsReleased : Obligations.JournalIsReleased := by
  intro r s u q k ht hu hk
  subst hu hk
  generalize hv : s.frameReceived r.port = u
  obtain ⟨stored, away⟩ := u.journal.place_cases q
  refine ⟨fun h => ?_, fun h far => ?_, fun h near => ?_⟩
  · have followed := u.freed_followedBy ((q - u.journal.oldest).toNat + 1)
    obtain ⟨roster, accounts, -⟩ := followed.rest
    refine ⟨_, _, Answers.of_body (fun _ => rfl) ht (by rw [hv]; exact bodyReleaseThrough_stored (stored h)), ?_, ?_, ?_, ?_, ?_, rfl, roster, accounts,
      fun p => (followed.points p).context, fun closed free => ?_⟩
    · rw [followed.journal]; rfl
    · rw [followed.journal]; rfl
    · rw [followed.journal]; exact List.length_drop
    · rw [followed.oldest]; exact u.journal.release_oldest q h
    · rw [followed.journal]; rfl
    · have rests : u.loader.Rests := .inl ⟨free, .inr (by rw [closed]; decide)⟩
      obtain ⟨-, -, journal, -, -⟩ :=
        State.follow_loader (u.setJournal (u.journal.release ((q - u.journal.oldest).toNat + 1))) u rests
      rw [State.freed, journal]
      simp only [State.setJournal_journal, Journal.release, Journal.occupied, List.length_drop]
      rfl
  · exact ⟨_, Answers.of_body (fun _ => rfl) ht (by rw [hv, bodyReleaseThrough, (away h).1 far]), rfl⟩
  · rw [← hv]
    exact Answers.of_body (fun _ => rfl) ht (by rw [hv, bodyReleaseThrough, (away h).2 near]; rfl)

end Sys2Proof.Machine

/-! SUPPORT AND CERTIFICATES. The clock, and the rollover into a new shift (R159, R163 to R170). -/

namespace Sys2Proof.Machine

open Sys2Proof

theorem timeInRange_iff (year month day hour minute second : Nat) :
    timeInRange year month day hour minute second = true ↔
      (2000 ≤ year ∧ year ≤ 2099) ∧ (1 ≤ month ∧ month ≤ 12) ∧ hour ≤ 23 ∧ minute ≤ 59 ∧ second ≤ 59 ∧
        1 ≤ day ∧ day ≤ monthLength year month := by
  simp only [timeInRange, Bool.and_eq_true, inRange_iff, Nat.zero_le, true_and, and_assoc]

theorem shiftsInRange_iff (l : List (Nat × Nat)) :
    shiftsInRange l = true ↔
      (1 ≤ l.length ∧ l.length ≤ 3) ∧ (∀ x ∈ l, x.1 ≤ 23 ∧ x.2 ≤ 59) ∧
        l.Pairwise fun x y => x.1 * 60 + x.2 < y.1 * 60 + y.2 := by
  simp only [shiftsInRange, Bool.and_eq_true, inRange_iff, List.all_eq_true, decide_eq_true_eq, risingStarts_iff,
    and_assoc]

section clock

variable (s : State)

/-- The evaluation leaves a valid clock with the identity of its time, an invalid one as it is (R168). -/
theorem State.evaluateShift_holds :
    s.evaluateShift.clock =
      { s.clock with shift := if s.clock.valid then shiftAt s.clock.shifts s.clock.now else s.clock.shift } := by
  cases h : s.clock.valid with
  | true => rw [s.evaluateShift_clock h]; rfl
  | false => rw [s.evaluateShift_invalid h]; rfl

theorem State.loseClock_clock : s.loseClock.clock = { s.clock with valid := false } := rfl

theorem State.loseClock_has (o : PortId) : (s.loseClock.port o).has .clockInvalid = true :=
  State.raised _ (by cases o <;> rfl)

end clock

/-- Settles O54: each row writes the time or the table, and the evaluation of the shift follows. -/
theorem clockIsKept : Obligations.ClockIsKept := by
  intro r s u hu
  subst hu
  refine ⟨fun ht => ⟨?_, ?_, ?_, ?_, ?_, ?_⟩, fun running ok => ?_, fun wraps => ?_⟩
  · intro year month day hour minute second now y1 y2 m1 m2 d1 d2 hh hm hs hnow
    refine ⟨_, _, Answers.of_body (fun _ => rfl) ht
      (if_pos ((timeInRange_iff ..).mpr ⟨⟨y1, y2⟩, ⟨m1, m2⟩, hh, hm, hs, d1, d2⟩)), ?_, ?_⟩
    · rw [hnow, State.evaluateShift_holds]; rfl
    · rw [hnow]; rfl
  · intro year month day hour minute second bad
    refine Answers.of_body (fun _ => rfl) ht (if_neg fun k => ?_)
    obtain ⟨-, -, -, -, -, d1, d2⟩ := (timeInRange_iff ..).mp k
    omega
  · intro invalid
    exact Answers.of_body (fun _ => rfl) ht (if_neg (Bool.eq_false_iff.mp invalid))
  · intro valid early
    have trims : (s.frameReceived r.port).trimClock = (s.frameReceived r.port).setClock _ := if_pos early
    refine ⟨_, _, Answers.of_body (fun _ => rfl) ht (if_pos valid), ?_⟩
    rw [State.evaluateShift_holds, trims]
    exact congrArg _ (if_pos valid)
  · intro valid late ok
    have trims : (s.frameReceived r.port).trimClock = (s.frameReceived r.port).passMinute := if_neg late.not_ge
    refine ⟨_, _, Answers.of_body (fun _ => rfl) ht (if_pos valid), ?_⟩
    rw [State.evaluateShift_holds, trims, State.passMinute_ok _ ok]
    exact congrArg _ (if_pos valid)
  · intro starts h1 h2 range rising
    refine ⟨_, _, Answers.of_body (fun _ => rfl) ht
      (if_pos ((shiftsInRange_iff starts).mpr ⟨⟨h1, h2⟩, range, rising⟩)), ?_⟩
    rw [State.evaluateShift_holds]
    rfl
  · refine ⟨_, congrArg Host.Outcome.next (if_neg (Bool.eq_false_iff.mp running)), ?_⟩
    rw [State.evaluateShift_holds, State.passMinute_ok _ ok]
    rfl
  · have lost := s.passMinute_wrap wraps
    have same : s.passMinute.evaluateShift = s.passMinute := State.evaluateShift_invalid _ (by rw [lost]; rfl)
    refine ⟨_, rfl, ?_, fun o => ?_⟩
    · rw [same, ite_self, lost]; rfl
    · rw [same, ite_self, lost]; exact State.loseClock_has _ o

/-! ### The rollover (R159, R169, R170) -/

/-- The newest record keeps its place when others are stored behind it. -/
theorem getElem?_stored {α : Type} (l k : List α) (x : α) : (l ++ [x] ++ k)[l.length]? = some x := by
  simp

section rollover

variable (s : State)

theorem State.closeTally_room (p n : ShiftId) (h : s.journal.hasRoom = true) :
    (s.closeTally p n).journal.tally = { first := n, covered := 1, nets := Quad.all 0, counts := Quad.all 0 } ∧
      (s.closeTally p n).journal.records =
        s.journal.records ++
          [s.newRecord (.shiftClose s.journal.tally.first p s.journal.tally.covered s.journal.tally.nets
            s.journal.tally.counts)] := by
  have closes : s.closeTally p n = _ := if_pos h
  rw [closes]
  exact ⟨rfl, (s.store_slots _).1⟩

theorem State.closeTally_full (p n : ShiftId) (h : s.journal.hasRoom = false) :
    (s.closeTally p n).journal.tally =
      { s.journal.tally with covered := addCapped Config.max16 s.journal.tally.covered 1 } := by
  have carries : s.closeTally p n = _ := if_neg (Bool.eq_false_iff.mp h)
  rw [carries]
  rfl

/-- A staged table that is not there, or staged NOW, does not take over (R169). -/
theorem State.shiftPrices_none (h : s.prices.staged = none) : s.shiftPrices = s := by
  rw [State.shiftPrices, h]

theorem State.shiftPrices_some {x : PriceTable} (h : s.prices.staged = some (x, .atShift)) :
    s.shiftPrices = s.takeOver x .atShift := by
  rw [State.shiftPrices, h]

theorem State.shiftPrices_tally : s.shiftPrices.journal.tally = s.journal.tally := by
  unfold State.shiftPrices
  split
  · rw [State.takeOver_journal]
    exact (State.storeSystem_slots _ _).2
  · rfl

theorem State.reconcileAll_tally (k : Trigger) : (s.reconcileAll k).journal.tally = s.journal.tally := by
  have one (t : State) (c : CompId) := (t.reconcile_journal k c).1
  unfold State.reconcileAll Num4.all
  simp only [List.foldl_cons, List.foldl_nil, one]

/-- The shift closed: its identity, its tally and the machines' usages (R169, steps 1 and 2). -/
def State.endShift (n : ShiftId) : State :=
  ((s.setClock { s.clock with shift := n }).closeTally s.clock.shift n).setRoster
    (s.roster.map fun m => m.clearUsage s.clock.shift n)

theorem State.rollover_eq (n : ShiftId) :
    s.rollover n = ((s.endShift n).shiftPrices.reconcileAll .shift).raise .shiftRolled := by
  have roster : ((s.setClock { s.clock with shift := n }).closeTally s.clock.shift n).roster = s.roster := by
    simp only [State.closeTally_frame, State.setClock_roster]
  rw [State.endShift, ← roster]
  rfl

theorem State.endShift_prices (n : ShiftId) : (s.endShift n).prices = s.prices := by
  simp only [State.endShift, State.setRoster_prices, State.closeTally_frame, State.setClock_prices]

theorem State.rollover_tally (n : ShiftId) :
    (s.rollover n).journal.tally =
      ((s.setClock { s.clock with shift := n }).closeTally s.clock.shift n).journal.tally := by
  rw [State.rollover_eq, State.raise_journal, State.reconcileAll_tally, State.shiftPrices_tally]
  rfl

theorem State.rollover_records (n : ShiftId) :
    ∃ l, (s.rollover n).journal.records =
      ((s.setClock { s.clock with shift := n }).closeTally s.clock.shift n).journal.records ++ l := by
  rw [State.rollover_eq]
  exact ((State.shiftPrices_adds (s.endShift n)).trans (State.reconcileAll_adds _ .shift)).records

theorem State.rollover_closes (n : ShiftId) (h : s.journal.hasRoom = true) :
    ∃ x, (s.rollover n).journal.records[s.journal.records.length]? = some x ∧
      x.body =
        .shiftClose s.journal.tally.first s.clock.shift s.journal.tally.covered s.journal.tally.nets
          s.journal.tally.counts := by
  obtain ⟨l, hl⟩ := s.rollover_records n
  have closed := (State.closeTally_room (s.setClock { s.clock with shift := n }) s.clock.shift n h).2
  rw [State.setClock_journal] at closed
  rw [hl, closed]
  exact ⟨_, getElem?_stored _ l _, rfl⟩

theorem State.rollover_begins (n : ShiftId) (h : s.journal.hasRoom = true) :
    (s.rollover n).journal.tally = { first := n, covered := 1, nets := Quad.all 0, counts := Quad.all 0 } := by
  have closed := (State.closeTally_room (s.setClock { s.clock with shift := n }) s.clock.shift n h).1
  rw [s.rollover_tally, closed]

theorem State.rollover_carries (n : ShiftId) (h : s.journal.hasRoom = false) :
    (s.rollover n).journal.tally =
      { s.journal.tally with covered := addCapped Config.max16 s.journal.tally.covered 1 } := by
  have carried := State.closeTally_full (s.setClock { s.clock with shift := n }) s.clock.shift n h
  rw [s.rollover_tally, carried]
  rfl

theorem State.rollover_roster (n : ShiftId) :
    (s.rollover n).roster = s.roster.map fun m => m.clearUsage s.clock.shift n := by
  rw [State.rollover_eq]
  simp only [State.raise_roster, State.reconcileAll_frame, State.shiftPrices_frame]
  rfl

theorem State.rollover_prices (n : ShiftId) : (s.rollover n).prices = (s.endShift n).shiftPrices.prices := by
  rw [State.rollover_eq]
  simp only [State.raise_prices, State.reconcileAll_frame]

theorem State.rollover_takesOver (n : ShiftId) {x : PriceTable} (h : s.prices.staged = some (x, .atShift)) :
    (s.rollover n).prices = { current := x, staged := none } := by
  have staged : (s.endShift n).prices.staged = some (x, .atShift) := by rw [s.endShift_prices, h]
  rw [State.rollover_prices, State.shiftPrices_some _ staged, State.takeOver_prices]

theorem State.rollover_keepsPrices (n : ShiftId) (h : s.prices.staged = none) : (s.rollover n).prices = s.prices := by
  have staged : (s.endShift n).prices.staged = none := by rw [s.endShift_prices, h]
  rw [State.rollover_prices, State.shiftPrices_none _ staged, State.endShift_prices]

theorem MachineRec.clearUsage_eq (m : MachineRec) (p n : ShiftId) :
    m.clearUsage p n =
      { m with
        shiftUsage := 0, dayUsage := if n.date ≠ p.date ∨ n.index = 1 then 0 else m.dayUsage } := by
  unfold MachineRec.clearUsage
  split <;> rfl

end rollover

/-- Settles O55: the minute is a rollover to the new identity, whose steps write the tally, the usages and the prices. -/
theorem shiftsRollOver : Obligations.ShiftsRollOver := by
  intro s n running valid ok hn new
  have pass := State.passMinute_ok s ok
  have due : s.passMinute.shiftDue = true := by
    rw [pass, State.shiftDue, Bool.and_eq_true, bne_iff_ne]
    exact ⟨valid, hn ▸ new⟩
  have rolls : exec .clockMinute s =
      .next ((s.setClock { s.clock with now := s.clock.now.nextMinute.1 }).rollover n) := by
    refine congrArg Host.Outcome.next ((if_neg (Bool.eq_false_iff.mp running)).trans ((if_pos due).trans ?_))
    rw [pass, hn]
    rfl
  obtain ⟨accounts, points, -, -⟩ :=
    (State.rollover_adds (s.setClock { s.clock with now := s.clock.now.nextMinute.1 }) n).kept
  refine ⟨_, rolls, ?_, fun k => ?_, fun room => ⟨?_, ?_⟩, fun full => ?_, fun x hx => ?_, fun hx => ?_, State.raised _ rfl,
    State.raised _ rfl, accounts, points⟩
  · rw [State.rollover_clock]
  · rw [State.rollover_roster, findMachine_map _ _ fun m => by rw [MachineRec.clearUsage_eq]]
    simp only [MachineRec.clearUsage_eq]
    rfl
  · exact State.rollover_begins _ n room
  · exact State.rollover_closes (s.setClock { s.clock with now := s.clock.now.nextMinute.1 }) n room
  · exact State.rollover_carries (s.setClock { s.clock with now := s.clock.now.nextMinute.1 }) n full
  · exact State.rollover_takesOver _ n hx
  · exact State.rollover_keepsPrices _ n hx

end Sys2Proof.Machine

/-! SUPPORT AND CERTIFICATES. Ignition, the ways into reset and the way out of it (R188 to R193). -/

namespace Sys2Proof.Machine

open Sys2Proof

/-! ### Ignition (R188) -/

/-- A point without an open delivery to finish does not move when ignition goes (R87). -/
theorem State.ignitionEnds_none {s : State} {p : PointId} (h : (s.point p).state.unfinished = false) :
    s.ignitionEnds p = s := if_neg (Bool.eq_false_iff.mp h)

theorem State.ignitionEnds_both {s : State} (h : ∀ p, (s.point p).state.unfinished = false) :
    (s.ignitionEnds .a).ignitionEnds .b = s := by
  rw [State.ignitionEnds_none (h .a), State.ignitionEnds_none (h .b)]

/-- Settles O58: the row's branch for the power state it finds. -/
theorem ignitionMovesThePower : Obligations.IgnitionMovesThePower := by
  intro s
  refine ⟨fun h => ⟨_, State.follow_followedBy _ s, ?_⟩, fun h => ?_, fun h k => ⟨_, State.follow_followedBy _ s, ?_⟩,
    fun h k => ⟨_, State.follow_followedBy _ s, ?_⟩, fun h => ?_⟩
  · refine congrArg Host.Outcome.next ?_
    rw [h]
    rfl
  · refine congrArg Host.Outcome.next ?_
    rcases h with h | h <;> rw [h]
  · exact congrArg Host.Outcome.next (if_pos ⟨k, h⟩)
  · refine congrArg Host.Outcome.next ?_
    rw [h]
    refine congrArg (State.follow · s) (State.ignitionEnds_both (s := State.standBy _) ?_)
    exact k
  · refine congrArg Host.Outcome.next ?_
    rw [h]

/-! ### Into reset (R190, R191) -/

/-- Every reset's way in, whatever marks its row writes before (R191). -/
theorem State.enterReset_resets (s : State) (flush pin out : Bool) :
    s.Resets
      (s.setPower { s.power with flushMark := flush, pinSeen := pin, supplyOut := out }).enterReset where
  inReset := rfl
  points p := by cases p <;> rfl
  couplers p := by cases p <;> rfl
  channels c := by cases c <;> rfl
  arbiter := rfl
  pump := rfl
  comps c := Quad.get_map _ _ _
  loader := rfl
  journal := rfl
  ports o := by cases o <;> rfl
  roles := rfl
  watch := rfl
  power := rfl
  rest := ⟨rfl, rfl, rfl, rfl, rfl, rfl, rfl, rfl, rfl, rfl, rfl⟩

/-- Settles O59: each way in writes its marks and enters reset, SUPPLY_FAIL after the three windows. -/
theorem resetKeepsTheRetained : Obligations.ResetKeepsTheRetained := fun s =>
  ⟨⟨_, rfl, s.enterReset_resets s.power.flushMark (!s.power.supplyOut) s.power.supplyOut, rfl, rfl, rfl⟩,
    ⟨_, rfl, s.enterReset_resets s.power.flushMark false false, rfl, rfl, rfl⟩,
    fun _ => ⟨_, rfl, State.enterReset_resets _ true false true, rfl, rfl, rfl⟩⟩

end Sys2Proof.Machine

/-! SUPPORT AND CERTIFICATES. Compartments: their reconciliation, configuration and removal (R116, R119, R120, R126 to R128). -/

namespace Sys2Proof.Machine

open Sys2Proof

section reconcile

variable (s : State) (c : CompId) (x : Compartment) (k : Trigger)

/-- The record of one compartment written through `modComp`. -/
theorem State.modComp_eq (f : Compartment → Compartment) (h : s.comp c = some x) :
    s.modComp c f = s.setComp c (some (f x)) := congrArg (s.setComp c) (congrArg (Option.map f) h)

theorem State.setComp_rest (y : Option Compartment) : { s.setComp c y with stock := s.stock } = s := rfl

/-- A record of the figures found where the variance is beyond the tolerance (R127). -/
def State.varianceRecord (g : Gauge) (v : Int) : VarianceRecord :=
  { comp := c, product := x.product, trigger := k, book := x.book, standing := s.standingBook c
    level := g.reading.level, temp := g.reading.temp, gaugeGross := g.gross, gaugeNet := g.net, variance := v
    tolerance := x.tolerance, clamped := g.clamped }

variable {s c x}

theorem State.reconcile_noGauge (hx : s.comp c = some x) (hg : s.gauge c = none) :
    s.reconcile k c =
      if x.gaugeNoted then
        s.setComp c
          (some
            { x with
              lastRec := some { trigger := k, outcome := .noGauge, variance := none, time := s.clock.now } })
      else
        (s.setComp c
          (some
            { x with
              gaugeNoted := true
              lastRec := some { trigger := k, outcome := .noGauge, variance := none, time := s.clock.now } })).raise
          .gaugeInvalid := by
  rw [State.reconcile, hx]
  dsimp only
  rw [hg]
  dsimp only
  rw [State.reconcileNoGauge, State.setLastRec, s.modComp_eq c x _ hx]
  cases h : x.gaugeNoted with
  | true => exact if_neg (by simp)
  | false =>
    refine (if_pos (by simp)).trans ?_
    rw [State.modComp_eq _ c _ _ (s.setComp_comp_same c _), State.setComp_setComp]
    rfl

theorem State.reconcile_within {g : Gauge} {v : Int} (hx : s.comp c = some x) (hg : s.gauge c = some g)
    (hv : v = (g.net : Int) - (s.standingBook c : Int)) (ht : v.natAbs ≤ x.tolerance) :
    s.reconcile k c =
      s.setComp c
        (some
          { x with
            variance := false
            lastRec := some { trigger := k, outcome := .inTolerance, variance := some v, time := s.clock.now } }) := by
  subst hv
  rw [State.reconcile, hx]
  dsimp only
  rw [hg]
  refine (if_neg ht.not_gt).trans ?_
  rw [s.modComp_eq c x _ hx, State.setLastRec, State.modComp_eq _ c _ _ (s.setComp_comp_same c _),
    State.setComp_setComp]
  rfl

theorem State.reconcile_beyond {g : Gauge} {v : Int} (hx : s.comp c = some x) (hg : s.gauge c = some g)
    (hv : v = (g.net : Int) - (s.standingBook c : Int)) (ht : x.tolerance < v.natAbs) :
    s.reconcile k c =
      ((s.storeSystem (.reconcile (s.varianceRecord c x k g v))).setComp c
        (some
          { x with
            variance := true
            lastRec :=
              some { trigger := k, outcome := .outOfTolerance, variance := some v, time := s.clock.now } })).raise
        .stockVariance := by
  subst hv
  rw [State.reconcile, hx]
  dsimp only
  rw [hg]
  refine (if_pos ht).trans ?_
  have stored : (s.storeSystem (.reconcile (s.varianceRecord c x k g (g.net - s.standingBook c)))).comp c = some x := by
    simp only [State.storeSystem_frame, hx]
  have clock : (s.storeSystem (.reconcile (s.varianceRecord c x k g (g.net - s.standingBook c)))).clock = s.clock := by
    simp only [State.storeSystem_frame]
  rw [← clock]
  refine congrArg (State.raise · _) ?_
  change State.setLastRec (State.modComp (s.storeSystem (.reconcile (s.varianceRecord c x k g _))) c _) c _ _ _ = _
  rw [State.modComp_eq _ c x _ stored, State.setLastRec, State.modComp_eq _ c _ _ (State.setComp_comp_same _ c _),
    State.setComp_setComp]
  rfl

/-- The three outcomes of R127. -/
theorem State.reconcile_reconciles (hx : s.comp c = some x) : s.Reconciled (s.reconcile k c) c x k := by
  have cases : (s.gauge c = none) ∨ ∃ g v, s.gauge c = some g ∧ v = (g.net : Int) - (s.standingBook c : Int) := by
    cases s.gauge c with
    | none => exact .inl rfl
    | some g => exact .inr ⟨g, _, rfl, rfl⟩
  refine ⟨fun hg => ?_, fun g v hg hv ht => ?_, fun g v hg hv ht => ?_, fun d hd => ?_, ?_⟩
  · rw [State.reconcile_noGauge k hx hg]
    cases h : x.gaugeNoted with
    | true => exact ⟨by rw [if_pos rfl, State.setComp_comp_same, ← h], rfl, nofun, fun _ => rfl⟩
    | false => exact ⟨State.setComp_comp_same _ _ _, rfl, fun _ => State.raised _ rfl, nofun⟩
  · rw [State.reconcile_within k hx hg hv ht]
    exact ⟨State.setComp_comp_same _ _ _, rfl, rfl⟩
  · rw [State.reconcile_beyond k hx hg hv ht]
    refine ⟨State.setComp_comp_same _ _ _, State.raised _ rfl, fun full => ?_, fun room => ?_⟩
    · rw [State.raise_journal, State.setComp_journal, s.storeSystem_full _ full]
    · rw [State.raise_journal, State.setComp_journal, s.storeSystem_room _ room]
      exact ⟨_, _, (State.store_slots _ _).1, rfl, rfl, rfl, rfl, rfl, rfl⟩
  · rcases cases with hg | ⟨g, v, hg, hv⟩
    · rw [State.reconcile_noGauge k hx hg]
      split
      · exact State.setComp_comp_ne _ _ _ _ hd
      · exact State.setComp_comp_ne _ _ _ _ hd
    · by_cases ht : x.tolerance < v.natAbs
      · rw [State.reconcile_beyond k hx hg hv ht, State.raise_comp, State.setComp_comp_ne _ _ _ _ hd]
        simp only [State.storeSystem_frame]
      · rw [State.reconcile_within k hx hg hv (Nat.le_of_not_lt ht)]
        exact State.setComp_comp_ne _ _ _ _ hd
  · rcases cases with hg | ⟨g, v, hg, hv⟩
    · rw [State.reconcile_noGauge k hx hg]
      split
      · rfl
      · rfl
    · by_cases ht : x.tolerance < v.natAbs
      · rw [State.reconcile_beyond k hx hg hv ht]
        exact congrArg (fun t : State => { t with stock := s.stock }) (s.storeSystem_rest _)
      · rw [State.reconcile_within k hx hg hv (Nat.le_of_not_lt ht)]
        rfl

end reconcile

theorem num4Of_ne {n : Nat} {c : Num4} (h : num4Of n = some c) : n ≠ 0 := by
  rintro rfl
  cases h

theorem bodyReconcile_one {s : State} {n : Nat} {c : CompId} {x : Compartment} (hn : num4Of n = some c)
    (hx : s.comp c = some x) :
    bodyReconcile n s =
      (s.reconcile .command c, Reply.okWith (listFlds [c] (s.reconcile .command c).reconciledFlds)) := by
  refine (if_neg (num4Of_ne hn)).trans ?_
  rw [hn]
  exact if_neg (by simp [hx])

/-- Settles O48: a reconciliation has the three outcomes of R127, whatever makes it. -/
theorem stockIsReconciled : Obligations.StockIsReconciled := by
  intro s c x
  refine ⟨fun r n u ht hu hn hx => ?_, fun hx hs => ?_, fun reading good hx => ?_, rfl⟩
  · subst hu
    exact ⟨_, _, Answers.of_body (fun _ => rfl) ht (bodyReconcile_one hn hx), State.reconcile_reconciles .command hx⟩
  · have stops : s.stopSettle c = s.setComp c (some { x with settle := none }) := s.modComp_eq c x _ hx
    refine ⟨_, congrArg Host.Outcome.next (if_pos (by rw [hx]; exact hs)), ?_⟩
    rw [stops]
    exact State.reconcile_reconciles .settle (State.setComp_comp_same _ _ _)
  · exact congrArg Host.Outcome.next ((if_pos good).trans (State.modComp_eq _ c x _ hx))

/-! ### Configuration (R116, R120) -/

section configure

variable {s : State} {c : CompId} {x : Compartment}

theorem State.compInUse_iff :
    s.compInUse c x = true ↔ x.state ≠ .outOfService ∨ s.segmentOn c = true ∨ s.planNames c = true := by
  simp [State.compInUse, or_assoc]

theorem State.compInUse_free (h : x.state = .outOfService) (k : s.segmentOn c = false) (m : s.planNames c = false) :
    s.compInUse c x = false := by
  simp [State.compInUse, h, k, m]

/-- A REORDER notice writes its compartment's mark and the ports alone (R130). -/
theorem State.reorderFall_rest (s : State) (c : CompId) :
    { s.reorderFall c with stock := s.stock, ports := s.ports } = s := by
  unfold State.reorderFall
  split <;> rfl

/-- With the mark standing no new notice is due, and the mark stands on (R130). -/
theorem Compartment.reorderSent_or (x : Compartment) :
    (x.reorderSent || x.reorderDue) = (x.reorderSent || (x.reorder != 0 && decide (x.available < x.reorder))) := by
  cases h : x.reorderSent <;> simp [Compartment.reorderDue, h]

theorem State.onlyComp_iff (s : State) (c : CompId) : s.onlyComp c = true ↔ ∀ d, d ≠ c → s.comp d = none := by
  simp only [State.onlyComp, List.all_eq_true, Bool.or_eq_true, beq_iff_eq, Option.isNone_iff_eq_none]
  exact ⟨fun h d hd => (h d (by cases d <;> decide)).resolve_left hd, fun h d _ => or_iff_not_imp_left.mpr (h d)⟩

theorem bodyConfigureCompartment_new {n k capacity safeFill heel margin : Nat} {q : ProductId}
    (hn : num4Of n = some c) (hk : num4Of k = some q) (hr : compInRange capacity safeFill heel margin = true)
    (hc : s.comp c = none) :
    bodyConfigureCompartment n k capacity safeFill heel margin s =
      (s.setComp c (some (newCompartment q capacity safeFill heel margin s.stockSettle)), Reply.ok) := by
  simp only [bodyConfigureCompartment, hn, hk, hr, hc]

theorem bodyConfigureCompartment_known {n k capacity safeFill heel margin : Nat} {q : ProductId}
    (hn : num4Of n = some c) (hk : num4Of k = some q) (hr : compInRange capacity safeFill heel margin = true)
    (hc : s.comp c = some x) :
    bodyConfigureCompartment n k capacity safeFill heel margin s =
      if s.compInUse c x then s.deny .busy
      else if x.product ≠ q ∧ x.book ≠ 0 then (s, Reply.refused .stockHeld)
      else
        ( (s.modComp c fun y =>
            { y with
              product := q, capacity := capacity, safeFill := safeFill, heel := heel, margin := margin }).reorderFall
            c,
          Reply.ok ) := by
  simp only [bodyConfigureCompartment, hn, hk, hr, hc]

end configure

/-- Settles O49: each command by what it finds of the compartment. -/
theorem compartmentsAreConfigured : Obligations.CompartmentsAreConfigured := by
  intro r s u n c ht hu hn
  subst hu
  refine ⟨fun k q capacity safeFill heel margin hk c1 c2 f1 f2 hh hm => ?_, fun x d hx hd other out drawn named empty => ?_,
    fun x hx alone => ?_, fun x points hx h1 h2 range rising => ?_⟩
  · have hr : compInRange capacity safeFill heel margin = true := by
      simp [compInRange, inRange_of c1 c2, inRange_of f1 f2, hh, hm]
    refine ⟨fun hx => ?_, fun x hx out drawn named fits => ?_, fun x hx inUse => ?_⟩
    · exact Answers.of_body (fun _ => rfl) ht (bodyConfigureCompartment_new hn hk hr hx)
    · have body := bodyConfigureCompartment_known hn hk hr hx
      have free := State.compInUse_free out drawn named
      rw [if_neg (Bool.eq_false_iff.mp free), if_neg fun h => fits.elim h.1 h.2] at body
      refine ⟨_, Answers.of_body (fun _ => rfl) ht body, ?_, fun d hd => ?_, ?_⟩
      · rw [State.reorderFall_comp, if_pos rfl, State.modComp_comp_same, hx]
        simp only [Option.map_some, Compartment.reorderSent_or]
        rfl
      · rw [State.reorderFall_comp, if_neg hd, State.modComp_comp_ne _ _ _ _ hd]
      · exact congrArg (fun t : State => { t with stock := (s.frameReceived r.port).stock }) (State.reorderFall_rest _ c)
    · exact Answers.of_body (fun _ => rfl) ht
        ((bodyConfigureCompartment_known hn hk hr hx).trans (if_pos (State.compInUse_iff.mpr inUse)))
  · refine Answers.of_body (fun _ => rfl) ht ?_
    have some : ¬ (s.frameReceived r.port).onlyComp c = true := fun h => by
      rw [State.onlyComp_iff] at h
      rw [h d hd] at other
      cases other
    rw [bodyRemoveCompartment, hn]
    dsimp only
    rw [hx]
    dsimp only
    rw [if_neg some, if_neg (Bool.eq_false_iff.mp (State.compInUse_free out drawn named)), if_neg (by simp [empty])]
  · refine Answers.of_body (fun _ => rfl) ht ?_
    rw [bodyRemoveCompartment, hn]
    dsimp only
    rw [hx]
    exact if_pos ((State.onlyComp_iff _ c).mpr alone)
  · refine Answers.of_body (fun _ => rfl) ht ?_
    have good : strappingInRange points = true := by
      simp only [strappingInRange, Bool.and_eq_true, List.all_eq_true, decide_eq_true_eq, risingFirst_iff,
        risingSecond_iff]
      exact ⟨⟨⟨inRange_of h1 h2, range⟩, rising.imp And.left⟩, rising.imp And.right⟩
    rw [bodySetStrapping, hn, good]
    refine (if_neg (by simp [hx])).trans ?_
    rw [State.modComp_eq _ c x _ hx]

end Sys2Proof.Machine

/-! SUPPORT AND CERTIFICATES. The pump's own events: its tests of the sensed conditions, its no-flow timer and its ramp (R103,
R105, R106, R109). -/

namespace Sys2Proof.Machine

open Sys2Proof

section tests

variable {x y z : Pump} {j k : FaultKind}

/-- A kind's test finds in `y` what it finds in `x`. -/
structure Pump.Alike (j : FaultKind) (x y : Pump) : Prop where
  faults : y.faults = x.faults
  state : y.state = x.state
  condition : y.condition j = x.condition j
  present : y.present j = x.present j
  deglitch : y.deglitch.get j = x.deglitch.get j
  reported : y.reported.get j = x.reported.get j

theorem Pump.Alike.trans (h : Pump.Alike j x y) (g : Pump.Alike j y z) : Pump.Alike j x z :=
  ⟨g.faults.trans h.faults, g.state.trans h.state, g.condition.trans h.condition, g.present.trans h.present,
    g.deglitch.trans h.deglitch, g.reported.trans h.reported⟩

@[simp] theorem Pump.setPresent_deglitch (x : Pump) (k : FaultKind) (v : Bool) :
    (x.setPresent k v).deglitch = x.deglitch := by
  cases k <;> rfl

@[simp] theorem Pump.setPresent_reported (x : Pump) (k : FaultKind) (v : Bool) :
    (x.setPresent k v).reported = x.reported := by
  cases k <;> rfl

theorem Pump.setPresent_present (x : Pump) (v : Bool) (h : j ≠ k) : (x.setPresent k v).present j = x.present j := by
  revert h
  cases k <;> cases j <;> simp [Pump.setPresent, Pump.present]

/-- A test of one kind is nothing to another. -/
theorem Pump.test_alike (x : Pump) (h : j ≠ k) : Pump.Alike j x (x.test k) := by
  have whole := x.test_eq k
  have faults : (x.test k).faults = x.faults := by rw [whole]
  have state : (x.test k).state = x.state := by rw [whole]
  have condition : (x.test k).condition j = x.condition j := by rw [whole]; cases j <;> rfl
  refine ⟨faults, state, condition, ?_, ?_, ?_⟩
  · unfold Pump.test
    split
    · rfl
    · split
      · split <;> cases j <;> rfl
      · exact Pump.setPresent_present _ _ h
  · unfold Pump.test
    split
    · rfl
    · split
      · split
        · exact (PerFault.get_set _ _ _ _).trans (if_neg h)
        · rfl
      · rw [Pump.setPresent_deglitch]
        exact (PerFault.get_set _ _ _ _).trans (if_neg h)
  · unfold Pump.test
    split
    · rfl
    · split
      · split <;> rfl
      · rw [Pump.setPresent_reported]
        exact (PerFault.get_set _ _ _ _).trans (if_neg h)

/-- The condition is sensed, in a state that tests it (R105). -/
def Pump.sensed (x : Pump) (j : FaultKind) : Prop := x.state.tests j = true ∧ x.condition j = true

theorem Pump.test_starts (on : (x.faults.get j).action ≠ .off) (h : x.sensed j) (free : x.deglitch.get j = none)
    (quiet : x.reported.get j = false) (fresh : ¬ (x.present j = true ∧ x.state = .latched)) :
    (x.test j).deglitch.get j = some (x.faults.get j).deglitch := by
  have starts : x.test j = { x with deglitch := x.deglitch.set j (some (x.faults.get j).deglitch) } :=
    (if_neg on).trans ((if_pos h).trans (if_pos ⟨free, Bool.eq_false_iff.mp quiet, fresh⟩))
  rw [starts]
  exact (PerFault.get_set _ _ _ _).trans (if_pos rfl)

theorem Pump.test_stops (on : (x.faults.get j).action ≠ .off) (h : ¬ x.sensed j) :
    (x.test j).deglitch.get j = none ∧ (x.test j).reported.get j = false := by
  have stops : x.test j = Pump.setPresent
      { x with deglitch := x.deglitch.set j none, reported := x.reported.set j false } j false :=
    (if_neg on).trans (if_neg h)
  rw [stops, Pump.setPresent_deglitch, Pump.setPresent_reported]
  exact ⟨(PerFault.get_set _ _ _ _).trans (if_pos rfl), (PerFault.get_set _ _ _ _).trans (if_pos rfl)⟩

theorem Pump.Alike.refl (j : FaultKind) (x : Pump) : Pump.Alike j x x := ⟨rfl, rfl, rfl, rfl, rfl, rfl⟩

/-- A kind whose condition is sensed (R105). -/
def sensedKind (j : FaultKind) : Prop := j = .stall ∨ j = .dryRun ∨ j = .supplyLow ∨ j = .supplyHigh

/-- The four tests make the kind's own test of what `x` has of it, and keep what that leaves. -/
theorem Pump.testAll_tests (x : Pump) (h : sensedKind j) : ∃ z, Pump.Alike j x z ∧ Pump.Alike j (z.test j) x.testAll := by
  have other {j k : FaultKind} (h : j ≠ k) (y : Pump) := y.test_alike h
  rcases h with rfl | rfl | rfl | rfl
  · exact ⟨x, .refl _ x, ((other (by decide) _).trans (other (by decide) _)).trans (other (by decide) _)⟩
  · exact ⟨_, other (by decide) _, (other (by decide) _).trans (other (by decide) _)⟩
  · exact ⟨_, (other (by decide) _).trans (other (by decide) _), other (by decide) _⟩
  · exact ⟨_, ((other (by decide) _).trans (other (by decide) _)).trans (other (by decide) _), .refl _ _⟩

theorem Pump.Alike.sensed_iff (h : Pump.Alike j x y) : y.sensed j ↔ x.sensed j := by
  rw [Pump.sensed, Pump.sensed, h.state, h.condition]

/-- The deglitch timer of a kind starts where its condition now stands (R105). -/
theorem Pump.testAll_starts (t : sensedKind j) (on : (x.faults.get j).action ≠ .off) (h : x.sensed j)
    (free : x.deglitch.get j = none) (quiet : x.reported.get j = false)
    (fresh : ¬ (x.present j = true ∧ x.state = .latched)) :
    x.testAll.deglitch.get j = some (x.faults.get j).deglitch := by
  obtain ⟨z, before, after⟩ := x.testAll_tests t
  rw [after.deglitch, Pump.test_starts (by rwa [before.faults]) (before.sensed_iff.mpr h) (before.deglitch.trans free)
    (before.reported.trans quiet) (by rwa [before.present, before.state]), before.faults]

/-- It stops, with the mark, where the condition does not stand (R105, R110). -/
theorem Pump.testAll_stops (t : sensedKind j) (on : (x.faults.get j).action ≠ .off) (h : ¬ x.sensed j) :
    x.testAll.deglitch.get j = none ∧ x.testAll.reported.get j = false := by
  obtain ⟨z, before, after⟩ := x.testAll_tests t
  rw [after.deglitch, after.reported]
  exact Pump.test_stops (by rwa [before.faults]) (before.sensed_iff.not.mpr h)

/-- No sensed test is one of the summed rate (R106). -/
theorem Pump.testAll_noFlow (x : Pump) : x.testAll.noFlow = x.noFlow ∧ x.testAll.reported.noFlow = x.reported.noFlow := by
  have other {k : FaultKind} (h : FaultKind.noFlow ≠ k) (y : Pump) := (y.test_alike h)
  have alike : Pump.Alike .noFlow x x.testAll :=
    (((other (by decide) _).trans (other (by decide) _)).trans (other (by decide) _)).trans (other (by decide) _)
  exact ⟨by rw [x.testAll_eq], alike.reported⟩

end tests

/-! ### The no-flow timer (R106) -/

section noFlow

/-- A pump after the recomputation of the summed rate (R106). -/
def Pump.minded (x : Pump) (rate : Nat) : Pump :=
  if x.state = .running ∧ x.faults.noFlow.action ≠ .off then
    if rate < x.faults.noFlow.first then
      if x.noFlow = none ∧ ¬ x.reported.noFlow then { x with noFlow := some x.faults.noFlow.second } else x
    else { x with noFlow := none, reported := { x.reported with noFlow := false } }
  else x

theorem State.testNoFlow_eq (s : State) : s.testNoFlow = s.setPump (s.pump.minded s.summedRate) := by
  unfold State.testNoFlow Pump.minded
  dsimp only
  split
  · split
    · split <;> rfl
    · rfl
  · rfl

variable {x : Pump} {rate : Nat}

theorem Pump.minded_low (h : x.state = .running) (on : x.faults.noFlow.action ≠ .off)
    (low : rate < x.faults.noFlow.first) :
    x.minded rate =
      if x.noFlow = none ∧ ¬ x.reported.noFlow then { x with noFlow := some x.faults.noFlow.second } else x :=
  (if_pos ⟨h, on⟩).trans (if_pos low)

theorem Pump.minded_high (h : x.state = .running) (on : x.faults.noFlow.action ≠ .off)
    (high : x.faults.noFlow.first ≤ rate) :
    x.minded rate = { x with noFlow := none, reported := { x.reported with noFlow := false } } :=
  (if_pos ⟨h, on⟩).trans (if_neg high.not_gt)

theorem Pump.minded_off (h : ¬ (x.state = .running ∧ x.faults.noFlow.action ≠ .off)) : x.minded rate = x := if_neg h

/-- The recomputation moves the timer and the mark alone. -/
theorem Pump.minded_eq (x : Pump) (rate : Nat) :
    x.minded rate = { x with noFlow := (x.minded rate).noFlow, reported := (x.minded rate).reported } := by
  unfold Pump.minded
  split
  · split
    · split <;> rfl
    · rfl
  · rfl

/-- A second recomputation of the same rate changes nothing. -/
theorem Pump.minded_twice (x : Pump) (rate : Nat) : (x.minded rate).minded rate = x.minded rate := by
  by_cases on : x.state = .running ∧ x.faults.noFlow.action ≠ .off
  · by_cases low : rate < x.faults.noFlow.first
    · rw [Pump.minded_low on.1 on.2 low]
      split
      · refine (Pump.minded_low (x := { x with noFlow := some x.faults.noFlow.second }) on.1 on.2 low).trans (if_neg ?_)
        simp
      next h => exact (Pump.minded_low on.1 on.2 low).trans (if_neg h)
    · rw [Pump.minded_high on.1 on.2 (Nat.le_of_not_lt low)]
      exact Pump.minded_high on.1 on.2 (Nat.le_of_not_lt low)
  · rw [Pump.minded_off on, Pump.minded_off on]

/-- A pump in RUNNING, with the settings and the no-flow figures of `s`, follows the summed rate (R106). -/
theorem Pump.minded_follows {s t : State} (state : x.state = .running) (faults : x.faults = s.pump.faults)
    (timer : x.noFlow = s.pump.noFlow) (mark : x.reported.noFlow = s.pump.reported.noFlow)
    (ht : t.pump = x.minded t.flowOnHeld) : s.NoFlowFollows t := by
  refine ⟨fun on low free quiet => ?_, fun on low busy => ?_, fun on high => ?_⟩ <;> rw [← faults] at on
  · rw [← faults] at low
    rw [ht, Pump.minded_low state on low, if_pos ⟨timer.trans free, by simp [mark, quiet]⟩, faults]
  · rw [← faults] at low
    rw [ht, Pump.minded_low state on low, if_neg ?_]
    · exact ⟨timer, mark⟩
    · rintro ⟨free, quiet⟩
      rw [timer] at free
      rw [mark] at quiet
      simp [free, quiet] at busy
  · rw [← faults] at high
    rw [ht, Pump.minded_high state on high]
    exact ⟨rfl, rfl⟩

end noFlow

/-! ### A window of a flowing point (R103, R106) -/

section window

variable {s u : State} {p : PointId}

theorem State.runCondition_of (h : s.flowingOnHeld p = true) : s.runCondition = true := by
  cases p <;> simp [State.runCondition, h]

/-- A RUNNING pump runs on while the run condition stands (R103). -/
theorem State.followRun_running (h : s.pump.state = .running) (k : s.runCondition = true) : s.followRun = s :=
  (if_pos k).trans (if_neg (by simp [h]))

theorem State.flowingOnHeld_of_eq {t : State} (points : t.points = s.points) (arbiter : t.arbiter = s.arbiter)
    (p : PointId) : t.flowingOnHeld p = s.flowingOnHeld p := by
  simp only [State.flowingOnHeld, State.drawsOn, State.segmentComp, State.point, points, arbiter]

theorem State.flowOnHeld_of_eq {t : State} (points : t.points = s.points) (arbiter : t.arbiter = s.arbiter)
    (channels : t.channels = s.channels) : t.flowOnHeld = s.flowOnHeld := by
  simp only [State.flowOnHeld, State.flowingOnHeld_of_eq points arbiter, State.channel, channels]

theorem State.testNoFlow_pump (s : State) : s.testNoFlow.pump = s.pump.minded s.flowOnHeld := by
  rw [State.testNoFlow_eq]
  rfl

/-- Where a point flows on the held compartment before and after, the blocks that follow leave a RUNNING pump but for its
no-flow timer. -/
theorem State.follow_running (old : State) (h : s.pump.state = .running) (k : s.runCondition = true)
    (m : (s.follow old).flowingOnHeld p = true) :
    (s.follow old).pump = s.pump ∨ (s.follow old).pump = s.pump.minded (s.follow old).flowOnHeld := by
  obtain ⟨arbiter, points, -⟩ := s.follow_settle old
  have pump : s.settle.pump = s.pump := by simp only [State.settle_frame]
  have stands : s.settle.runCondition = true :=
    State.runCondition_of ((State.flowingOnHeld_of_eq points.symm arbiter.symm p).trans m)
  have follow : s.follow old =
      (if s.settle.flowChanged old then s.settle.testNoFlow else s.settle).followWatch old := by
    rw [State.follow, State.followRun_running h k, State.followRun_running (pump ▸ h) stands]
  have rate : (s.follow old).flowOnHeld = s.settle.flowOnHeld := by
    refine State.flowOnHeld_of_eq points arbiter ?_
    rw [follow]
    split <;> simp only [State.followWatch_frame, State.testNoFlow_frame]
  rw [rate, follow, State.followWatch_eq]
  split
  · exact .inr (by rw [State.setWatch_pump, State.testNoFlow_pump, pump])
  · exact .inl (by rw [State.setWatch_pump, pump])

/-- The blocks that follow, and the recomputation behind them, leave a RUNNING pump with its no-flow timer set by the summed
rate, where a point flows on the held compartment before and after. -/
theorem State.follow_minded (old : State) (h : s.pump.state = .running) (k : s.runCondition = true)
    (m : (s.follow old).flowingOnHeld p = true) :
    (s.follow old).testNoFlow.pump = s.pump.minded (s.follow old).flowOnHeld := by
  rw [State.testNoFlow_pump]
  rcases State.follow_running old h k m with same | once
  · rw [same]
  · rw [once, Pump.minded_twice]

theorem State.drawsOn_of_context {t : State} (h : (t.point p).context = (s.point p).context) (c : CompId) :
    t.drawsOn c p = s.drawsOn c p := by
  rw [State.drawsOn, State.segmentComp, h]
  rfl

theorem State.flowingOnHeld_iff :
    s.flowingOnHeld p = true ↔
      (s.point p).state.isFlowing = true ∧ ∃ c, s.arbiter.selector = .held c ∧ s.drawsOn c p = true := by
  unfold State.flowingOnHeld
  split
  next c h => simp [h]
  next h =>
    simp only [Bool.false_eq_true, false_iff]
    rintro ⟨-, c, held, -⟩
    exact h c held

/-- The comparison of a FLOWING point ends its flow, or leaves the arbiter and lets it flow on (R77). -/
theorem State.compareFlow_cases (h : (s.point p).state.isFlowing = true) :
    ((s.compareFlow p).point p).state = .finishing ∨
      ((s.compareFlow p).point p).state.isFlowing = true ∧ (s.compareFlow p).arbiter = s.arbiter := by
  unfold State.compareFlow
  split
  · split
    · exact .inl (State.finish_finishes s p _).state.1
    · split
      · exact .inr ⟨by rw [State.setPoint_point_same]; rfl, rfl⟩
      · exact .inr ⟨h, rfl⟩
  · exact .inr ⟨h, rfl⟩

theorem State.testNoFlow_flowOnHeld (s : State) : s.testNoFlow.flowOnHeld = s.flowOnHeld :=
  State.flowOnHeld_of_eq (by simp only [State.testNoFlow_frame]) (by simp only [State.testNoFlow_frame])
    (by simp only [State.testNoFlow_frame])

theorem State.testNoFlow_flowingOnHeld (s : State) : s.testNoFlow.flowingOnHeld p = s.flowingOnHeld p :=
  State.flowingOnHeld_of_eq (by simp only [State.testNoFlow_frame]) (by simp only [State.testNoFlow_frame]) p

/-- A window of a point that flows on after it, under a RUNNING pump (R77, R106). -/
theorem State.pointWindow_minded (h : s.pump.state = .running) (flows : s.flowingOnHeld p = true)
    (on : (s.pointWindow p).flowingOnHeld p = true) :
    (s.pointWindow p).pump = s.pump.minded (s.pointWindow p).flowOnHeld := by
  obtain ⟨flowing, c, held, draws⟩ := State.flowingOnHeld_iff.mp flows
  have window : s.pointWindow p =
      if ((s.compareFlow p).follow s).flowingOnHeld p then ((s.compareFlow p).follow s).testNoFlow
      else (s.compareFlow p).follow s := if_pos flowing
  have stays : ((s.compareFlow p).follow s).flowingOnHeld p = true := by
    rw [window] at on
    split at on
    next k => exact k
    next => exact on
  rw [if_pos stays] at window
  have state := (State.flowingOnHeld_iff.mp stays).1
  have moves := ((s.compareFlow p).follow_followedBy s).points p
  have pump : (s.compareFlow p).pump = s.pump := by simp only [State.compareFlow_frame]
  have runs : (s.compareFlow p).runCondition = true := by
    rcases State.compareFlow_cases flowing with finishing | ⟨flowing', arbiter⟩
    · rw [moves.still (by rw [finishing]; decide), finishing] at state
      cases state
    · exact State.runCondition_of (State.flowingOnHeld_iff.mpr ⟨flowing', c, arbiter ▸ held,
        (State.drawsOn_of_context (State.compareFlow_context s p p) c).trans draws⟩)
  rw [window, State.testNoFlow_flowOnHeld, ← pump]
  exact State.follow_minded s (by rw [pump, h]) runs stays

end window

/-! ### The ramp's end and a change sensed (R103, R105, R109) -/

section events

variable (x : Pump)

theorem Pump.run_eq :
    x.run =
      { x with
        state := .running, ramp := none, cleanRun := some 300, deglitch := x.run.deglitch, reported := x.run.reported
        lowPresent := x.run.lowPresent, highPresent := x.run.highPresent } := Pump.testAll_eq _

theorem Pump.run_noFlow : x.run.noFlow = x.noFlow ∧ x.run.reported.noFlow = x.reported.noFlow := Pump.testAll_noFlow _

theorem Pump.minded_kept (rate : Nat) :
    (x.minded rate).state = x.state ∧ (x.minded rate).ramp = x.ramp ∧ (x.minded rate).cleanRun = x.cleanRun ∧
      (x.minded rate).drive = x.drive ∧ (x.minded rate).retryCount = x.retryCount := by
  rw [Pump.minded_eq]
  exact ⟨rfl, rfl, rfl, rfl, rfl⟩

theorem State.testNoFlow_rest (s : State) (y : Pump) : { (s.setPump y).testNoFlow with pump := s.pump } = s := by
  rw [State.testNoFlow_eq]
  rfl

/-- The pump at the ramp's end, with its no-flow timer set by the summed rate. -/
theorem State.ramp_pump (s : State) :
    (s.setPump s.pump.run).testNoFlow.pump = s.pump.run.minded (s.setPump s.pump.run).testNoFlow.flowOnHeld := by
  rw [State.testNoFlow_flowOnHeld]
  exact State.testNoFlow_pump _

/-- The pump with what is sensed. -/
def Pump.senses (speed current : Nat) (supply : SupplySense) : Pump :=
  { x with speed := speed, current := current, supply := supply }

/-- The supply's change moves the clear timer alone (R109). -/
theorem Pump.followSupply_eq (was : SupplySense) :
    x.followSupply was = { x with clear := (x.followSupply was).clear } := by
  unfold Pump.followSupply
  split
  · split
    · split <;> rfl
    · rfl
  · rfl

theorem Pump.followSupply_clear {k : FaultKind} (was : SupplySense) (h : x.state = .latched)
    (m : x.latched = some (k, true)) :
    (x.followSupply was).clear =
      if x.supply = .within then (if was = .within then x.clear else some (x.faults.get k).deglitch) else none := by
  rw [Pump.followSupply, h, m]
  dsimp only
  split
  · split <;> rfl
  · rfl

theorem Pump.followSupply_stays (was : SupplySense) (h : x.state ≠ .latched ∨ ∀ k, x.latched ≠ some (k, true)) :
    x.followSupply was = x := by
  unfold Pump.followSupply
  split
  next k latched auto => exact absurd auto (h.resolve_left (· latched) k)
  next => rfl

end events

/-- Settles O39: the ramp's end and a window are recomputations of the summed rate, and a change sensed is four tests. -/
theorem pumpEventsAct : Obligations.PumpEventsAct := by
  intro s
  refine ⟨fun starting ramp => ?_, fun clean => ?_, fun p probe running runs flows => ?_,
    fun speed current supply running => ?_⟩
  · have act : exec .pumpRampExpiry s = .next (s.setPump s.pump.run).testNoFlow :=
      congrArg Host.Outcome.next (if_pos ⟨starting, ramp⟩)
    have pump := s.ramp_pump
    obtain ⟨state, ramp, clean, drive, count⟩ :=
      s.pump.run.minded_kept (s.setPump s.pump.run).testNoFlow.flowOnHeld
    have run := s.pump.run_eq
    obtain ⟨timer, mark⟩ := s.pump.run_noFlow
    refine ⟨_, act, ?_, ?_, ?_, ?_, ?_, ?_, Pump.minded_follows (by rw [run]) (by rw [run]) timer mark pump⟩
    · exact s.testNoFlow_rest s.pump.run
    · rw [pump, state, run]
    · rw [pump, ramp, run]
    · rw [pump, clean, run]
    · rw [pump, drive, run]
    · rw [pump, count, run]
  · exact congrArg Host.Outcome.next (if_pos clean)
  · have gist := s.endWindow_gist (channelFor p) probe
    have pump : (s.endWindow (channelFor p) probe).pump = s.pump := by simp only [State.endWindow_frame]
    have act : exec (.meterWindowEnd (channelFor p) probe) s =
        .next ((s.endWindow (channelFor p) probe).pointWindow p) := by
      refine congrArg Host.Outcome.next ((if_neg (Bool.eq_false_iff.mp running)).trans ?_)
      cases p <;> rfl
    refine ⟨_, act, fun on => ?_⟩
    have minded := State.pointWindow_minded (by rw [pump, runs])
      (by rw [State.flowingOnHeld_gist, gist, ← State.flowingOnHeld_gist, flows]) on
    rw [pump] at minded
    refine ⟨?_, Pump.minded_follows runs rfl rfl rfl minded⟩
    rw [minded, Pump.minded_eq]
    exact runs
  · have act : exec (.pumpSenseChange speed current supply) s =
        .next (s.setPump ((s.pump.senses speed current supply).testAll.followSupply s.pump.supply)) :=
      congrArg Host.Outcome.next (if_neg (Bool.eq_false_iff.mp running))
    generalize hx : s.pump.senses speed current supply = x at act
    have same : x = { s.pump with speed := speed, current := current, supply := supply } := hx.symm
    have supplies := x.testAll.followSupply_eq s.pump.supply
    have tests := x.testAll_eq
    refine ⟨_, act, rfl, ?_, ?_, ?_, ?_, ?_, ?_, fun k latched auto => ?_, fun h => ?_, fun k hk on => ⟨?_, ?_⟩⟩ <;>
      rw [State.setPump_pump]
    · rw [supplies, tests, same]
    · rw [supplies, tests, same]
    · rw [supplies, tests, same]
    · rw [supplies, tests, same]
    · rw [supplies, tests, same]
    · rw [supplies, tests, same]
    · have clear := x.testAll.followSupply_clear (k := k) s.pump.supply
        (by rw [tests, same]; exact latched) (by rw [tests, same]; exact auto)
      have supply' : x.testAll.supply = supply := by rw [tests, same]
      have clear' : x.testAll.clear = s.pump.clear := by rw [tests, same]
      have faults' : x.testAll.faults = s.pump.faults := by rw [tests, same]
      rw [clear, supply', clear', faults']
      exact ⟨fun h h' => (if_pos h).trans (if_neg h'), fun h h' => (if_pos h).trans (if_pos h'), fun h => if_neg h⟩
    · rw [Pump.followSupply_stays _ _ (by rw [tests, same]; exact h), tests, same]
    · intro tests' condition free quiet fresh
      rw [supplies]
      have starts := Pump.testAll_starts (x := x) hk
      rw [same] at starts ⊢
      exact starts on ⟨tests', condition⟩ free quiet fresh
    · intro still
      rw [supplies]
      have stops := Pump.testAll_stops (x := x) hk
      rw [same] at stops ⊢
      exact stops on still

end Sys2Proof.Machine

/-! SUPPORT AND CERTIFICATES. The way out of reset: what each step of the recovery keeps, and its end (R164, R189, R192,
R193). -/

namespace Sys2Proof.Machine

open Sys2Proof

/-! ### The steps of the recovery -/

section steps

variable {s t : State}

/-- The close of a point's delivery leaves its point CLOSED and empty, and an idle point as it was. -/
theorem State.RecoversDelivery.point {p : PointId} (h : s.RecoversDelivery t p) :
    (t.point p).context = none ∧ ((s.point p).context.isSome = true → (t.point p).state = .closed) ∧
      ((s.point p).context = none → t.point p = s.point p) := by
  cases hd : (s.point p).context with
  | none => rw [h.idle hd]; exact ⟨hd, nofun, fun _ => rfl⟩
  | some d => exact ⟨(h.closed d hd).2.1, fun _ => (h.closed d hd).1, nofun⟩

theorem State.RecoversDelivery.appends {p : PointId} (h : s.RecoversDelivery t p) :
    ∃ l, t.journal.records = s.journal.records ++ l := by
  cases hd : (s.point p).context with
  | none => rw [h.idle hd]; exact ⟨[], (List.append_nil _).symm⟩
  | some d =>
    rcases Nat.eq_zero_or_pos (cLof d.net_uL) with void | net
    · rw [(h.void d hd void).1]; exact ⟨[], (List.append_nil _).symm⟩
    · obtain ⟨r, records, -⟩ := h.record d hd net
      obtain ⟨l, newest, -⟩ := records.newest
      exact ⟨l ++ [r], by rw [newest, List.append_assoc]⟩

theorem State.RecoversEntry.appends (h : s.RecoversEntry t) : ∃ l, t.journal.records = s.journal.records ++ l := by
  cases he : s.loader.current with
  | none => rw [h.idle he]; exact ⟨[], (List.append_nil _).symm⟩
  | some e =>
    cases hx : e.context with
    | none => rw [(h.dropped e he hx).1]; exact ⟨[], (List.append_nil _).symm⟩
    | some x =>
      obtain ⟨r, _, -, records, -⟩ := h.receipt e x _ he hx rfl
      exact ⟨[r], records⟩

theorem State.RecoversEntry.current (h : s.RecoversEntry t) : t.loader.current = none := by
  cases he : s.loader.current with
  | none => rw [h.idle he]; exact he
  | some e => exact (h.ended e he).1

end steps

/-! ### What the recovery does not touch -/

section kept

variable (s : State)

theorem State.recoverDelivery_kept (p : PointId) :
    (s.recoverDelivery p).pump = s.pump ∧ (s.recoverDelivery p).stockSettle = s.stockSettle ∧
      (s.recoverDelivery p).power = s.power ∧ (s.recoverDelivery p).clock = s.clock := by
  simp only [State.recoverDelivery, State.close_frame, and_self]

theorem State.recoverEntry_kept :
    s.recoverEntry.1.pump = s.pump ∧ s.recoverEntry.1.stockSettle = s.stockSettle ∧ s.recoverEntry.1.power = s.power ∧
      s.recoverEntry.1.clock = s.clock := by
  unfold State.recoverEntry
  split
  · exact ⟨rfl, rfl, rfl, rfl⟩
  · split
    · simp only [State.closeReceipt_frame, and_self]
    · simp only [State.dropEntry_frame, and_self]

/-- Both deliveries and the entry recovered (R192, steps 1 and 2). -/
def State.workEnded : State := (s.recoverDelivery .a).recoverDelivery .b |>.recoverEntry.1

theorem State.workEnded_kept :
    s.workEnded.pump = s.pump ∧ s.workEnded.stockSettle = s.stockSettle ∧ s.workEnded.power = s.power ∧
      s.workEnded.clock = s.clock := by
  obtain ⟨p1, t1, w1, c1⟩ := s.recoverDelivery_kept .a
  obtain ⟨p2, t2, w2, c2⟩ := (s.recoverDelivery .a).recoverDelivery_kept .b
  obtain ⟨p3, t3, w3, c3⟩ := ((s.recoverDelivery .a).recoverDelivery .b).recoverEntry_kept
  exact ⟨p3.trans (p2.trans p1), t3.trans (t2.trans t1), w3.trans (w2.trans w1), c3.trans (c2.trans c1)⟩

/-- An entry with a load context is closed by a receipt and counted (R192; log entry 17). -/
theorem State.recoverEntry_counts : s.recoverEntry.2 = s.loader.current.any fun e => e.context.isSome := by
  unfold State.recoverEntry
  split
  next h => rw [h]; rfl
  next e h =>
    rw [h]
    split
    next x hx => simp [hx]
    next hx => simp [hx]

theorem State.recover_eq :
    s.recover =
      s.workEnded.closePlan.setPower
        { s.workEnded.closePlan.power with
          closedDeliveries := s.openCount
          closedEntries := bit ((s.recoverDelivery .a).recoverDelivery .b).recoverEntry.2 } := rfl

/-- The counts of R192; every other item of the supply's block stays. -/
theorem State.recover_power :
    s.recover.power =
      { s.power with
        closedDeliveries := bit (s.point .a).context.isSome + bit (s.point .b).context.isSome
        closedEntries := bit (s.loader.current.any fun e => e.context.isSome) } := by
  obtain ⟨-, -, power, -⟩ := s.workEnded_kept
  have loader : ((s.recoverDelivery .a).recoverDelivery .b).loader = s.loader := by
    simp only [State.recoverDelivery, State.close_frame]
  rw [State.recover_eq, State.setPower_power, State.recoverEntry_counts, loader]
  simp only [State.closePlan_frame, power]
  rfl

theorem State.recover_kept :
    s.recover.pump = s.pump ∧ s.recover.stockSettle = s.stockSettle ∧ s.recover.clock = s.clock := by
  obtain ⟨pump, settle, -, clock⟩ := s.workEnded_kept
  rw [State.recover_eq]
  simp only [State.setPower_pump, State.setPower_stockSettle, State.setPower_clock, State.closePlan_frame]
  exact ⟨pump, settle, clock⟩

/-- What the recovery cut at `k` leaves of the supply's block: the marks are those that leaving reset wrote. -/
theorem State.recoverTo_power (k : RecoveryPoint) :
    (s.recoverTo k).power =
      { s.power with
        closedDeliveries := (s.recoverTo k).power.closedDeliveries
        closedEntries := (s.recoverTo k).power.closedEntries } := by
  have of_eq {x : Power} (h : x = s.power) :
      x = { s.power with closedDeliveries := x.closedDeliveries, closedEntries := x.closedEntries } := by rw [h]
  obtain ⟨-, -, first, -⟩ := s.recoverDelivery_kept .a
  obtain ⟨-, -, second, -⟩ := (s.recoverDelivery .a).recoverDelivery_kept .b
  obtain ⟨-, -, third, -⟩ := s.workEnded_kept
  cases k with
  | start => rfl
  | pointA => exact of_eq first
  | pointB => exact of_eq (second.trans first)
  | entry => exact of_eq third
  | plan => rw [State.recoverTo, State.recover_power]

end kept

/-! ### Leaving reset (R105, R164, R191) -/

section leave

variable (s : State) (held : Bool)

/-- The clock on leaving reset (R164). -/
def Clock.tested (x : Clock) : Clock := if held then x else { x with now := DateTime.epoch, valid := false }

/-- The state out of reset, before CLOCK_INVALID is raised where the clock is not valid. -/
def State.awake : State :=
  { s with
    clock := s.clock.tested held, pump := s.pump.testAll
    power :=
      { s.power with
        lastReset := if s.power.pinSeen then .resetPin else if s.power.flushMark then .supplyFail else .powerOn
        flushMark := false, pinSeen := false, supplyOut := false } }

theorem State.setPower_setPump_setClock (w : Power) (x : Pump) (y : Clock) :
    ((s.setPower w).setPump x).setClock y = { s with clock := y, pump := x, power := w } := rfl

theorem State.testBackup_eq :
    s.testBackup held =
      if (s.clock.tested held).valid then s.setClock (s.clock.tested held)
      else (s.setClock (s.clock.tested held)).raise .clockInvalid := by
  cases held <;> rfl

theorem State.leaveReset_eq :
    s.leaveReset held =
      if (s.clock.tested held).valid then s.awake held else (s.awake held).raise .clockInvalid := by
  rw [State.leaveReset, State.testBackup_eq, State.setPump_clock, State.setPower_clock, State.setPower_pump,
    State.setPower_setPump_setClock, Power.kind, State.awake]

theorem State.leaveReset_kept : { s.awake held with ports := (s.leaveReset held).ports } = s.leaveReset held := by
  rw [State.leaveReset_eq]
  split <;> rfl

theorem State.leaveReset_keeps (o : PortId) (n : Notice) (h : (s.port o).has n = true) :
    ((s.leaveReset held).port o).has n = true := by
  rw [State.leaveReset_eq]
  split
  · exact h
  · exact State.raise_keeps (s.awake held) _ h

theorem State.leaveReset_invalid (h : (s.clock.tested held).valid = false) (o : PortId) :
    ((s.leaveReset held).port o).has .clockInvalid = true := by
  rw [State.leaveReset_eq, if_neg (Bool.eq_false_iff.mp h)]
  exact State.raised _ (by cases o <;> rfl)

end leave

/-! ### The end of the recovery (R189, R193) -/

section finish

variable (s : State)

theorem State.reconcile_none {c : CompId} (k : Trigger) (h : s.comp c = none) : s.reconcile k c = s := by
  rw [State.reconcile, h]

/-- A reconciliation starts and stops no settle timer (R126, R127). -/
theorem State.reconcile_settle (k : Trigger) (c d : CompId) :
    ((s.reconcile k c).comp d).map (fun x => x.settle) = (s.comp d).map fun x => x.settle := by
  cases hx : s.comp c with
  | none => rw [s.reconcile_none k hx]
  | some x =>
    have outcome := State.reconcile_reconciles k hx
    by_cases hd : d = c
    · subst hd
      rw [hx]
      cases hg : s.gauge d with
      | none => rw [(outcome.noGauge hg).1]; rfl
      | some g =>
        by_cases ht : x.tolerance < ((g.net : Int) - (s.standingBook d : Int)).natAbs
        · rw [(outcome.beyond g _ hg rfl ht).1]; rfl
        · rw [(outcome.within g _ hg rfl (Nat.le_of_not_lt ht)).1]; rfl
    · rw [outcome.others d hd]

theorem State.reconcileAll_settle (k : Trigger) (d : CompId) :
    ((s.reconcileAll k).comp d).map (fun x => x.settle) = (s.comp d).map fun x => x.settle := by
  simp only [State.reconcileAll, Num4.all, List.foldl_cons, List.foldl_nil, State.reconcile_settle]

theorem State.evaluateShift_settle (d : CompId) :
    (s.evaluateShift.comp d).map (fun x => x.settle) = (s.comp d).map fun x => x.settle := by
  unfold State.evaluateShift
  split
  · rw [State.rollover_eq, State.raise_comp, State.reconcileAll_settle]
    simp only [State.shiftPrices_frame]
    rw [State.endShift, State.setRoster_comp]
    simp only [State.closeTally_frame]
    rfl
  · rfl

/-- The state at the end of the recovery, with every settle timer started (R193). -/
def State.settled : State := s.testHighMark.startAllSettle.evaluateShift

theorem State.startBlocks_eq : s.startBlocks = s.settled.setPowerState := rfl

theorem State.setPowerState_kept :
    s.setPowerState.pump = s.pump ∧ s.setPowerState.clock = s.clock ∧ s.setPowerState.stock = s.stock := by
  unfold State.setPowerState
  split <;> exact ⟨rfl, rfl, rfl⟩

theorem State.settled_kept : s.settled.power = s.power ∧ s.settled.pump = s.pump := by
  simp only [State.settled, State.evaluateShift_frame]
  exact ⟨by simp only [State.startAllSettle, State.testHighMark_frame],
    by simp only [State.startAllSettle, State.testHighMark_frame]⟩

theorem State.settled_clock :
    s.settled.clock =
      { s.clock with shift := if s.clock.valid then shiftAt s.clock.shifts s.clock.now else s.clock.shift } := by
  have clock : s.testHighMark.startAllSettle.clock = s.clock := by
    simp only [State.startAllSettle, State.testHighMark_frame]
  rw [State.settled, State.evaluateShift_holds, clock]

theorem State.settled_settle (c : CompId) :
    (s.settled.comp c).all (fun x => x.settle == some s.stockSettle) = true := by
  have started : (s.settled.comp c).map (fun x => x.settle) = (s.comp c).map fun _ => some s.stockSettle := by
    rw [State.settled, State.evaluateShift_settle]
    have comp : s.testHighMark.startAllSettle.comp c =
        (s.comp c).map fun y => { y with settle := some s.stockSettle } := by
      simp only [State.startAllSettle, State.comp, State.testHighMark_frame, Quad.get_map]
    rw [comp, Option.map_map]
    rfl
  cases h : s.settled.comp c with
  | none => rfl
  | some x =>
    rw [h] at started
    cases hc : s.comp c with
    | none => rw [hc] at started; cases started
    | some y => rw [hc] at started; simpa using started

theorem State.startBlocks_power :
    s.startBlocks.power =
      if s.power.ignition then { s.power with state := .wakeSettle, wake := some s.power.wakeTime }
      else { s.power with state := .standby, wake := none } := by
  rw [← s.settled_kept.1, State.startBlocks_eq, State.setPowerState]
  split <;> rfl

end finish

/-! ### The whole recovery and a cut one -/

section recovery

variable {l m n t : State}

theorem State.RecoversDelivery.both (ha : l.RecoversDelivery m .a) (hb : m.RecoversDelivery n .b) (p : PointId) :
    (n.point p).context = none ∧ ((l.point p).context.isSome = true → (n.point p).state = .closed) ∧
      ((l.point p).context = none → n.point p = l.point p) := by
  cases p with
  | a =>
    have same : n.point .a = m.point .a := hb.other
    rw [same]
    exact ha.point
  | b =>
    have same : m.point .b = l.point .b := ha.other
    rw [← same]
    exact hb.point

theorem State.DropsPlan.points (h : l.DropsPlan t) : t.points = l.points := by
  rw [h.rest]

theorem State.DropsPlan.journal (h : l.DropsPlan t) : t.journal = l.journal := by
  rw [h.rest]

/-- The points after the whole recovery (R192). -/
theorem State.RecoversTo.plan_point (h : l.RecoversTo t .plan) (p : PointId) :
    (t.point p).context = none ∧ ((l.point p).context.isSome = true → (t.point p).state = .closed) ∧
      ((l.point p).context = none → t.point p = l.point p) := by
  obtain ⟨m, n, v, ha, hb, he, hd⟩ := h
  obtain ⟨-, -, points, -⟩ := he.kept
  have same : t.point p = n.point p := congrArg (Pair.get · p) (hd.points.trans points)
  rw [same]
  exact ha.both hb p

theorem State.RecoversTo.plan_loader (h : l.RecoversTo t .plan) :
    t.loader.current = none ∧ t.loader.state = .none ∧ t.loader.staged = [] := by
  obtain ⟨m, n, v, -, -, he, hd⟩ := h
  obtain ⟨state, current, staged⟩ := hd.plan
  exact ⟨current.trans he.current, state, staged⟩

theorem State.RecoversTo.plan_keeps (h : l.RecoversTo t .plan) {o : PortId} {k : Notice} (hk : k ≠ .loadStageEmpty)
    (has : (l.port o).has k = true) : (t.port o).has k = true := by
  obtain ⟨m, n, v, ha, hb, he, hd⟩ := h
  exact hd.notices o k hk (he.notices o k (hb.notices o k (ha.notices o k has)))

/-- Contexts as far as the recovery went (R192). -/
theorem State.RecoversTo.context {k : RecoveryPoint} (h : l.RecoversTo t k) (p : PointId) :
    (t.point p).context = if k = .start ∨ (k = .pointA ∧ p = .b) then (l.point p).context else none := by
  cases k with
  | start => rw [show t = l from h, if_pos (.inl rfl)]
  | pointA =>
    cases p with
    | a => exact (State.RecoversDelivery.point h).1.trans (if_neg (by decide)).symm
    | b => exact (congrArg Point.context (State.RecoversDelivery.other h)).trans (if_pos (by decide)).symm
  | pointB =>
    obtain ⟨m, ha, hb⟩ := h
    exact (ha.both hb p).1.trans (if_neg (by simp)).symm
  | entry =>
    obtain ⟨m, n, ha, hb, he⟩ := h
    obtain ⟨-, -, points, -⟩ := he.kept
    have same : t.point p = n.point p := congrArg (Pair.get · p) points
    rw [same]
    exact (ha.both hb p).1.trans (if_neg (by simp)).symm
  | plan => exact (State.RecoversTo.plan_point h p).1.trans (if_neg (by simp)).symm

theorem State.RecoversTo.appends {k : RecoveryPoint} (h : l.RecoversTo t k) :
    ∃ r, t.journal.records = l.journal.records ++ r := by
  have chain {u v w : State} (h : ∃ r, v.journal.records = u.journal.records ++ r)
      (k : ∃ r, w.journal.records = v.journal.records ++ r) : ∃ r, w.journal.records = u.journal.records ++ r := by
    obtain ⟨r, hr⟩ := h
    obtain ⟨q, hq⟩ := k
    exact ⟨r ++ q, by rw [hq, hr, List.append_assoc]⟩
  cases k with
  | start => rw [show t = l from h]; exact ⟨[], (List.append_nil _).symm⟩
  | pointA => exact State.RecoversDelivery.appends h
  | pointB =>
    obtain ⟨m, ha, hb⟩ := h
    exact chain ha.appends hb.appends
  | entry =>
    obtain ⟨m, n, ha, hb, he⟩ := h
    exact chain (chain ha.appends hb.appends) he.appends
  | plan =>
    obtain ⟨m, n, v, ha, hb, he, hd⟩ := h
    rw [hd.journal]
    exact chain (chain ha.appends hb.appends) he.appends

theorem State.RecoversTo.current {k : RecoveryPoint} (h : l.RecoversTo t k) :
    t.loader.current = if k = .entry ∨ k = .plan then none else l.loader.current := by
  cases k with
  | start => rw [show t = l from h, if_neg (by decide)]
  | pointA => rw [(State.RecoversDelivery.kept h).1, if_neg (by decide)]
  | pointB =>
    obtain ⟨m, ha, hb⟩ := h
    rw [hb.kept.1, ha.kept.1, if_neg (by decide)]
  | entry =>
    obtain ⟨m, n, -, -, he⟩ := h
    rw [he.current, if_pos (by decide)]
  | plan => rw [(State.RecoversTo.plan_loader h).1, if_pos (by decide)]

/-- The recovery of the entry leaves the plan's state and its staged entries (R192). -/
theorem State.recoverEntry_plan (s : State) :
    s.recoverEntry.1.loader.state = s.loader.state ∧ s.recoverEntry.1.loader.staged = s.loader.staged := by
  unfold State.recoverEntry
  split
  · exact ⟨rfl, rfl⟩
  · split
    · simp only [State.closeReceipt, State.raise_loader, State.endEntry, State.setLoader_loader,
        State.receiveStock_frame, State.storeReserved_frame, State.unbindChannel_frame, and_self]
    · simp only [State.dropEntry, State.endEntry, State.setLoader_loader, State.modComp_loader,
        State.returnSlot_frame, and_self]

theorem State.recoverTo_plan (s : State) (k : RecoveryPoint) :
    (s.recoverTo k).loader.state = (if k = .plan then .none else s.loader.state) ∧
      (s.recoverTo k).loader.staged = if k = .plan then [] else s.loader.staged := by
  have delivery (u : State) (p : PointId) : (u.recoverDelivery p).loader = u.loader := (u.recoverDelivery_recovers p).kept.1
  cases k with
  | start => exact ⟨rfl, rfl⟩
  | pointA => rw [State.recoverTo, delivery]; exact ⟨rfl, rfl⟩
  | pointB => rw [State.recoverTo, delivery, delivery]; exact ⟨rfl, rfl⟩
  | entry =>
    obtain ⟨state, staged⟩ := ((s.recoverDelivery .a).recoverDelivery .b).recoverEntry_plan
    rw [State.recoverTo, state, staged, delivery, delivery]
    exact ⟨rfl, rfl⟩
  | plan =>
    obtain ⟨-, state, staged⟩ := (s.recoverTo_recovers .plan).plan_loader
    exact ⟨state, staged⟩

end recovery

/-! ### What no open work leaves (R57, R114, R154) -/

section empty

variable {t : State}

theorem State.figure_none {p : PointId} (h : (t.point p).context = none) (test : Delivery → Bool) (f : Delivery → Nat) :
    t.figure p test f = 0 := by
  rw [State.figure, h]

theorem State.openSum_none (h : ∀ p, (t.point p).context = none) (test : Delivery → Bool) (f : Delivery → Nat) :
    t.openSum test f = 0 := by
  rw [State.openSum, State.figure_none (h .a), State.figure_none (h .b)]

theorem State.BooksAgree.unreserved (h : t.BooksAgree) (k : ∀ p, (t.point p).context = none) :
    (∀ m ∈ t.roster, m.reserved = 0) ∧ (∀ a ∈ t.accounts, a.reserved = 0) ∧
      ∀ c x, t.comp c = some x → x.reserved = 0 :=
  ⟨fun m hm => (h.reserved.machines m hm).trans (State.openSum_none k _ _),
    fun a ha => (h.reserved.accounts a ha).trans (State.openSum_none k _ _),
    fun c x hx => (h.reserved.comps c x hx).trans (State.openSum_none k _ _)⟩

theorem State.SlotsAgree.unreserved (h : t.SlotsAgree) (k : ∀ p, (t.point p).context = none)
    (m : t.loader.current = none) : t.journal.reserved = 0 := by
  obtain ⟨-, held, -⟩ := h
  have a : t.points.a.context = none := k .a
  have b : t.points.b.context = none := k .b
  rw [held, State.holders, a, b, m]
  rfl

theorem State.LoadsAgree.idle (h : t.LoadsAgree) (m : t.loader.current = none) (c : CompId) (x : Compartment)
    (hx : t.comp c = some x) : x.state ≠ .loading ∧ x.draining = false := by
  obtain ⟨-, -, marks⟩ := h
  obtain ⟨loads, drains⟩ := marks c x hx
  refine ⟨fun k => ?_, Bool.eq_false_iff.mpr fun k => ?_⟩
  · obtain ⟨e, he, -⟩ := loads k
    rw [m] at he
    cases he
  · obtain ⟨e, he, -⟩ := drains k
    rw [m] at he
    cases he

end empty

/-! ### The two ways out (R191 to R193) -/

section exits

variable (s : State) (held : Bool)

/-- Reset left without a cut. -/
def State.woken : State := (s.leaveReset held).recover.startBlocks

theorem State.woken_exec (h : s.inReset = true) :
    exec (.resetExit { backupHeld := held, cut := none }) s = .next (s.woken held) :=
  congrArg Host.Outcome.next (if_pos h)

theorem State.cut_exec (h : s.inReset = true) (k : RecoveryPoint) :
    exec (.resetExit { backupHeld := held, cut := some k }) s = .next ((s.leaveReset held).recoverTo k).enterReset :=
  congrArg Host.Outcome.next (if_pos h)

/-- The supply's block of the state out of reset (R191). -/
theorem State.leaveReset_power : (s.leaveReset held).power = (s.awake held).power := by
  rw [← s.leaveReset_kept held]

theorem State.leaveReset_from :
    s.leaveReset held =
      { s with
        clock := if held then s.clock else { s.clock with now := DateTime.epoch, valid := false }
        ports := (s.leaveReset held).ports, pump := (s.leaveReset held).pump, power := (s.leaveReset held).power } := by
  rw [← s.leaveReset_kept held]
  rfl

theorem State.woken_power :
    (s.woken held).power =
      { (s.awake held).power with
        closedDeliveries := bit (s.point .a).context.isSome + bit (s.point .b).context.isSome
        closedEntries := bit (s.loader.current.any fun e => e.context.isSome)
        state := if s.power.ignition then .wakeSettle else .standby
        wake := if s.power.ignition then some s.power.wakeTime else none } := by
  have ignition : (s.leaveReset held).recover.power.ignition = s.power.ignition := by
    rw [State.recover_power, State.leaveReset_power]; rfl
  have wakeTime : (s.leaveReset held).recover.power.wakeTime = s.power.wakeTime := by
    rw [State.recover_power, State.leaveReset_power]; rfl
  rw [State.woken, State.startBlocks_power, ignition, wakeTime, State.recover_power, State.leaveReset_power,
    ← s.leaveReset_kept held]
  cases s.power.ignition <;> rfl

theorem State.woken_pump : (s.woken held).pump = s.pump.testAll := by
  have pump : (s.woken held).pump = (s.leaveReset held).recover.settled.pump :=
    (State.setPowerState_kept _).1
  rw [pump, (State.settled_kept _).2, (State.recover_kept _).1, ← s.leaveReset_kept held]
  rfl

theorem State.woken_clock :
    (s.woken held).clock =
      { s.clock.tested held with
        shift :=
          if (s.clock.tested held).valid then shiftAt (s.clock.tested held).shifts (s.clock.tested held).now
          else (s.clock.tested held).shift } := by
  have clock : (s.woken held).clock = (s.leaveReset held).recover.settled.clock :=
    (State.setPowerState_kept _).2.1
  have tested : (s.leaveReset held).clock = s.clock.tested held := by
    rw [← s.leaveReset_kept held]
    rfl
  rw [clock, State.settled_clock, (State.recover_kept _).2.2, tested]

theorem State.woken_settle (c : CompId) :
    ((s.woken held).comp c).all (fun x => x.settle == some s.stockSettle) = true := by
  have stock : (s.woken held).comp c = (s.leaveReset held).recover.settled.comp c :=
    congrArg (Quad.get · c) (State.setPowerState_kept _).2.2
  have time : (s.leaveReset held).recover.stockSettle = s.stockSettle := by
    rw [(State.recover_kept _).2.1, ← s.leaveReset_kept held]
    rfl
  rw [stock, ← time]
  exact State.settled_settle _ c

end exits

/-- Settles O60: the recovery's steps are closes, each a retained update, and the end of the recovery follows them or the
next reset does. -/
theorem leavingResetRecovers : Obligations.LeavingResetRecovers := by
  intro s held
  refine ⟨fun cut h => congrArg Host.Outcome.next (if_neg (Bool.eq_false_iff.mp h)), fun h => ?_, fun h k => ?_⟩
  · have act := s.woken_exec held h
    have recovers := (s.leaveReset held).recoverTo_recovers .plan
    have starts := State.startBlocks_starts (s.leaveReset held).recover
    obtain ⟨accounts, points, loader, reserved⟩ := starts.kept
    have point (p : PointId) : (s.woken held).point p = ((s.leaveReset held).recover).point p :=
      congrArg (Pair.get · p) points
    have before (p : PointId) : (s.leaveReset held).point p = s.point p := by
      rw [← s.leaveReset_kept held]
      rfl
    have idle (p : PointId) : ((s.woken held).point p).context = none := by
      rw [point]
      exact (recovers.plan_point p).1
    obtain ⟨current, state, staged⟩ := recovers.plan_loader
    have none : (s.woken held).loader.current = none := (congrArg Loader.current loader).trans current
    have power := s.woken_power held
    have pump := s.woken_pump held
    have clock := s.woken_clock held
    have keeps {P : Gist → Prop} (step : ∀ g h, Gist.Act g h → P g → P h) (hs : P s.gist) : P (s.woken held).gist :=
      (exec_turns act).goes.path.keeps step hs
    refine ⟨s.woken held, act, ?_, by rw [power]; rfl, by rw [power]; rfl, by rw [power]; rfl, by rw [power]; rfl, idle,
      fun p hp => ?_, fun p hp => ?_, by rw [power], by rw [power], none, (congrArg Loader.state loader).trans state,
      (congrArg Loader.staged loader).trans staged, s.woken_settle held, by rw [pump, Pump.testAll_state],
      by rw [pump, Pump.testAll_drive], fun j hj on stands free quiet fresh => ?_, fun lost => ?_, fun kept => ?_,
      fun invalid o => ?_, fun on => ?_, fun off => ?_,
      ⟨_, _, s.leaveReset_from held, s.leaveReset_keeps held, recovers, starts⟩, fun books => ?_, fun slots => ?_,
      fun loads => ?_⟩
    · rw [State.inReset, power]
      cases s.power.ignition <;> rfl
    · rw [point]
      exact (recovers.plan_point p).2.1 (by rw [before]; exact hp)
    · rw [point]
      exact ((recovers.plan_point p).2.2 (by rw [before]; exact hp)).trans (before p)
    · rw [pump]
      have tested : sensedKind j := hj.elim (fun k => .inr (.inr (.inl k))) fun k => .inr (.inr (.inr k))
      have tests : s.pump.state.tests j = true := by rcases hj with rfl | rfl <;> rfl
      exact Pump.testAll_starts tested on ⟨tests, stands⟩ free quiet fun k => by simp [fresh] at k
    · subst lost
      rw [clock]
      exact ⟨rfl, rfl, rfl⟩
    · subst kept
      rw [clock]
      exact ⟨rfl, rfl⟩
    · rw [clock] at invalid
      exact starts.notices o _ (recovers.plan_keeps (by decide) (s.leaveReset_invalid held invalid o))
    · rw [power, on]
      exact ⟨rfl, rfl⟩
    · rw [power, off]
      rfl
    · rw [State.booksAgree_gist] at books
      exact ((State.booksAgree_gist _).mpr (keeps (fun _ _ => Gist.Act.booksAgree) books)).unreserved idle
    · rw [State.slotsAgree_gist] at slots
      exact ((State.slotsAgree_gist _).mpr (keeps (fun _ _ => Gist.Act.slotsAgree) slots)).unreserved idle none
    · rw [State.loadsAgree_gist] at loads
      exact ((State.loadsAgree_gist _).mpr (keeps (fun _ _ => Gist.Act.loadsAgree) loads)).idle none
  · have recovers := (s.leaveReset held).recoverTo_recovers k
    have resets : ((s.leaveReset held).recoverTo k).Resets ((s.leaveReset held).recoverTo k).enterReset :=
      ((s.leaveReset held).recoverTo k).enterReset_resets _ _ _
    have power := (s.leaveReset held).recoverTo_power k
    rw [s.leaveReset_power held] at power
    obtain ⟨state, staged⟩ := (s.leaveReset held).recoverTo_plan k
    have before : (s.leaveReset held).points = s.points ∧ (s.leaveReset held).loader = s.loader ∧
        (s.leaveReset held).journal = s.journal := by
      rw [← s.leaveReset_kept held]
      exact ⟨rfl, rfl, rfl⟩
    obtain ⟨points, loader, journal⟩ := before
    refine ⟨_, s.cut_exec held h k, rfl, ?_, ?_, ?_, ?_, fun p => ?_, fun p => ?_, ?_, ?_, ?_, ?_, fun o => ?_,
      _, _, s.leaveReset_from held, recovers, resets⟩
    · exact congrArg Power.lastReset power
    · exact congrArg Power.flushMark power
    · exact congrArg Power.pinSeen power
    · exact congrArg Power.supplyOut power
    · rw [resets.points p]
    · have context : (s.leaveReset held).point p = s.point p := congrArg (Pair.get · p) points
      rw [resets.points p, ← context]
      exact recovers.context p
    · rw [← loader]
      exact recovers.current
    · rw [← loader]
      exact state
    · rw [← loader]
      exact staged
    · rw [← journal]
      exact recovers.appends
    · rw [resets.ports o]

end Sys2Proof.Machine

/-! SUPPORT AND CERTIFICATES. The reads: what each answers by its key and the place of what it names, and that none of them
changes the state (R26, R48, R114, R160, R163, R187). -/

namespace Sys2Proof.Machine

open Sys2Proof

theorem inRange_not {lo hi n : Nat} (h : ¬ (lo ≤ n ∧ n ≤ hi)) : inRange lo hi n = false := by
  rw [← Bool.not_eq_true, inRange_iff]
  exact h

theorem nextMachine_none {l : List MachineRec} {n : Nat} : nextMachine l n = none ↔ ∀ m ∈ l, m.number ≤ n := by
  simp [nextMachine]

theorem findTag_none {l : List MachineRec} {t : TagId} : findTag l t = none ↔ ∀ m ∈ l, m.tagId ≠ some t := by
  simp [findTag]

section bodies

variable {s : State}

theorem bodyGetStatus_known {k : Nat} {l : List Field} (h : s.sectionFlds k = some l) :
    bodyGetStatus k s = (s, Reply.okWith l) := by
  rw [bodyGetStatus, h]

theorem bodyGetStatus_unknown {k : Nat} (h : s.sectionFlds k = none) : bodyGetStatus k s = s.badParam := by
  rw [bodyGetStatus, h]

/-- The sections of the table are those below 10 (R187). -/
theorem State.sectionFlds_below {k : Nat} (h : k < 10) : (s.sectionFlds k).isSome = true := by
  match k, h with
  | 0, _ | 1, _ | 2, _ | 3, _ | 4, _ | 5, _ | 6, _ | 7, _ | 8, _ | 9, _ => rfl

theorem State.sectionFlds_above {k : Nat} (h : 10 ≤ k) : s.sectionFlds k = none := by
  obtain ⟨n, rfl⟩ := Nat.exists_eq_add_of_le' h
  rfl

theorem bodyGetMachine_known {key : Nat} {v : BitVec 64} {m : MachineRec} (h : s.machineByKey key v = some (some m)) :
    bodyGetMachine key v s = (s, Reply.okWith (s.machineFlds m)) := by
  rw [bodyGetMachine, h]

theorem bodyGetMachine_missing {key : Nat} {v : BitVec 64} (h : s.machineByKey key v = some none) :
    bodyGetMachine key v s = s.deny .notFound := by
  rw [bodyGetMachine, h]

theorem bodyGetMachine_bad {key : Nat} {v : BitVec 64} (h : s.machineByKey key v = none) :
    bodyGetMachine key v s = s.badParam := by
  rw [bodyGetMachine, h]

/-- What each key of GET_MACHINE names (R26); a number is the value's first 4 bytes (10.8). -/
theorem State.machineByKey_number {v : BitVec 64} {n : Nat} (hn : n = v.toNat % 4294967296) (h : 1 ≤ n ∧ n ≤ 999999) :
    s.machineByKey 0 v = some (findMachine s.roster n) := by
  subst hn
  exact if_pos (inRange_of h.1 h.2)

theorem State.machineByKey_next {v : BitVec 64} {n : Nat} (hn : n = v.toNat % 4294967296) (h : n ≤ 999999) :
    s.machineByKey 1 v = some (nextMachine s.roster n) := by
  subst hn
  exact if_pos (inRange_of (Nat.zero_le _) h)

theorem State.machineByKey_tag {v : BitVec 64} : s.machineByKey 2 v = some (findTag s.roster v) := rfl

theorem State.machineByKey_number_out {v : BitVec 64} {n : Nat} (hn : n = v.toNat % 4294967296)
    (h : ¬ (1 ≤ n ∧ n ≤ 999999)) : s.machineByKey 0 v = none := by
  subst hn
  exact if_neg (Bool.eq_false_iff.mp (inRange_not h))

theorem State.machineByKey_next_out {v : BitVec 64} {n : Nat} (hn : n = v.toNat % 4294967296) (h : 999999 < n) :
    s.machineByKey 1 v = none := by
  subst hn
  exact if_neg (Bool.eq_false_iff.mp (inRange_not fun k => by omega))

theorem State.machineByKey_unknown {key : Nat} {v : BitVec 64} (h : 2 < key) : s.machineByKey key v = none := by
  obtain ⟨n, rfl⟩ := Nat.exists_eq_add_of_le' h
  rfl

theorem bodyGetAccount_known {n : Nat} {a : Account} (hn : 1 ≤ n ∧ n ≤ 64) (h : findAccount s.accounts n = some a) :
    bodyGetAccount n s = (s, Reply.okWith (s.accountFlds a)) := by
  rw [bodyGetAccount, if_pos (inRange_of hn.1 hn.2), h]

theorem bodyGetAccount_missing {n : Nat} (hn : 1 ≤ n ∧ n ≤ 64) (h : findAccount s.accounts n = none) :
    bodyGetAccount n s = s.deny .notFound := by
  rw [bodyGetAccount, if_pos (inRange_of hn.1 hn.2), h]

theorem bodyGetAccount_bad {n : Nat} (hn : ¬ (1 ≤ n ∧ n ≤ 64)) : bodyGetAccount n s = s.badParam :=
  if_neg (Bool.eq_false_iff.mp (inRange_not hn))

theorem bodyGetStock_known {n : Nat} {c : CompId} {x : Compartment} (hn : num4Of n = some c) (h : s.comp c = some x) :
    bodyGetStock n s = (s, Reply.okWith (s.compFlds c x)) := by
  simp only [bodyGetStock, hn, h]

theorem bodyGetStock_missing {n : Nat} {c : CompId} (hn : num4Of n = some c) (h : s.comp c = none) :
    bodyGetStock n s = s.deny .notFound := by
  simp only [bodyGetStock, hn, h]

theorem num4Of_out {n : Nat} (h : ¬ (1 ≤ n ∧ n ≤ 4)) : num4Of n = none := by
  match n, h with
  | 0, _ => rfl
  | n + 5, _ => rfl

theorem bodyGetStock_bad {n : Nat} (hn : ¬ (1 ≤ n ∧ n ≤ 4)) : bodyGetStock n s = s.badParam := by
  rw [bodyGetStock, num4Of_out hn]

theorem bodyReadJournal_stored {q : SeqNo} {n : Nat} (hn : 1 ≤ n ∧ n ≤ 8)
    (h : (q - s.journal.oldest).toNat < s.journal.occupied) :
    bodyReadJournal q n s = (s, Reply.okWith (s.journal.readFlds (q - s.journal.oldest).toNat n)) := by
  rw [bodyReadJournal, if_pos (inRange_of hn.1 hn.2), (Journal.place_cases _ q).1 h]

theorem bodyReadJournal_missing {q : SeqNo} {n : Nat} (hn : 1 ≤ n ∧ n ≤ 8)
    (h : s.journal.occupied ≤ (q - s.journal.oldest).toNat) : bodyReadJournal q n s = s.deny .notFound := by
  obtain ⟨behind, ahead⟩ := (Journal.place_cases s.journal q).2 h
  rw [bodyReadJournal, if_pos (inRange_of hn.1 hn.2)]
  by_cases far : 2147483648 ≤ (q - s.journal.oldest).toNat
  · rw [behind far]
  · rw [ahead (Nat.lt_of_not_le far)]

theorem bodyReadJournal_bad {q : SeqNo} {n : Nat} (hn : ¬ (1 ≤ n ∧ n ≤ 8)) : bodyReadJournal q n s = s.badParam :=
  if_neg (Bool.eq_false_iff.mp (inRange_not hn))

end bodies

/-- Settles O19: each read by the case its key and the place of what it names stand in. -/
theorem readsAnswerAndChangeNothing : Obligations.ReadsAnswerAndChangeNothing := by
  rintro r s u ht rfl
  refine ⟨fun k l hk => ?status, fun k => ⟨State.sectionFlds_below, fun hk => ?unknown⟩, fun v n hn => ?machine,
    fun n h1 h2 => ⟨fun a ha => ?account, fun ha => ?noAccount⟩, fun n h => ?badAccount,
    fun n c hc => ⟨fun x hx => ?stock, fun hx => ?noStock⟩, fun n h => ?badStock,
    fun q n h1 h2 => ⟨fun h => ?journal, fun h => ?noJournal⟩, fun q n h => ?badJournal, ?time⟩
  case status => exact Answers.of_body (fun _ => rfl) ht (bodyGetStatus_known hk)
  case unknown => exact Answers.of_body (fun _ => rfl) ht (bodyGetStatus_unknown (State.sectionFlds_above hk))
  case machine =>
    have known {key m} (h : (s.frameReceived r.port).machineByKey key v = some (some m)) :=
      Answers.of_body (i := .getMachine r key v) (fun _ => rfl) ht (bodyGetMachine_known h)
    have missing {key} (h : (s.frameReceived r.port).machineByKey key v = some none) :=
      Answers.of_body (i := .getMachine r key v) (fun _ => rfl) ht (bodyGetMachine_missing h)
    have bad {key} (h : (s.frameReceived r.port).machineByKey key v = none) :=
      Answers.of_body (i := .getMachine r key v) (fun _ => rfl) ht (bodyGetMachine_bad h)
    have numbers (h : (s.frameReceived r.port).RosterOrdered) := h.1.imp fun k => k.1
    refine ⟨fun h1 h2 => ⟨fun m hm => known ?_, fun hm => missing ?_⟩, fun h => bad (State.machineByKey_number_out hn h),
      fun h => ⟨fun m ho hm hlt least => known ?_, fun hm => missing ?_⟩,
      fun h => bad (State.machineByKey_next_out hn h), fun m ho hm tag => known ?_, fun hm => missing ?_,
      fun key h => bad (State.machineByKey_unknown h)⟩
    · rw [State.machineByKey_number hn ⟨h1, h2⟩, hm]
    · rw [State.machineByKey_number hn ⟨h1, h2⟩, hm]
    · rw [State.machineByKey_next hn h, nextMachine_eq (numbers ho) hm hlt least]
    · rw [State.machineByKey_next hn h, nextMachine_none.mpr hm]
    · rw [State.machineByKey_tag, findTag_eq ho.1 hm tag]
    · rw [State.machineByKey_tag, findTag_none.mpr hm]
  case account => exact Answers.of_body (fun _ => rfl) ht (bodyGetAccount_known ⟨h1, h2⟩ ha)
  case noAccount => exact Answers.of_body (fun _ => rfl) ht (bodyGetAccount_missing ⟨h1, h2⟩ ha)
  case badAccount => exact Answers.of_body (fun _ => rfl) ht (bodyGetAccount_bad h)
  case stock => exact Answers.of_body (fun _ => rfl) ht (bodyGetStock_known hc hx)
  case noStock => exact Answers.of_body (fun _ => rfl) ht (bodyGetStock_missing hc hx)
  case badStock => exact Answers.of_body (fun _ => rfl) ht (bodyGetStock_bad h)
  case journal => exact Answers.of_body (fun _ => rfl) ht (bodyReadJournal_stored ⟨h1, h2⟩ h)
  case noJournal => exact Answers.of_body (fun _ => rfl) ht (bodyReadJournal_missing ⟨h1, h2⟩ h)
  case badJournal => exact Answers.of_body (fun _ => rfl) ht (bodyReadJournal_bad h)
  case time => exact Answers.of_body (fun _ => rfl) ht rfl

end Sys2Proof.Machine

/-! SUPPORT AND CERTIFICATES. The delivery limit as the least of its terms (R55), and a metering window that loses nothing
(R5, R8, R11, R13). -/

namespace Sys2Proof.Machine

open Sys2Proof

/-! ### The least term (R55) -/

section limit

/-- The least term is one of the terms, no term is below it, and of equal terms it is the first. -/
theorem leastTerm_least (first : Nat × LimitSource) (l : List (Nat × LimitSource))
    (order : (first :: l).Pairwise fun x y => x.2.code < y.2.code) :
    leastTerm first l ∈ first :: l ∧
      ∀ x ∈ first :: l,
        (leastTerm first l).1 ≤ x.1 ∧ (x.1 = (leastTerm first l).1 → (leastTerm first l).2.code ≤ x.2.code) := by
  induction l generalizing first with
  | nil => simp [leastTerm]
  | cons t l ih =>
    obtain ⟨head, rest⟩ := List.pairwise_cons.mp order
    have step : leastTerm first (t :: l) = leastTerm (if t.1 < first.1 then t else first) l := rfl
    rw [step]
    by_cases below : t.1 < first.1
    · rw [if_pos below]
      obtain ⟨mem, least⟩ := ih t rest
      have low := (least t (List.mem_cons_self ..)).1
      refine ⟨List.mem_cons_of_mem _ mem, fun x hx => ?_⟩
      rcases List.mem_cons.mp hx with rfl | hx
      · exact ⟨by omega, fun k => by omega⟩
      · exact least x hx
    · rw [if_neg below]
      have skip : (first :: l).Pairwise fun x y => x.2.code < y.2.code :=
        List.pairwise_cons.mpr ⟨fun y hy => head y (List.mem_cons_of_mem _ hy), (List.pairwise_cons.mp rest).2⟩
      obtain ⟨mem, least⟩ := ih first skip
      obtain ⟨low, least_code⟩ := least first (List.mem_cons_self ..)
      refine ⟨?_, fun x hx => ?_⟩
      · rcases List.mem_cons.mp mem with k | k
        · rw [k]
          exact List.mem_cons_self ..
        · exact List.mem_cons_of_mem _ (List.mem_cons_of_mem _ k)
      · rcases List.mem_cons.mp hx with rfl | hx
        · exact least _ (List.mem_cons_self ..)
        · rcases List.mem_cons.mp hx with rfl | hx
          · have later := head x (List.mem_cons_self ..)
            exact ⟨by omega, fun k => by have := least_code (by omega); omega⟩
          · exact least x (List.mem_cons_of_mem _ hx)

theorem limitOf_least {l : List (Nat × LimitSource)} (order : l.Pairwise fun x y => x.2.code < y.2.code)
    (ne : l ≠ []) : limitOf l ∈ l ∧
      ∀ x ∈ l, (limitOf l).1 ≤ x.1 ∧ (x.1 = (limitOf l).1 → (limitOf l).2.code ≤ x.2.code) := by
  cases l with
  | nil => exact absurd rfl ne
  | cons t l => exact leastTerm_least t l order

/-- The sources in the order of the table of R55. -/
def LimitSource.inOrder : List LimitSource :=
  [.preset, .tank, .shiftAllowance, .dayAllowance, .credit, .stock, .manualCap]

theorem LimitSource.mem_inOrder (k : LimitSource) : k ∈ LimitSource.inOrder := by
  cases k <;> decide

/-- The terms that apply, in the order of the table of R55. -/
def termsOf (term : LimitSource → Option Nat) : List (Nat × LimitSource) :=
  LimitSource.inOrder.filterMap fun k => (term k).map fun v => (v, k)

theorem mem_termsOf {term : LimitSource → Option Nat} {v : Nat} {k : LimitSource} :
    (v, k) ∈ termsOf term ↔ term k = some v := by
  simp only [termsOf, List.mem_filterMap, Option.map_eq_some_iff, Prod.mk.injEq]
  constructor
  · rintro ⟨j, -, x, hx, rfl, rfl⟩
    exact hx
  · exact fun h => ⟨k, k.mem_inOrder, v, h, rfl, rfl⟩

theorem termsOf_ordered (term : LimitSource → Option Nat) :
    (termsOf term).Pairwise fun x y => x.2.code < y.2.code := by
  have order : LimitSource.inOrder.Pairwise fun j k => j.code < k.code := by decide
  refine List.Pairwise.filterMap _ (fun j k before x hx y hy => ?_) order
  obtain ⟨v, -, rfl⟩ := Option.map_eq_some_iff.mp hx
  obtain ⟨w, -, rfl⟩ := Option.map_eq_some_iff.mp hy
  exact before

theorem termsOf_eq (term : LimitSource → Option Nat) :
    termsOf term =
      ((term .preset).map fun v => (v, LimitSource.preset)).toList ++
      ((term .tank).map fun v => (v, LimitSource.tank)).toList ++
      ((term .shiftAllowance).map fun v => (v, LimitSource.shiftAllowance)).toList ++
      ((term .dayAllowance).map fun v => (v, LimitSource.dayAllowance)).toList ++
      ((term .credit).map fun v => (v, LimitSource.credit)).toList ++
      ((term .stock).map fun v => (v, LimitSource.stock)).toList ++
      ((term .manualCap).map fun v => (v, LimitSource.manualCap)).toList := by
  have one (k : LimitSource) (l : List LimitSource) (f : LimitSource → Option (Nat × LimitSource)) :
      (k :: l).filterMap f = (f k).toList ++ l.filterMap f := by
    rw [List.filterMap_cons]
    cases f k <;> rfl
  simp only [termsOf, LimitSource.inOrder, one, List.filterMap_nil, List.append_nil, List.append_assoc]

/-- Settles O43: the terms stand in the order of the table, so the least of them is the first of equals there. -/
theorem limitIsTheLeastTerm : Obligations.LimitIsTheLeastTerm := by
  intro preset r a price available cap term hp ht hs hd hc hk hm limit source h
  have terms : limitTerms preset r a price available cap = termsOf term := by
    rw [termsOf_eq, hp, ht, hs, hd, hc, hk, hm]
    unfold limitTerms
    refine congrArg₂ (· ++ ·) (congrArg₂ (· ++ ·) (congrArg₂ (· ++ ·) (congrArg₂ (· ++ ·) (congrArg₂ (· ++ ·)
      (congrArg₂ (· ++ ·) ?preset ?tank) ?shift) ?day) ?credit) rfl) ?cap
    case preset => rcases preset with _ | ⟨_ | _⟩ <;> rfl
    case tank => cases r.level <;> simp [tankTerm]
    case shift =>
      split
      · rfl
      · simp only [Option.map_some, Option.toList_some, List.cons.injEq, Prod.mk.injEq, and_true]
        omega
    case day =>
      split
      · rfl
      · simp only [Option.map_some, Option.toList_some, List.cons.injEq, Prod.mk.injEq, and_true]
        omega
    case credit =>
      split
      · rfl
      · have left : a.credit - a.spent - a.reserved =
            ((a.credit : Int) - (a.spent : Int) - (a.reserved : Int)).toNat := by omega
        rw [left]
        rfl
    case cap => split <;> rfl
  have ne : termsOf term ≠ [] := List.ne_nil_of_mem (mem_termsOf.mpr hk)
  obtain ⟨mem, least⟩ := limitOf_least (termsOf_ordered term) ne
  rw [terms] at h
  rw [h] at mem least
  exact ⟨mem_termsOf.mp mem, fun other v hv => least (v, other) (mem_termsOf.mpr hv)⟩

end limit

/-! ### A window loses nothing (R5, R8, R11, R13) -/

section window

theorem Channel.count_forward {x : Channel} (h : x.forward < 65535) :
    x.count .forward = { x with forward := x.forward + 1 } := by
  have bound : addCapped Config.countMax x.forward 1 = x.forward + 1 := Nat.min_eq_right h
  rw [Channel.count, bound]

theorem Channel.count_reverse {x : Channel} (h : x.reverse < 65535) :
    x.count .reverse = { x with reverse := x.reverse + 1 } := by
  have bound : addCapped Config.countMax x.reverse 1 = x.reverse + 1 := Nat.min_eq_right h
  rw [Channel.count, bound]

/-- The usable count and the debt, short of the debt's bound (R5). -/
theorem settleDebt_exact (f r d : Nat) (h : d + r ≤ 4294967295) :
    ((settleDebt f r d).1 : Int) - ((settleDebt f r d).2 : Int) = (f : Int) - (r : Int) - (d : Int) := by
  have top : Config.max32 = 4294967295 := rfl
  unfold settleDebt
  split
  next le => rw [top]; simp only; omega
  next lt => simp only; omega

/-- A totaliser with its carry grows by the window's increment, modulo its wrap (R13). -/
theorem totaliser_exact (total carry n : Nat) :
    ((total + (carry + n) / 10000) % Config.totaliserWrap * 10000 + (carry + n) % 10000) % 100000000000000 =
      (total * 10000 + carry + n) % 100000000000000 := by
  have wrap : Config.totaliserWrap = 10000000000 := rfl
  rw [wrap]
  omega

/-- Settles O36: the divisions of each stage with their remainders. -/
theorem windowsLoseNothing : Obligations.WindowsLoseNothing := by
  refine ⟨fun c s awake => ⟨fun h => ?_, fun h => ?_⟩, fun x probe hk => ?_⟩
  · rw [← Channel.count_forward h]
    exact congrArg Host.Outcome.next (if_neg (Bool.eq_false_iff.mp awake))
  · rw [← Channel.count_reverse h]
    exact congrArg Host.Outcome.next (if_neg (Bool.eq_false_iff.mp awake))
  · exact ⟨Nat.div_add_mod' _ x.k, Nat.mod_lt _ hk, Nat.div_add_mod' _ 1000000, Nat.mod_lt _ (by decide),
      totaliser_exact .., totaliser_exact .., Nat.mod_lt _ (by decide), Nat.mod_lt _ (by decide),
      settleDebt_exact x.forward x.reverse x.debt⟩

end window

end Sys2Proof.Machine

/-! SUPPORT AND CERTIFICATES. The rounding of the volume correction factor (R10) and of the meter factor between the points of
its table (R7). -/

namespace Sys2Proof.Machine

open Sys2Proof

/-! ### The volume correction factor (R10) -/

section correction

/-- The rounding is to the nearest tenth part, a tie away from zero. -/
theorem roundAway_ten (n : Int) :
    |20 * roundAway n 10 - 2 * n| ≤ 10 ∧ (20 * roundAway n 10 - 2 * n = 10 → 0 < roundAway n 10) ∧
      (20 * roundAway n 10 - 2 * n = -10 → roundAway n 10 < 0) := by
  rw [abs_le]
  unfold roundAway
  by_cases h : n < 0
  · simp only [if_pos h]
    omega
  · simp only [if_neg h]
    omega

theorem roundAway_bounds {n : Int} (lo : -1100000 ≤ n) (hi : n ≤ 1100000) :
    -110000 ≤ roundAway n 10 ∧ roundAway n 10 ≤ 110000 := by
  obtain ⟨near, -, -⟩ := roundAway_ten n
  rw [abs_le] at near
  omega

theorem roundAway_nonneg {n : Int} (h : 0 ≤ n) : 0 ≤ roundAway n 10 := by
  rw [roundAway, if_neg (by omega)]
  omega

theorem roundAway_nonpos {n : Int} (h : n ≤ 0) : roundAway n 10 ≤ 0 := by
  unfold roundAway
  split
  · simp only
    omega
  · have zero : n = 0 := by omega
    simp [zero]

/-- Where α and T10 are in range, the factor is 1,000,000 less the rounded correction, which is at most 110,000. -/
theorem correctionFactor_exact {alpha : Nat} {t10 : Int} (ha : alpha ≤ 2000) (lo : -400 ≤ t10) (hi : t10 ≤ 700) :
    (correctionFactor alpha t10 : Int) = 1000000 - roundAway (alpha * (t10 - 150)) 10 ∧
      -110000 ≤ roundAway (alpha * (t10 - 150)) 10 ∧ roundAway (alpha * (t10 - 150)) 10 ≤ 110000 := by
  have bounds := roundAway_bounds (n := alpha * (t10 - 150)) (by nlinarith) (by nlinarith)
  unfold correctionFactor
  omega

theorem correctionFactor_zero (t10 : Int) : correctionFactor 0 t10 = 1000000 := by
  simp [correctionFactor, roundAway]

end correction

/-! ### The meter factor (R7) -/

section meter

/-- `f` is the factor at `rate` between the points `p` and `q`, rounded to nearest with a tie towards the greater. -/
def NearBetween (p q : Nat × Nat) (rate f : Nat) : Prop :=
  ∀ span err : Int, span = (q.1 : Int) - (p.1 : Int) →
    err = (f : Int) * span - ((p.2 : Int) * span + ((q.2 : Int) - (p.2 : Int)) * ((rate : Int) - (p.1 : Int))) →
      -span < 2 * err ∧ 2 * err ≤ span

variable {p q : Nat × Nat} {rate : Nat}

/-- A division rounded to nearest, a tie towards the greater. -/
theorem half_up {n w : Nat} (hw : 0 < w) :
    2 * w * ((2 * n + w) / (2 * w)) ≤ 2 * n + w ∧ 2 * n + w < 2 * w * ((2 * n + w) / (2 * w)) + 2 * w := by
  have split := Nat.div_add_mod (2 * n + w) (2 * w)
  have rem := Nat.mod_lt (2 * n + w) (show 0 < 2 * w by omega)
  omega

theorem factorBetween_near (lo : p.1 ≤ rate) (hi : rate ≤ q.1) (lt : p.1 < q.1) :
    NearBetween p q rate (factorBetween p q rate) := by
  rintro span err rfl rfl
  obtain ⟨w, hw⟩ := Nat.exists_eq_add_of_lt lt
  obtain ⟨x, rfl⟩ := Nat.exists_eq_add_of_le lo
  obtain ⟨y, hy⟩ := Nat.exists_eq_add_of_le hi
  have width : q.1 - p.1 = x + y := by omega
  have part : p.1 + x - p.1 = x := by omega
  have rest : x + y - x = y := by omega
  obtain ⟨le, lt⟩ := half_up (n := p.2 * y + q.2 * x) (show 0 < x + y by omega)
  unfold factorBetween
  simp only [width, part, rest]
  generalize (2 * (p.2 * y + q.2 * x) + (x + y)) / (2 * (x + y)) = f at le lt
  rw [hy]
  zify at le lt
  push_cast
  constructor <;> nlinarith

/-- At a point's own rate its factor is exact. -/
theorem near_first (lt : p.1 < q.1) : NearBetween p q p.1 p.2 := by
  rintro span err rfl rfl
  have zero : ((p.1 : Int) - (p.1 : Int)) = 0 := by omega
  rw [zero]
  simp only [mul_zero, add_zero, sub_self]
  omega

theorem near_second (lt : p.1 < q.1) : NearBetween p q q.1 q.2 := by
  rintro span err rfl rfl
  have zero (a b w : Int) : a * w - (b * w + (a - b) * w) = 0 := by ring
  rw [zero]
  omega

theorem factorBetween_first (lt : p.1 < q.1) : factorBetween p q p.1 = p.2 := by
  unfold factorBetween
  have pos : 0 < q.1 - p.1 := by omega
  simp only [Nat.sub_self, Nat.sub_zero, Nat.mul_zero, Nat.add_zero]
  generalize q.1 - p.1 = w at pos
  refine Nat.div_eq_of_lt_le ?_ ?_ <;> nlinarith

theorem factorBetween_bounds {lo hi : Nat} (below : p.1 ≤ rate) (above : rate ≤ q.1) (lt : p.1 < q.1)
    (hp : lo ≤ p.2 ∧ p.2 ≤ hi) (hq : lo ≤ q.2 ∧ q.2 ≤ hi) :
    lo ≤ factorBetween p q rate ∧ factorBetween p q rate ≤ hi := by
  obtain ⟨x, rfl⟩ := Nat.exists_eq_add_of_le below
  obtain ⟨y, hy⟩ := Nat.exists_eq_add_of_le above
  have width : q.1 - p.1 = x + y := by omega
  have part : p.1 + x - p.1 = x := by omega
  have rest : x + y - x = y := by omega
  have pos : 0 < 2 * (x + y) := by omega
  unfold factorBetween
  simp only [width, part, rest]
  constructor
  · rw [Nat.le_div_iff_mul_le pos]
    nlinarith
  · rw [← Nat.lt_succ_iff, Nat.div_lt_iff_lt_mul pos]
    nlinarith

variable {rest : List (Nat × Nat)}

theorem factorAbove_above (h : q.1 ≤ rate) : factorAbove p rate (q :: rest) = factorAbove q rate rest := if_pos h

theorem factorAbove_between (h : rate < q.1) : factorAbove p rate (q :: rest) = factorBetween p q rate :=
  if_neg (Nat.not_le_of_lt h)

theorem factorAbove_first (order : (p :: rest).Pairwise fun x y => x.1 < y.1) : factorAbove p p.1 rest = p.2 := by
  cases rest with
  | nil => rfl
  | cons q rest =>
    have lt := (List.pairwise_cons.mp order).1 q (List.mem_cons_self ..)
    rw [factorAbove_between lt, factorBetween_first lt]

/-- No point of the table stands below its first. -/
theorem first_le (order : (p :: rest).Pairwise fun x y => x.1 < y.1) {a : Nat × Nat} (h : a ∈ p :: rest) :
    p.1 ≤ a.1 := by
  rcases List.mem_cons.mp h with rfl | mem
  · exact le_rfl
  · exact Nat.le_of_lt ((List.pairwise_cons.mp order).1 a mem)

theorem factorAbove_near (order : (p :: rest).Pairwise fun x y => x.1 < y.1) (i : Nat) {a b : Nat × Nat}
    (ha : (p :: rest)[i]? = some a) (hb : (p :: rest)[i + 1]? = some b) (lo : a.1 ≤ rate) (hi : rate ≤ b.1) :
    NearBetween a b rate (factorAbove p rate rest) := by
  induction rest generalizing p i with
  | nil => simp at hb
  | cons q rest ih =>
    obtain ⟨head, tail⟩ := List.pairwise_cons.mp order
    have lt := head q (List.mem_cons_self ..)
    cases i with
    | zero =>
      obtain rfl : p = a := by simpa using ha
      obtain rfl : q = b := by simpa using hb
      rcases Nat.lt_or_eq_of_le hi with below | rfl
      · rw [factorAbove_between below]
        exact factorBetween_near lo hi lt
      · rw [factorAbove_above le_rfl, factorAbove_first tail]
        exact near_second lt
    | succ i =>
      have first : q.1 ≤ a.1 := first_le tail (List.mem_of_getElem? ha)
      rw [factorAbove_above (first.trans lo)]
      exact ih tail i ha hb

theorem factorAbove_last (order : (p :: rest).Pairwise fun x y => x.1 < y.1) {l : Nat × Nat}
    (hl : (p :: rest).getLast? = some l) (h : l.1 ≤ rate) : factorAbove p rate rest = l.2 := by
  induction rest generalizing p with
  | nil =>
    obtain rfl : p = l := by simpa using hl
    rfl
  | cons q rest ih =>
    obtain ⟨-, tail⟩ := List.pairwise_cons.mp order
    have last : (q :: rest).getLast? = some l := by rwa [List.getLast?_cons_cons] at hl
    have first : q.1 ≤ l.1 := first_le tail (List.mem_of_getLast? last)
    rw [factorAbove_above (first.trans h)]
    exact ih tail last

theorem factorAbove_bounds (order : (p :: rest).Pairwise fun x y => x.1 < y.1) (above : p.1 ≤ rate) {lo hi : Nat}
    (h : ∀ x ∈ p :: rest, lo ≤ x.2 ∧ x.2 ≤ hi) : lo ≤ factorAbove p rate rest ∧ factorAbove p rate rest ≤ hi := by
  induction rest generalizing p with
  | nil => exact h p (List.mem_cons_self ..)
  | cons q rest ih =>
    obtain ⟨head, tail⟩ := List.pairwise_cons.mp order
    have inner : ∀ x ∈ q :: rest, lo ≤ x.2 ∧ x.2 ≤ hi := fun x hx => h x (List.mem_cons_of_mem _ hx)
    rcases Nat.lt_or_ge rate q.1 with lt | ge
    · rw [factorAbove_between lt]
      exact factorBetween_bounds above lt.le (head q (List.mem_cons_self ..)) (h p (List.mem_cons_self ..))
        (inner q (List.mem_cons_self ..))
    · rw [factorAbove_above ge]
      exact ih tail ge inner

/-- From the first point's rate on the table is walked upwards. -/
theorem meterFactor_above (order : (p :: rest).Pairwise fun x y => x.1 < y.1) (h : p.1 ≤ rate) :
    meterFactor (p :: rest) rate = factorAbove p rate rest := by
  rcases Nat.lt_or_eq_of_le h with lt | rfl
  · exact if_neg (Nat.not_le_of_lt lt)
  · rw [factorAbove_first order]
    exact if_pos le_rfl

theorem meterFactor_below (h : rate ≤ p.1) : meterFactor (p :: rest) rate = p.2 := if_pos h

end meter

/-- Settles O37: the rounding of R10, and by induction along the table that of R7. -/
theorem correctionIsRounded : Obligations.CorrectionIsRounded := by
  refine ⟨fun alpha t10 ha lo hi => ?_, fun table rate order => ?_⟩
  · obtain ⟨exact_, low, high⟩ := correctionFactor_exact ha lo hi
    refine ⟨by omega, correctionFactor_zero t10, fun c hc => ?_, fun h => ?_, fun h => ?_⟩
    · rw [exact_, sub_sub_cancel] at hc
      rw [hc]
      exact roundAway_ten _
    · have := roundAway_nonneg (n := alpha * (t10 - 150)) (mul_nonneg (by omega) (by omega))
      omega
    · have := roundAway_nonpos (n := alpha * (t10 - 150)) (mul_nonpos_of_nonneg_of_nonpos (by omega) (by omega))
      omega
  · cases table with
    | nil => simp [meterFactor]
    | cons p rest =>
      refine ⟨nofun, fun a ha hr => ?_, fun l hl hr => ?_, fun i a b ha hb hlo hhi => ?_,
        fun lo hi _ h => ?_⟩
      · obtain rfl : p = a := by simpa using ha
        exact meterFactor_below hr
      · rw [meterFactor_above order ((first_le order (List.mem_of_getLast? hl)).trans hr)]
        exact factorAbove_last order hl hr
      · rw [meterFactor_above order ((first_le order (List.mem_of_getElem? ha)).trans hlo)]
        exact factorAbove_near order i ha hb hlo hhi
      · rcases Nat.le_total rate p.1 with below | above
        · rw [meterFactor_below below]
          exact h p (List.mem_cons_self ..)
        · rw [meterFactor_above order above]
          exact factorAbove_bounds order above h

end Sys2Proof.Machine

/-! SUPPORT AND CERTIFICATES. How a delivery's limit is lowered (R59, R78), SET_PRESET (R71, R72), and the commands and
inputs that finish a delivery (R79, R85 to R87). -/

namespace Sys2Proof.Machine

open Sys2Proof

/-! ### A lowered limit (R59) -/

section lowered

variable {s : State} {p : PointId} {d : Delivery} (v : Nat) (k : LimitSource)

/-- A delivery with its limit lowered to `v`: the reservation and the segment's remainder follow. -/
def Delivery.lowered (d : Delivery) (v : Nat) (k : LimitSource) : Delivery :=
  { d with
    limit := v, source := k, reservation := reservationFor v d.price
    current :=
      { d.current with remaining := d.current.remaining - min (d.limit - v) d.current.remaining } }

theorem State.lowerLimit_eq (h : (s.point p).context = some d) :
    s.lowerLimit p v k =
      (((s.modMachine d.machine fun m => { m with reserved := v }).modAccount d.account fun a =>
        { a with reserved := a.reserved - (d.reservation - reservationFor v d.price) }).releaseOn d.current.comp
          (min (d.limit - v) d.current.remaining)).setPoint p
        { s.point p with context := some (d.lowered v k) } := by
  unfold State.lowerLimit
  rw [h]
  rfl

theorem State.lowerLimit_point (h : (s.point p).context = some d) :
    (s.lowerLimit p v k).point p = { s.point p with context := some (d.lowered v k) } := by
  rw [State.lowerLimit_eq v k h, State.setPoint_point_same]

theorem State.lowerLimit_point_ne {q : PointId} (h : (s.point p).context = some d) (hq : q ≠ p) :
    (s.lowerLimit p v k).point q = s.point q := by
  rw [State.lowerLimit_eq v k h, State.setPoint_point_ne _ _ _ _ hq]
  rfl

theorem State.lowerLimit_machine (h : (s.point p).context = some d) (n : Nat) :
    findMachine (s.lowerLimit p v k).roster n =
      (findMachine s.roster n).map fun m => if n = d.machine then { m with reserved := v } else m := by
  rw [State.lowerLimit_eq v k h]
  exact State.modMachine_find s d.machine (fun m => { m with reserved := v }) (fun _ => rfl) n

theorem State.lowerLimit_account (h : (s.point p).context = some d) (n : Nat) :
    findAccount (s.lowerLimit p v k).accounts n =
      (findAccount s.accounts n).map fun a =>
        if n = d.account then { a with reserved := a.reserved - (d.reservation - reservationFor v d.price) } else a := by
  rw [State.lowerLimit_eq v k h]
  exact State.modAccount_find (s.modMachine d.machine fun m => { m with reserved := v }) d.account
    (fun a => { a with reserved := a.reserved - (d.reservation - reservationFor v d.price) }) (fun _ => rfl) n

theorem State.lowerLimit_comp (h : (s.point p).context = some d) (c : CompId) :
    (s.lowerLimit p v k).comp c =
      if c = d.current.comp then
        (s.comp c).map fun x => { x with reserved := x.reserved - min (d.limit - v) d.current.remaining }
      else s.comp c := by
  rw [State.lowerLimit_eq v k h, State.setPoint_comp, State.releaseOn_comp]
  split
  next hc => rw [hc]; rfl
  next => rfl

end lowered

/-! ### The comparison with a lowered limit (R78) -/

section compared

variable {s : State} {p : PointId} {d : Delivery}

theorem State.compareFlow_point_ne {q : PointId} (h : q ≠ p) : (s.compareFlow p).point q = s.point q := by
  unfold State.compareFlow
  split
  · split
    · exact State.finish_point_ne s p q _ h
    · split
      · exact State.setPoint_point_ne _ _ _ _ h
      · rfl
  · rfl

theorem State.compareLowered_point_ne {q : PointId} (h : q ≠ p) : (s.compareLowered p).point q = s.point q := by
  unfold State.compareLowered
  split
  · rfl
  · split
    · exact State.compareFlow_point_ne h
    · split
      · exact State.finish_point_ne s p q _ h
      · rfl

theorem State.compareLowered_context (q : PointId) : ((s.compareLowered p).point q).context = (s.point q).context := by
  unfold State.compareLowered
  split
  · rfl
  · split
    · exact State.compareFlow_context s p q
    · split
      · exact State.finish_context s p q _
      · rfl

/-- A flowing point within its close-ahead finishes (R77). -/
theorem State.compareFlow_within (hd : (s.point p).context = some d) (flowing : (s.point p).state.isFlowing = true)
    (h : d.limit ≤ cLof d.net_uL + (s.point p).closeAhead) : s.compareFlow p = s.finish p d.limitCause := by
  obtain ⟨stage, hs⟩ : ∃ stage, (s.point p).state = .flowing stage := by
    cases hs : (s.point p).state <;> simp [hs, PointState.isFlowing] at flowing ⊢
  have within : d.within (s.point p).closeAhead = true := decide_eq_true h
  unfold State.compareFlow
  rw [hd, hs]
  exact if_pos within

/-- A point that comes within its close-ahead by a lowering finishes in any open state (R78). -/
theorem State.compareLowered_within (hd : (s.point p).context = some d) (h : (s.point p).state.unfinished = true)
    (hv : d.limit ≤ cLof d.net_uL + (s.point p).closeAhead) : s.compareLowered p = s.finish p d.limitCause := by
  have within : d.within (s.point p).closeAhead = true := decide_eq_true hv
  unfold State.compareLowered
  rw [hd]
  by_cases flowing : (s.point p).state.isFlowing = true
  · exact (if_pos flowing).trans (State.compareFlow_within hd flowing hv)
  · exact (if_neg flowing).trans (if_pos ⟨h, within⟩)

end compared

/-! ### SET_PRESET (R71, R72) -/

section preset

variable {s : State} {n kind value : Nat} {p : PointId} {d : Delivery}

theorem bodySetPreset_bad (hp : pointOf n = some p) (h : presetOf kind value = none) :
    bodySetPreset n kind value s = s.badParam := by
  simp only [bodySetPreset, hp, h]

theorem bodySetPreset_closed {x : Option Preset} (hp : pointOf n = some p) (h : presetOf kind value = some x)
    (hd : (s.point p).context = none) :
    bodySetPreset n kind value s = (s.setPoint p { s.point p with preset := x }, Reply.ok) := by
  simp only [bodySetPreset, hp, h, hd]

theorem bodySetPreset_open {x : Option Preset} (hp : pointOf n = some p) (h : presetOf kind value = some x)
    (hd : (s.point p).context = some d) : bodySetPreset n kind value s = s.presetOpen p d x := by
  simp only [bodySetPreset, hp, h, hd]

/-- The state with the limit lowered to what the preset buys, and the preset kept in the context (R72). -/
def State.presetLowered (s : State) (p : PointId) (d : Delivery) (q : Preset) : State :=
  let t := s.lowerLimit p (q.volumeAt d.price) .preset
  t.setPoint p { t.point p with context := (t.point p).context.map fun y => { y with preset := some q } }

theorem State.presetOpen_lowers {q : Preset} (h : q.volumeAt d.price < d.limit) :
    s.presetOpen p d (some q) = (((s.presetLowered p d q).compareLowered p).follow s, Reply.ok) := if_pos h

theorem State.presetOpen_wrongState {q : Preset} (h : d.limit ≤ q.volumeAt d.price) :
    s.presetOpen p d (some q) = s.deny .wrongState := if_neg (Nat.not_lt_of_le h)

theorem State.presetLowered_point {q : Preset} (hd : (s.point p).context = some d) :
    (s.presetLowered p d q).point p =
      { s.point p with context := some { d.lowered (q.volumeAt d.price) .preset with preset := some q } } := by
  rw [State.presetLowered, State.setPoint_point_same, State.lowerLimit_point _ _ hd]
  rfl

theorem State.presetLowered_point_ne {q : Preset} {o : PointId} (hd : (s.point p).context = some d) (ho : o ≠ p) :
    (s.presetLowered p d q).point o = s.point o := by
  rw [State.presetLowered, State.setPoint_point_ne _ _ _ _ ho, State.lowerLimit_point_ne _ _ hd ho]

/-- What a lowering leaves of the delivery and of its reservations, with the other blocks behind it (R59, R72). -/
theorem State.presetLowered_books {q : Preset} {t : State} (hd : (s.point p).context = some d)
    (hf : ((s.presetLowered p d q).compareLowered p).FollowedBy t) :
    (t.point p).context = some { d.lowered (q.volumeAt d.price) .preset with preset := some q } ∧
      (∀ k, findMachine t.roster k =
        (findMachine s.roster k).map fun m =>
          if k = d.machine then { m with reserved := q.volumeAt d.price } else m) ∧
      (∀ k, findAccount t.accounts k =
        (findAccount s.accounts k).map fun a =>
          if k = d.account then
            { a with reserved := a.reserved - (d.reservation - reservationFor (q.volumeAt d.price) d.price) }
          else a) ∧
      (∀ c, (t.comp c).map (fun x => (x.book, x.reserved)) =
        (s.comp c).map fun x =>
          (x.book,
            if c = d.current.comp then x.reserved - min (d.limit - q.volumeAt d.price) d.current.remaining
            else x.reserved)) ∧
      (t.point p.other).context = (s.point p.other).context ∧ t.journal.records = s.journal.records := by
  refine ⟨?_, fun k => ?_, fun k => ?_, fun c => ?_, ?_, ?_⟩
  · rw [(hf.points p).context, State.compareLowered_context, State.presetLowered_point hd]
  · rw [hf.rest.1]
    simp only [State.compareLowered_frame]
    exact State.lowerLimit_machine _ _ hd k
  · rw [hf.rest.2.1]
    simp only [State.compareLowered_frame]
    exact State.lowerLimit_account _ _ hd k
  · have figures := congrArg (Option.map fun x : Nat × Nat × Bool => (x.1, x.2.1)) (hf.figures c)
    simp only [Option.map_map, State.compareLowered_frame] at figures
    refine figures.trans ?_
    rw [State.presetLowered, State.setPoint_comp, State.lowerLimit_comp _ _ hd]
    split <;> cases s.comp c <;> rfl
  · have other : p.other ≠ p := by cases p <;> decide
    rw [(hf.points p.other).context, State.compareLowered_context, State.presetLowered_point_ne hd other]
  · rw [hf.journal]
    simp only [State.compareLowered_frame, State.presetLowered, State.setPoint_journal, State.lowerLimit_frame]

/-- Settles O28: a lowering is that of R59, with the comparison of R78 and the other blocks behind it. -/
theorem presetIsSet : Obligations.PresetIsSet := by
  rintro r s u n kind value p ht rfl hp
  refine ⟨fun x hx hd => ?_, fun hx => ?_, fun d q hx hd hv => ?_, fun d hx hd => ?_, fun d q v hx hd hv lower => ?_⟩
  · exact Answers.of_body (fun _ => rfl) ht (bodySetPreset_closed hp hx hd)
  · exact Answers.of_body (fun _ => rfl) ht (bodySetPreset_bad hp hx)
  · exact Answers.of_body (fun _ => rfl) ht
      ((bodySetPreset_open hp hx hd).trans (State.presetOpen_wrongState hv))
  · exact Answers.of_body (fun _ => rfl) ht (bodySetPreset_open hp hx hd)
  · subst hv
    have hf := State.follow_followedBy (((s.frameReceived r.port).presetLowered p d q).compareLowered p)
      (s.frameReceived r.port)
    obtain ⟨context, machines, accounts, comps, other, records⟩ := State.presetLowered_books hd hf
    refine ⟨_, Answers.of_body (fun _ => rfl) ht ((bodySetPreset_open hp hx hd).trans
      (State.presetOpen_lowers lower)), context, machines, accounts, comps, fun unfinished within => ?_, other, records⟩
    have lowered := State.presetLowered_point (q := q) hd
    have finishes := State.compareLowered_within (s := (s.frameReceived r.port).presetLowered p d q) (p := p)
      (by rw [lowered]) (by rw [lowered]; exact unfinished) (by rw [lowered]; exact within)
    rw [finishes] at hf ⊢
    obtain ⟨⟨state, ended⟩, ⟨fast, slow⟩, -⟩ := State.finish_finished hf
    exact ⟨state, ended, slow, fast⟩

end preset

/-! ### What finishes a delivery (R85 to R87) -/

section finishes

variable {s t : State} {p : PointId} {k : EndCause}

/-- A point's finish under series ends, with the other blocks behind it. -/
theorem State.endSeries_finished (hf : ((s.endSeries p).finish p k).FollowedBy t) :
    s.Finished t p k ∧ (t.point p).seriesEnds = true := by
  have finished := State.finish_finishes (s.endSeries p) p k
  have context : ((s.endSeries p).point p).context = (s.point p).context := by
    rw [State.endSeries, State.setPoint_point_same]
  have ends : (((s.endSeries p).finish p k).point p).seriesEnds = true := by
    simp [State.finish, State.endSeries, Point.shut, Point.stopTimers, State.stopGrace]
  have still := (hf.points p).still (by rw [finished.state.1]; simp)
  have own : s.Finished ((s.endSeries p).finish p k) p k :=
    { finished with context := finished.context.trans context }
  exact ⟨own.followed hf, by rw [still]; exact ends⟩

/-- The other point's finish leaves one that has finished so. -/
theorem State.Finished.ignitionEnds (h : s.Finished t p k) {q : PointId} (hq : p ≠ q) :
    s.Finished (t.ignitionEnds q) p k := by
  unfold State.ignitionEnds
  split
  · have point : ((t.endSeries q).finish q .ignitionOff).point p = t.point p := by
      rw [State.finish_point_ne _ _ _ _ hq, State.endSeries, State.setPoint_point_ne _ _ _ _ hq]
    have coupler : ((t.endSeries q).finish q .ignitionOff).coupler p = t.coupler p := by
      simp [State.finish, State.stopGrace, State.endSeries, hq]
    obtain ⟨waiting, admitted, claims, hold⟩ := h.suction
    refine ⟨point ▸ h.state, point ▸ h.valves, point ▸ coupler ▸ h.timers, ?_, point ▸ h.context⟩
    simp [State.finish, State.endSeries, Arbiter.withdraw, Arbiter.dropClaim, hq, waiting, admitted, claims, hold]
  · exact h

theorem State.ignitionEnds_finished (h : (s.point p).state.unfinished = true) :
    s.Finished (s.ignitionEnds p) p .ignitionOff := by
  rw [State.ignitionEnds, if_pos h]
  exact (State.endSeries_finished (.refl _)).1

theorem State.ignitionEnds_kept (s : State) (q : PointId) :
    (s.ignitionEnds q).times = s.times ∧ (s.ignitionEnds q).power = s.power := by
  unfold State.ignitionEnds
  split
  · simp only [State.finish_frame, State.endSeries, State.setPoint_times, State.setPoint_power, and_self]
  · exact ⟨rfl, rfl⟩

/-- Ignition off finishes each point that is open and not finishing yet (R87). -/
theorem State.ignitionEnds_finishes (h : (s.point p).state.unfinished = true) :
    s.Finished ((s.ignitionEnds .a).ignitionEnds .b) p .ignitionOff := by
  cases p with
  | a => exact (State.ignitionEnds_finished h).ignitionEnds (by decide)
  | b =>
    have point : (s.ignitionEnds .a).point .b = s.point .b := by
      unfold State.ignitionEnds
      split
      · rw [State.finish_point_ne _ _ _ _ (by decide), State.endSeries, State.setPoint_point_ne _ _ _ _ (by decide)]
      · rfl
    have times := (s.ignitionEnds_kept .a).1
    have finished := State.ignitionEnds_finished (s := s.ignitionEnds .a) (p := .b) (by rw [point]; exact h)
    exact ⟨finished.state, finished.valves, times ▸ finished.timers, finished.suction, point ▸ finished.context⟩

theorem bodyStopPoint_unfinished {n : Nat} (hp : pointOf n = some p) (h : (s.point p).state.unfinished = true) :
    bodyStopPoint n s = (((s.endSeries p).finish p .operatorStop).follow s, Reply.ok) := by
  simp only [bodyStopPoint, hp, h, if_true]

theorem bodyStopPoint_finishing {n : Nat} (hp : pointOf n = some p) (h : (s.point p).state = .finishing) :
    bodyStopPoint n s = (s.endSeries p, Reply.ok) := by
  simp [bodyStopPoint, hp, h, PointState.unfinished]

theorem bodyStopPoint_closed {n : Nat} (hp : pointOf n = some p) (h : (s.point p).state = .closed) :
    bodyStopPoint n s = s.deny .wrongState := by
  simp [bodyStopPoint, hp, h, PointState.unfinished]

/-- The nozzle back on its hook, before the point acts (R32). -/
def State.hung (s : State) (p : PointId) : State :=
  s.setCoupler p { s.coupler p with offHook := false, coupling := .uncoupled }

theorem State.hangNozzle_unfinished (h : (s.point p).state.unfinished = true) :
    s.hangNozzle p = (((s.hung p).endSeries p).finish p .nozzleHung).follow s := if_pos h

theorem State.hangNozzle_closed (h : (s.point p).state = .closed) : s.hangNozzle p = s.hung p := by
  have state : ((s.hung p).point p).state = .closed := h
  have unfinished : ¬ ((s.hung p).point p).state.unfinished = true := by rw [state]; decide
  have finishing : ¬ ((s.hung p).point p).state = .finishing := by rw [state]; decide
  exact (if_neg unfinished).trans (if_neg finishing)

/-- STANDBY with the ignition off, before the points act (R188). -/
def State.darkened (s : State) : State :=
  s.setPower { s.power with state := .standby, ignition := false, wake := none }

theorem State.ignitionOff_run (h : s.power.state = .run) :
    exec .ignitionOff s = .next (((s.darkened.ignitionEnds .a).ignitionEnds .b).follow s) := by
  refine congrArg Host.Outcome.next ?_
  rw [h]
  rfl

/-- Settles O29: each row finishes its point by R79, and the other blocks leave it so. -/
theorem pointFinishes : Obligations.PointFinishes := by
  intro s p
  refine ⟨fun r n u ht hu hp h => ?_, fun r n u ht hu hp h => ?_, fun r n u ht hu hp h => ?_, fun hook h => ?_,
    fun hook h => ?_, fun run h => ?_⟩
  · subst hu
    exact ⟨_, Answers.of_body (fun _ => rfl) ht (bodyStopPoint_unfinished hp h),
      State.endSeries_finished (State.follow_followedBy _ _)⟩
  · subst hu
    exact Answers.of_body (fun _ => rfl) ht (bodyStopPoint_finishing hp h)
  · subst hu
    exact Answers.of_body (fun _ => rfl) ht (bodyStopPoint_closed hp h)
  · have hf := State.follow_followedBy (((s.hung p).endSeries p).finish p .nozzleHung) s
    obtain ⟨finished, ends⟩ := State.endSeries_finished hf
    have hung : (((s.hung p).endSeries p).finish p .nozzleHung).coupler p =
        { s.coupler p with offHook := false, coupling := .uncoupled, grace := none } := by
      simp [State.finish, State.stopGrace, State.endSeries, State.hung]
    refine ⟨_, congrArg Host.Outcome.next ((if_pos hook).trans (State.hangNozzle_unfinished h)),
      ⟨finished.state, finished.valves, finished.timers, finished.suction, finished.context⟩, ends, ?_, ?_⟩
    · rw [hf.couplers p, hung]
    · rw [hf.couplers p, hung]
  · exact congrArg Host.Outcome.next ((if_pos hook).trans (State.hangNozzle_closed h))
  · have hf := State.follow_followedBy ((s.darkened.ignitionEnds .a).ignitionEnds .b) s
    have finished := (State.ignitionEnds_finishes (s := s.darkened) (p := p) h).followed hf
    have power := hf.rest.2.2.2.2.2.2.2.2.2.2.1
    rw [(State.ignitionEnds_kept _ .b).2, (State.ignitionEnds_kept _ .a).2] at power
    refine ⟨_, State.ignitionOff_run run, ⟨finished.state, finished.valves, finished.timers, finished.suction,
      finished.context⟩, ?_, ?_, ?_⟩ <;> rw [power] <;> rfl

end finishes

end Sys2Proof.Machine

/-! SUPPORT AND CERTIFICATES. The coupling's reads (R30, R31), identification by tag and by hand (R34, R41, R53), and the
delivery an authorisation opens (R56, R57, R73). -/

namespace Sys2Proof.Machine

open Sys2Proof

/-! ### Reads (R30, R31) -/

section reads

variable {s : State} {p : PointId}

theorem exec_tagRead_valid (x : TagReply) (awake : s.inReset = false) (hook : (s.coupler p).offHook = true) :
    exec (.tagRead p (some x)) s = .next (s.validRead p (TagReply.read x)) :=
  congrArg Host.Outcome.next (if_neg (by simp [awake, hook]))

theorem exec_tagRead_failed (awake : s.inReset = false) (hook : (s.coupler p).offHook = true) :
    exec (.tagRead p none) s = .next (s.failedRead p) :=
  congrArg Host.Outcome.next (if_neg (by simp [awake, hook]))

/-- The coupler after a valid read, which is counted and kept (R30). -/
def State.readValid (s : State) (p : PointId) (x : ValidRead) (k : Coupling) : State :=
  s.setCoupler p { s.coupler p with coupling := k, lastValid := some x, validCount := (s.coupler p).validCount + 1 }

/-- The coupler after a failed read, which is counted (R30). -/
def State.readFailed (s : State) (p : PointId) (k : Coupling) : State :=
  s.setCoupler p { s.coupler p with coupling := k, failedCount := (s.coupler p).failedCount + 1 }

theorem State.validRead_eq (x : ValidRead) :
    s.validRead p x =
      let t := s.readValid p x ((s.coupler p).coupling.onValid x.tag)
      if t.otherTag p x.tag then (t.closeOn p .couplingChanged).follow t
      else if ((s.coupler p).coupling.onValid x.tag).isCoupled ∧ ¬ (s.coupler p).coupling.isCoupled then
        t.couplingReached p x
      else t := rfl

/-- Without an open delivery there is no other identity to change (R39). -/
theorem State.otherTag_none (h : (s.point p).context = none) (t : TagId) : s.otherTag p t = false := by
  simp only [State.otherTag, h]

theorem State.ownTag_none (h : (s.point p).context = none) (t : TagId) : s.ownTag p t = false := by
  simp only [State.ownTag, h, Option.any_none]

theorem State.validRead_idle {x : ValidRead} (h : (s.point p).context = none)
    (short : ((s.coupler p).coupling.onValid x.tag).isCoupled = true → (s.coupler p).coupling.isCoupled = true) :
    s.validRead p x = s.readValid p x ((s.coupler p).coupling.onValid x.tag) := by
  have other : (s.readValid p x ((s.coupler p).coupling.onValid x.tag)).otherTag p x.tag = false :=
    State.otherTag_none h _
  rw [State.validRead_eq]
  have unreached : ¬ (((s.coupler p).coupling.onValid x.tag).isCoupled = true ∧
      ¬ (s.coupler p).coupling.isCoupled = true) := fun ⟨now, before⟩ => before (short now)
  exact (if_neg (Bool.eq_false_iff.mp other)).trans (if_neg unreached)

theorem State.failedRead_idle (h : (s.point p).context = none) :
    s.failedRead p = s.readFailed p (s.coupler p).coupling.onFailed := by
  have own (t : TagId) : (s.readFailed p (s.coupler p).coupling.onFailed).ownTag p t = false :=
    State.ownTag_none h _
  unfold State.failedRead
  dsimp only
  split
  next t _ _ _ _ => exact if_neg (Bool.eq_false_iff.mp (own t))
  next => rfl

/-- Settles O26: each row of the table of R31 by the coupling it starts from. -/
theorem readsMoveTheCoupling : Obligations.ReadsMoveTheCoupling := by
  intro s p x w n
  refine ⟨rfl, fun awake hook idle => ?_⟩
  have valid (k : Coupling) (short : k.isCoupled = true → (s.coupler p).coupling.isCoupled = true)
      (h : (s.coupler p).coupling.onValid x.tag = k) :
      exec (.tagRead p (some x)) s = .next (s.readValid p (TagReply.read x) k) := by
    subst h
    exact (exec_tagRead_valid x awake hook).trans (congrArg Host.Outcome.next (State.validRead_idle idle short))
  have failed (k : Coupling) (h : (s.coupler p).coupling.onFailed = k) :
      exec (.tagRead p none) s = .next (s.readFailed p k) := by
    subst h
    exact (exec_tagRead_failed awake hook).trans (congrArg Host.Outcome.next (State.failedRead_idle idle))
  refine ⟨fun c => ⟨valid _ nofun ?_, failed _ ?_⟩, fun c => ⟨fun e => valid _ nofun ?_, fun e => valid _ nofun ?_,
    failed _ ?_⟩, fun c => ⟨fun e => valid _ nofun ?_, failed _ ?_⟩,
    fun c => ⟨fun e => valid _ (fun _ => ?_) ?_, fun e => valid _ nofun ?_, fun e => failed _ ?_, fun e => failed _ ?_⟩,
    fun c => ⟨valid _ nofun ?_, failed _ ?_⟩⟩
  all_goals rw [c]
  · rfl
  · rfl
  · exact if_pos e
  · exact if_neg e
  · rfl
  · exact if_neg e
  · rfl
  · rfl
  · exact if_pos e
  · exact if_neg e
  · exact if_pos e
  · exact if_neg (Nat.not_lt_of_le e)
  · rfl
  · rfl

end reads

/-! ### An opened delivery (R56, R57, R73) -/

section opened

variable {s t : State} {p : PointId} {r : AuthRequest} {a : Account} {c : CompId} {limit : Nat} {source : LimitSource}
  {price : Nat}

theorem State.openDelivery_roster :
    (s.openDelivery p r a c limit source price).roster =
      (s.modMachine r.machine.number fun m => { m with reserved := limit }).roster := by
  simp [State.openDelivery]

theorem State.openDelivery_accounts :
    (s.openDelivery p r a c limit source price).accounts =
      (s.modAccount a.number fun x => { x with reserved := x.reserved + reservationFor limit price }).accounts := by
  simp only [State.openDelivery, State.setCoupler_accounts, State.setPoint_accounts, State.bindChannel_frame,
    State.reserveSlot_frame, State.reorderFall_frame, State.stopSettle_frame, State.reserveOn_frame]
  rfl

theorem State.openDelivery_channel :
    ((s.openDelivery p r a c limit source price).channel (channelFor p)).bound = true ∧
      ((s.openDelivery p r a c limit source price).channel (channelFor p)).alpha =
        some (s.alphaOf r.machine.product) := by
  simp only [State.openDelivery, State.setCoupler_channel, State.setPoint_channel, State.bindChannel,
    State.setChannel_channel_same, Channel.bind]
  refine ⟨trivial, ?_⟩
  simp only [State.alphaOf, State.reserveSlot_frame, State.reorderFall_frame, State.stopSettle_frame,
    State.reserveOn_frame]
  rfl

/-- What an authorisation opens, the other blocks leave open. -/
theorem State.openDelivery_opened (hf : (s.openDelivery p r a c limit source price).FollowedBy t) :
    s.Opened t p r a c limit source price := by
  have point : t.point p = (s.openDelivery p r a c limit source price).point p :=
    (hf.points p).still (by simp [State.openDelivery])
  have other : p.other ≠ p := by cases p <;> decide
  have coupler : (t.coupler p).outcome = ((s.openDelivery p r a c limit source price).coupler p).outcome := by
    rw [hf.couplers p]
  have channel : t.channel (channelFor p) = (s.openDelivery p r a c limit source price).channel (channelFor p) := by
    cases p
    · exact hf.channelA
    · exact hf.channelB
  obtain ⟨roster, accounts, products, prices, -, -, -, -, clock, roles, power, -, -⟩ := hf.rest
  simp only [State.openDelivery_frame] at products prices clock roles power
  refine ⟨?_, ?_, ?_, fun n => ?_, fun n => ?_, fun d => ?_, ?_, ?_, ?_, ?_, products, prices, clock, power, roles⟩
  · rw [point]; simp [State.openDelivery]
  · rw [point]; simp [State.openDelivery]
  · rw [point]; simp [State.openDelivery]
  · rw [roster, State.openDelivery_roster]
    exact State.modMachine_find s _ (fun m => { m with reserved := limit }) (fun _ => rfl) n
  · rw [accounts, State.openDelivery_accounts]
    exact State.modAccount_find s _ (fun x => { x with reserved := x.reserved + reservationFor limit price })
      (fun _ => rfl) n
  · have figures := congrArg (Option.map fun x : Nat × Nat × Bool => (x.1, x.2.1)) (hf.figures d)
    simp only [Option.map_map] at figures
    exact figures.trans (State.openDelivery_comp s p r a c d limit source price)
  · rw [channel]
    exact State.openDelivery_channel
  · rw [coupler]
    simp [State.openDelivery]
  · rw [(hf.points _).context]
    simp [State.openDelivery, other]
  · rw [hf.journal]
    simp [State.openDelivery, State.reserveSlot]

end opened

/-! ### IDENTIFY_MANUAL (R41, R53) -/

section manual

variable {s : State} {p : PointId} {n machine : Nat} {raw : RawOpt Nat} {hours : Option Nat} {m : MachineRec}

/-- What IDENTIFY_MANUAL asks to be authorised for a machine (R41). -/
def State.manualRequest (s : State) (p : PointId) (m : MachineRec) (hours : Option Nat) : AuthRequest :=
  { machine := m, ident := .manual, hours := hours, level := none, fill := (s.point p).firstFill }

theorem bodyIdentifyManual_point (hp : pointOf n = none) : bodyIdentifyManual n machine raw s = s.badParam := by
  rw [bodyIdentifyManual, hp]

theorem bodyIdentifyManual_hours (hp : pointOf n = some p)
    (hr : readOpt 0 (fun h => decide (h ≤ 9999999)) raw = none) :
    bodyIdentifyManual n machine raw s = s.refuseManual p (Reply.of .badParam) none := by
  simp only [bodyIdentifyManual, hp, hr]

theorem bodyIdentifyManual_machine (hp : pointOf n = some p) (hm : ¬ (1 ≤ machine ∧ machine ≤ 999999)) :
    bodyIdentifyManual n machine raw s = s.refuseManual p (Reply.of .badParam) none := by
  cases hr : readOpt 0 (fun h => decide (h ≤ 9999999)) raw with
  | none => exact bodyIdentifyManual_hours hp hr
  | some h =>
    simp only [bodyIdentifyManual, hp, hr, inRange_not hm]
    rfl

theorem bodyIdentifyManual_checks (hp : pointOf n = some p) (h1 : 1 ≤ machine) (h2 : machine ≤ 999999)
    (hr : readOpt 0 (fun h => decide (h ≤ 9999999)) raw = some hours) :
    bodyIdentifyManual n machine raw s = s.identifyManual p machine hours := by
  simp only [bodyIdentifyManual, hp, hr, inRange_of h1 h2, if_true]

theorem State.identifyManual_parked (h : (s.point p).parked = true) :
    s.identifyManual p machine hours = s.refuseManual p (Reply.refused .pointParked) none := if_pos h

theorem State.identifyManual_open (h : (s.point p).parked = false) (k : (s.point p).state ≠ .closed) :
    s.identifyManual p machine hours = s.refuseManual p (Reply.of .wrongState) none := by
  simp only [State.identifyManual, h, k, Bool.false_eq_true, if_false, ne_eq, not_false_eq_true, if_true]

theorem State.identifyManual_hung (h : (s.point p).parked = false) (k : (s.point p).state = .closed)
    (hook : (s.coupler p).offHook = false) :
    s.identifyManual p machine hours = s.refuseManual p (Reply.refused .nozzleOnHook) none := by
  simp [State.identifyManual, h, k, hook]

theorem State.identifyManual_tagged (h : (s.point p).parked = false) (k : (s.point p).state = .closed)
    (hook : (s.coupler p).offHook = true) (away : (s.coupler p).coupling.away = false) :
    s.identifyManual p machine hours = s.refuseManual p (Reply.refused .tagPresent) none := by
  simp [State.identifyManual, h, k, hook, away]

/-- The point passes the checks of R41 that come before the machine's. -/
structure State.AdmitsManual (s : State) (p : PointId) : Prop where
  unparked : (s.point p).parked = false
  closed : (s.point p).state = .closed
  hook : (s.coupler p).offHook = true
  away : (s.coupler p).coupling.away = true

variable (h : s.AdmitsManual p)
include h

theorem State.identifyManual_unknown (hm : findMachine s.roster machine = none) :
    s.identifyManual p machine hours = s.refuseManual p (Reply.of .notFound) none := by
  simp [State.identifyManual, h.unparked, h.closed, h.hook, h.away, hm]

theorem State.identifyManual_barred (hm : findMachine s.roster machine = some m) (k : m.manualPermitted = false) :
    s.identifyManual p machine hours = s.refuseManual p (Reply.refused .manualNotPermitted) (some machine) := by
  simp [State.identifyManual, h.unparked, h.closed, h.hook, h.away, hm, k]

theorem State.identifyManual_suspended (hm : findMachine s.roster machine = some m) (k : m.manualPermitted = true)
    (hs : m.state = .suspended) :
    s.identifyManual p machine hours = s.refuseManual p (Reply.refused .machineSuspended) (some machine) := by
  simp [State.identifyManual, h.unparked, h.closed, h.hook, h.away, hm, k, hs]

/-- The machine's checks are passed, and the authorisation is made (R53). -/
theorem State.identifyManual_opens (hm : findMachine s.roster machine = some m) (k : m.manualPermitted = true)
    (hs : m.state = .active) {t : State} (ha : s.authorise p (s.manualRequest p m hours) = .ok t) :
    s.identifyManual p machine hours = (t.follow s, Reply.ok) := by
  simp only [State.manualRequest] at ha
  simp [State.identifyManual, h.unparked, h.closed, h.hook, h.away, hm, k, hs, ha]

/-- The authorisation is refused, and the refusal is the point's last identification outcome (R41, R53). -/
theorem State.identifyManual_refused (hm : findMachine s.roster machine = some m) (k : m.manualPermitted = true)
    (hs : m.state = .active) {x : AuthRefusal} (ha : s.authorise p (s.manualRequest p m hours) = .error x) :
    s.identifyManual p machine hours =
      (if x.reason = .journalFull then s.raise .journalFull else s).refuseManual p
        { status := .refused, reason := some x.reason, detail := x.source, data := [] } (some machine) := by
  simp only [State.manualRequest] at ha
  simp [State.identifyManual, h.unparked, h.closed, h.hook, h.away, hm, k, hs, ha]

end manual

/-- Settles O23: the checks passed, the authorisation opens the delivery and the other blocks leave it so. -/
theorem manualIdentificationOpens : Obligations.ManualIdentificationOpens := by
  rintro r s u n p machine raw hours m a c limit source price ht rfl hp h1 h2 hr parked state hook away hm permitted
    active auth
  have checks := State.identifyManual_opens ⟨parked, state, hook, away⟩ hm permitted active
    (hours := hours) (State.authorise_ok auth)
  exact ⟨_, Answers.of_body (fun _ => rfl) ht ((bodyIdentifyManual_checks hp h1 h2 hr).trans checks),
    State.openDelivery_opened (State.follow_followedBy _ _)⟩

/-- Settles O24: the first check that fails is the branch taken. -/
theorem manualIdentificationRefused : Obligations.ManualIdentificationRefused := by
  refine ⟨fun r s n machine raw ht hp => Answers.of_body (fun _ => rfl) ht (bodyIdentifyManual_point hp), ?_⟩
  rintro r s u n p machine raw hours ht rfl hp keepIn keep
  have answers {t : State} {x : Reply} (h : bodyIdentifyManual n machine raw (s.frameReceived r.port) = (t, x)) :
      Answers (.identifyManual r n machine raw) s r 0x10 t x := Answers.of_body (fun _ => rfl) ht h
  refine ⟨fun h => answers (bodyIdentifyManual_machine hp h), fun h => answers (bodyIdentifyManual_hours hp h),
    fun h1 h2 hr => ?_⟩
  have checks {t : State} {x : Reply} (h : (s.frameReceived r.port).identifyManual p machine hours = (t, x)) :
      Answers (.identifyManual r n machine raw) s r 0x10 t x :=
    answers ((bodyIdentifyManual_checks hp h1 h2 hr).trans h)
  refine ⟨fun h => checks (State.identifyManual_parked h), fun parked =>
    ⟨fun h => checks (State.identifyManual_open parked h), fun state =>
      ⟨fun h => checks (State.identifyManual_hung parked state h), fun hook =>
        ⟨fun h => checks (State.identifyManual_tagged parked state hook h), fun away => ?_⟩⟩⟩⟩
  have admits : (s.frameReceived r.port).AdmitsManual p := ⟨parked, state, hook, away⟩
  refine ⟨fun h => checks (State.identifyManual_unknown admits h), fun m hm =>
    ⟨fun h => checks (State.identifyManual_barred admits hm h),
      fun h k => checks (State.identifyManual_suspended admits hm h k), fun permitted active => ?_⟩⟩
  have refused {reason : Reason} {source : Option LimitSource}
      (h : (s.frameReceived r.port).Refuses p ((s.frameReceived r.port).manualRequest p m hours) reason source) :=
    checks (State.identifyManual_refused admits hm permitted active (State.authorise_refused h))
  refine ⟨fun h => refused (.standby h), fun run => ⟨fun h => refused (.machineBusy run h), fun free =>
    ⟨fun h => refused (.product run free h), fun product => ⟨fun h => refused (.closed run free product ?_),
      fun a ha => ⟨fun h => refused (.closed run free product ?_),
        fun h k => refused (.stopped a run free product ha h k), fun opened going =>
          ⟨fun h => refused (.noStock a run free product ha opened going h), fun c hc =>
            ⟨fun h => refused (.journalFull a c run free product ha opened going hc h), fun limit source slot low least =>
              refused (.belowMinimum a c limit source run free product ha opened going hc slot least low)⟩⟩⟩⟩⟩⟩⟩
  · exact fun a ha => absurd (ha.symm.trans h) (by simp)
  · intro b hb
    obtain rfl : a = b := Option.some.inj (ha.symm.trans hb)
    exact h

/-! ### Identification by tag (R34, R35, R53) -/

section tag

variable {s : State} {p : PointId} {x : ValidRead} {m : MachineRec}

/-- The third valid read of one tag reaches the coupling (R31, R33). -/
theorem State.validRead_reaches (hs : (s.coupler p).coupling = .settling2 x.tag)
    (other : (s.readValid p x (.coupled x.tag 0)).otherTag p x.tag = false) :
    s.validRead p x = (s.readValid p x (.coupled x.tag 0)).couplingReached p x := by
  have coupled : (s.coupler p).coupling.onValid x.tag = .coupled x.tag 0 := by
    rw [hs]
    exact if_pos rfl
  rw [State.validRead_eq, coupled]
  refine (if_neg (Bool.eq_false_iff.mp other)).trans (if_pos ⟨rfl, ?_⟩)
  rw [hs]
  exact Bool.false_ne_true

theorem State.couplingReached_closed (hd : (s.point p).context = none) (hs : (s.point p).state = .closed)
    (hp : (s.point p).parked = false) : s.couplingReached p x = s.identifyTag p x := by
  simp [State.couplingReached, hd, hs, hp]

theorem State.identifyTag_repeat (h : (s.point p).mode = .repeatFill) :
    s.identifyTag p x = s.refuseTag p .manualOnly x.tag none := if_pos h

theorem State.identifyTag_unknown (h : (s.point p).mode ≠ .repeatFill) (hm : findTag s.roster x.tag = none) :
    s.identifyTag p x = s.refuseTag p .unknownTag x.tag none := by
  simp only [State.identifyTag, h, hm, if_false]

theorem State.identifyTag_suspended (h : (s.point p).mode ≠ .repeatFill) (hm : findTag s.roster x.tag = some m)
    (hs : m.state = .suspended) :
    s.identifyTag p x = s.refuseTag p .machineSuspended x.tag (some m.number) := by
  simp [State.identifyTag, h, hm, hs]

/-- What an identification by tag asks to be authorised (R35). -/
def ValidRead.request (x : ValidRead) (m : MachineRec) : AuthRequest :=
  { machine := m, ident := .tag x.tag, hours := x.hours, level := x.level, fill := 0 }

theorem State.identifyTag_opens (h : (s.point p).mode ≠ .repeatFill) (hm : findTag s.roster x.tag = some m)
    (hs : m.state = .active) {t : State} (ha : s.authorise p (x.request m) = .ok t) :
    s.identifyTag p x = t.follow s := by
  simp only [ValidRead.request] at ha
  simp [State.identifyTag, h, hm, hs, ha]

theorem State.identifyTag_refused (h : (s.point p).mode ≠ .repeatFill) (hm : findTag s.roster x.tag = some m)
    (hs : m.state = .active) {y : AuthRefusal} (ha : s.authorise p (x.request m) = .error y) :
    s.identifyTag p x =
      (s.setRefusal p .refused (some y.reason) y.source (some x.tag) (some m.number)).raiseRefused y := by
  simp only [ValidRead.request] at ha
  simp [State.identifyTag, h, hm, hs, ha]

/-- The conditions of an authorisation do not read the couplers. -/
theorem State.Authorises.coupler {r : AuthRequest} {a : Account} {c : CompId} {limit price : Nat}
    {source : LimitSource} (h : s.Authorises p r a c limit source price) (y : Coupler) :
    (s.setCoupler p y).Authorises p r a c limit source price :=
  ⟨h.run, h.free, h.permitted, h.account, h.opened, h.comp, h.slot, h.locked, h.least, h.minimum⟩

theorem State.Refuses.coupler {r : AuthRequest} {reason : Reason} {source : Option LimitSource}
    (h : s.Refuses p r reason source) (y : Coupler) : (s.setCoupler p y).Refuses p r reason source := by
  cases h with
  | standby run => exact .standby run
  | machineBusy run busy => exact .machineBusy run busy
  | product run free product => exact .product run free product
  | closed run free product account => exact .closed run free product account
  | stopped a run free product account opened stopped => exact .stopped a run free product account opened stopped
  | noStock a run free product account opened going stock =>
    exact .noStock a run free product account opened going stock
  | journalFull a c run free product account opened going comp full =>
    exact .journalFull a c run free product account opened going comp full
  | belowMinimum a c limit source run free product account opened going comp slot least low =>
    exact .belowMinimum a c limit source run free product account opened going comp slot least low

theorem State.Opened.coupler {t : State} {r : AuthRequest} {a : Account} {c : CompId} {limit price : Nat}
    {source : LimitSource} {y : Coupler} (h : (s.setCoupler p y).Opened t p r a c limit source price) :
    s.Opened t p r a c limit source price :=
  ⟨h.state, h.timer, h.context, h.machines, h.accounts, h.comps, h.channel, h.outcome, h.otherContext, h.records, h.kept⟩

end tag

/-- Settles O25: the third read reaches the coupling, and the branch of R34 is taken. -/
theorem tagIdentifies : Obligations.TagIdentifies := by
  intro s u p x awake hook settling idle closed unparked hu
  have read : u = s.readValid p (TagReply.read x) (.coupled x.tag 0) := hu
  have row {t : State} (h : u.identifyTag p (TagReply.read x) = t) : exec (.tagRead p (some x)) s = .next t := by
    subst read
    refine (exec_tagRead_valid x awake hook).trans (congrArg Host.Outcome.next ?_)
    refine (State.validRead_reaches settling (State.otherTag_none idle _)).trans ?_
    exact (State.couplingReached_closed (s := s.readValid p (TagReply.read x) (.coupled x.tag 0)) idle closed
      unparked).trans h
  have point : u.point p = s.point p := by rw [read]; rfl
  have roster : u.roster = s.roster := by rw [read]; rfl
  rw [← point, ← roster]
  refine ⟨fun m q mode hm active hq => ⟨fun a c limit source price auth => ?_, fun reason source refuses v hv => ?_⟩,
    fun m mode hm suspended => row (State.identifyTag_suspended mode hm suspended),
    fun mode hm => row (State.identifyTag_unknown mode hm), fun mode => row (State.identifyTag_repeat mode)⟩
  · subst hq
    have asks : u.Authorises p ((TagReply.read x).request m) a c limit source price := by
      rw [read]
      exact auth.coupler _
    refine ⟨_, row (State.identifyTag_opens mode hm active (State.authorise_ok asks)), ?_⟩
    have opened := State.openDelivery_opened
      (State.follow_followedBy (u.openDelivery p ((TagReply.read x).request m) a c limit source price) u)
    subst read
    exact opened.coupler
  · subst hq hv
    have asks : u.Refuses p ((TagReply.read x).request m) reason source := by
      rw [read]
      exact refuses.coupler _
    exact row (State.identifyTag_refused mode hm active (State.authorise_refused asks))

end Sys2Proof.Machine

/-! SUPPORT AND CERTIFICATES. Coupling supervision of a tag-identified delivery (R37 to R39). -/

namespace Sys2Proof.Machine

open Sys2Proof

section supervision

variable {s t : State} {p : PointId} {d : Delivery} {w : TagId} {y : Coupler}

/-- The figures, records and notices of a close do not read the couplers. -/
theorem State.Settles.coupler {v : Bool} (h : (s.setCoupler p y).Settles t d v) : s.Settles t d v :=
  ⟨h.machines, h.accounts, h.stock, h.tally⟩

theorem State.Warns.coupler (h : (s.setCoupler p y).Warns t d) : s.Warns t d := ⟨h.stop, h.short⟩

theorem State.ShortRecords.coupler {l : List Record} (h : (s.setCoupler p y).ShortRecords p d l) :
    s.ShortRecords p d l := ⟨h.enough, h.alone, h.each⟩

theorem State.Records.coupler {k : EndCause} {b : Bool} {r : Record}
    (h : (s.setCoupler p y).Records t p d k b r) : s.Records t p d k b r := by
  obtain ⟨⟨l, records, short⟩, time, body, settles⟩ := h
  exact ⟨⟨l, records, short.coupler⟩, time, body, settles.coupler⟩

theorem State.Closes.coupler {k : EndCause} (h : (s.setCoupler p y).Closes t p d k) : s.Closes t p d k := by
  refine ⟨h.state, h.valves, h.timers, h.suction, h.channel, fun void => ?_, fun charged => ?_⟩
  · obtain ⟨last, records, settles⟩ := h.void void
    exact ⟨last, records, settles.coupler⟩
  · obtain ⟨r, records, warns, last⟩ := h.record charged
    exact ⟨r, records.coupler, warns.coupler, last⟩

theorem State.Suspended.coupler {k : Cause} (h : (s.setCoupler p y).Suspended t p k) : s.Suspended t p k :=
  ⟨h.state, h.valves, h.pressWait, h.pumpSuspend, h.suction, h.context⟩

/-- Only a fill that ends with PRESET is armed again (R92). -/
theorem State.closeOn_closes {k : EndCause} (hd : (s.point p).context = some d) (hr : s.rearms p d k = false)
    (hf : (s.closeOn p k).FollowedBy t) : s.Closes t p d k := by
  have close : s.closeOn p k = s.close p k false := by
    simp only [State.closeOn, hd, hr, Bool.false_eq_true, if_false]
  rw [close] at hf
  exact State.close_closes hd hf

theorem PointState.unfinished_of_wantsFlow {x : PointState} (h : x.wantsFlow = true) : x.unfinished = true := by
  cases x <;> simp_all [PointState.wantsFlow, PointState.unfinished]

theorem State.otherTag_own (hd : (s.point p).context = some d) (hi : d.ident = .tag w) (x : TagId) :
    s.otherTag p x = (w != x) := by
  simp only [State.otherTag, hd, hi]

/-- The third failed read in a row loses the coupling (R31, R37). -/
theorem State.failedRead_loses (hd : (s.point p).context = some d) (hi : d.ident = .tag w)
    (hc : (s.coupler p).coupling = .coupled w 2) : s.failedRead p = (s.readFailed p (.lost w)).couplingLost p := by
  have own : (s.readFailed p (.lost w)).ownTag p w = true := by
    have context : ((s.readFailed p (.lost w)).point p).context = some d := hd
    simp [State.ownTag, context, hi]
  have lost : Coupling.onFailed (.coupled w 2) = .lost w := rfl
  unfold State.failedRead
  simp only [hc, lost]
  exact if_pos own

/-- A point that wants flow is suspended, and its grace timer runs (R37). -/
theorem State.couplingLost_suspends (h : (s.point p).state.wantsFlow = true) :
    s.Suspended (s.couplingLost p) p .couplingLost ∧
      (s.couplingLost p).coupler p = { s.coupler p with grace := some s.times.grace } := by
  have lost : s.couplingLost p =
      ((s.setCoupler p { s.coupler p with grace := some s.times.grace }).suspend p .couplingLost).follow s := by
    refine (if_pos (PointState.unfinished_of_wantsFlow h)).trans (congrArg (State.follow · s) ?_)
    exact if_pos h
  have hf := State.follow_followedBy
    ((s.setCoupler p { s.coupler p with grace := some s.times.grace }).suspend p .couplingLost) s
  rw [← lost] at hf
  refine ⟨(State.suspend_suspended hf).coupler, (hf.couplersStill p (by simp [State.suspend])).trans ?_⟩
  simp only [State.suspend_frame, State.setCoupler_coupler_same]

/-- The delivery's own identity is reached again while the grace timer runs (R38). -/
theorem State.couplingReached_own {x : ValidRead} (hd : (s.point p).context = some d) (hi : d.ident = .tag x.tag)
    (hg : (s.coupler p).grace.isSome = true) : s.couplingReached p x = s.regain p := by
  simp only [State.couplingReached, hd, hi, hg, and_self, if_true]

end supervision

/-- Settles O27: the third failed read, the third read of the delivery's own tag, and a read of another. -/
theorem couplingIsSupervised : Obligations.CouplingIsSupervised := by
  intro s p d w awake hook hd hi
  refine ⟨fun coupled flow => ?_, fun x hx settling grace lost => ?_, fun x hx => ?_⟩
  · obtain ⟨suspended, coupler⟩ := State.couplingLost_suspends (s := s.readFailed p (.lost w)) (p := p) flow
    refine ⟨_, (exec_tagRead_failed awake hook).trans (congrArg Host.Outcome.next
      (State.failedRead_loses hd hi coupled)), suspended.coupler, ?_, ?_⟩
    · rw [coupler]
      rfl
    · rw [coupler, State.readFailed, State.setCoupler_coupler_same]
  · subst hx
    have own : (s.readValid p (TagReply.read x) (.coupled x.tag 0)).otherTag p (TagReply.read x).tag = false := by
      rw [State.otherTag_own (s := s.readValid p (TagReply.read x) (.coupled x.tag 0)) hd hi]
      exact bne_self_eq_false x.tag
    refine (exec_tagRead_valid x awake hook).trans (congrArg Host.Outcome.next ?_)
    refine (State.validRead_reaches settling own).trans ?_
    refine (State.couplingReached_own (s := s.readValid p (TagReply.read x) (.coupled x.tag 0)) hd hi ?_).trans ?_
    · simpa [State.readValid] using grace
    · refine (if_pos (c := (((s.readValid p (TagReply.read x) (.coupled x.tag 0)).stopGrace p).point p).state =
        .suspended .couplingLost) lost).trans ?_
      cases p <;> rfl
  · have other : (s.readValid p (TagReply.read x) ((s.coupler p).coupling.onValid x.tag)).otherTag p x.tag = true := by
      rw [State.otherTag_own (s := s.readValid p (TagReply.read x) _) hd hi]
      exact bne_iff_ne.mpr (Ne.symm hx)
    refine ⟨_, (exec_tagRead_valid x awake hook).trans (congrArg Host.Outcome.next (if_pos other)), ?_⟩
    exact State.Closes.coupler (State.closeOn_closes (s := s.readValid p (TagReply.read x) _) hd rfl
      (State.follow_followedBy _ _))

end Sys2Proof.Machine

/-! SUPPORT AND CERTIFICATES. The timers that close a delivery (R73, R79, R81, R82, R38) and the re-arm of a REPEAT fill
(R92). -/

namespace Sys2Proof.Machine

open Sys2Proof

/-! ### Notices between a close and what follows -/

section notices

variable {s t : State}

theorem Port.raise_kept (x : Port) (n : Notice) :
    x.raise n = { x with notices := (x.raise n).notices, attention := (x.raise n).attention } := rfl

/-- A raised notice leaves what the other blocks leave. -/
theorem State.raise_followedBy (n : Notice) : s.FollowedBy (s.raise n) := by
  refine ⟨rfl, rfl, rfl, fun _ => rfl, fun _ _ => rfl, fun p => Point.MovesTo.refl _, rfl,
    fun _ _ h k => ⟨h, k, rfl, rfl⟩, rfl, fun _ => rfl, fun _ h => h, fun _ x h => ⟨x, h, .refl x⟩, rfl, rfl,
    fun o => ?_, fun _ _ _ h => State.raise_keeps s n h, rfl, ?_⟩
  · rw [State.raise_port]
    split
    · exact Port.raise_kept _ n
    · rfl
  · exact ⟨rfl, rfl, rfl, rfl, rfl, rfl, rfl, rfl, rfl, rfl, rfl, rfl, rfl⟩

theorem State.raiseRefused_followedBy (x : AuthRefusal) : s.FollowedBy (s.raiseRefused x) := by
  unfold State.raiseRefused
  split
  · exact (State.raise_followedBy _).trans (State.raise_followedBy _)
  · exact State.raise_followedBy _

/-- The notices of a refusal are kept by the blocks that follow (R53, R157). -/
theorem State.raiseRefused_tells {x : AuthRefusal} (hf : (s.raiseRefused x).FollowedBy t) :
    (t.port .operator).has .authRefused = true ∧
      (x.reason = .journalFull →
        (t.port .operator).has .journalFull = true ∧ (t.port .office).has .journalFull = true) := by
  have refused : ((s.raise .authRefused).port .operator).has .authRefused = true := State.raised s rfl
  unfold State.raiseRefused at hf
  split at hf
  · exact ⟨hf.notices _ _ (by decide) (State.raise_keeps _ _ refused), fun _ =>
      ⟨hf.notices _ _ (by decide) (State.raised _ rfl), hf.notices _ _ (by decide) (State.raised _ rfl)⟩⟩
  · next h => exact ⟨hf.notices _ _ (by decide) refused, fun k => absurd k h⟩

end notices

/-! ### Timers that close a delivery -/

section timers

variable {s t : State} {p : PointId} {d : Delivery} {x : Timer} {k : EndCause}

theorem State.expireClose_closes (hd : (s.point p).context = some d) (hx : x.isSome = true)
    (hr : s.rearms p d k = false) : s.Closes (s.expireClose p x k) p d k := by
  rw [State.expireClose, if_pos hx]
  exact State.closeOn_closes hd hr (State.follow_followedBy _ _)

theorem exec_meterSettle (hx : (s.point p).meterSettle.isSome = true) (hk : (s.point p).pendingEnd = some k) :
    exec (.meterSettleExpiry p) s = .next ((s.closeOn p k).follow s) := by
  refine congrArg Host.Outcome.next ?_
  rw [hk]
  exact if_pos hx

theorem State.rearms_iff :
    s.rearms p d k = true ↔
      k = .preset ∧ d.fill ≠ 0 ∧ (s.point p).mode = .repeatFill ∧ (s.point p).seriesEnds = false ∧
        d.fill < d.repeatCount ∧ (s.coupler p).offHook = true := by
  simp [State.rearms, and_assoc]

/-- A fill that is not armed again ends its series (R92). -/
theorem State.rearms_not
    (h : k ≠ .preset ∨ d.fill = 0 ∨ d.repeatCount ≤ d.fill ∨ (s.point p).seriesEnds = true ∨
      (s.point p).mode ≠ .repeatFill ∨ (s.coupler p).offHook = false) : s.rearms p d k = false := by
  rw [← Bool.not_eq_true, State.rearms_iff]
  rintro ⟨preset, fill, mode, ends, count, hook⟩
  rcases h with h | h | h | h | h | h
  · exact h preset
  · exact fill h
  · omega
  · rw [ends] at h
    cases h
  · exact h mode
  · rw [hook] at h
    cases h

theorem State.closeOn_rearms (hd : (s.point p).context = some d) (hr : s.rearms p d k = true) :
    s.closeOn p k = (s.close p k false).rearm p d (s.point p).preset := by
  simp only [State.closeOn, hd, hr, if_true]

end timers

/-! ### The re-arm (R92) -/

section rearm

variable {s u t : State} {p : PointId} {d : Delivery} {m : MachineRec}

/-- The state a fill is armed again in: the close's, with the point's preset back (R92). -/
def State.rearmed (u : State) (p : PointId) (x : Option Preset) : State :=
  u.setPoint p { u.point p with preset := x }

/-- What the next fill asks to be authorised. -/
def nextFill (m : MachineRec) (d : Delivery) : AuthRequest :=
  { machine := m, ident := .manual, hours := none, level := none, fill := d.fill + 1 }

theorem State.rearm_unknown {x : Option Preset} (h : findMachine u.roster d.machine = none) :
    u.rearm p d x = u.raiseRefused { reason := .productNotAtPoint, source := none } := by
  rw [State.rearm, h]

theorem State.rearm_opens {x : Option Preset} (h : findMachine u.roster d.machine = some m) {v : State}
    (ha : (u.rearmed p x).authorise p (nextFill m d) = .ok v) : u.rearm p d x = v := by
  simp only [State.rearmed, nextFill] at ha
  simp only [State.rearm, h, ha]

theorem State.rearm_refused {x : Option Preset} (h : findMachine u.roster d.machine = some m) {y : AuthRefusal}
    (ha : (u.rearmed p x).authorise p (nextFill m d) = .error y) : u.rearm p d x = u.raiseRefused y := by
  simp only [State.rearmed, nextFill] at ha
  simp only [State.rearm, h, ha]

/-- The point an authorisation opens keeps its preset and takes the fill (R67). -/
theorem State.openDelivery_fill {r : AuthRequest} {a : Account} {c : CompId} {limit price : Nat} {source : LimitSource}
    (hf : (s.openDelivery p r a c limit source price).FollowedBy t) :
    (t.point p).fill = r.fill ∧ (t.point p).preset = (s.point p).preset := by
  have point : t.point p = (s.openDelivery p r a c limit source price).point p :=
    (hf.points p).still (by simp [State.openDelivery])
  rw [point]
  simp [State.openDelivery]

/-- Settles O31: each timer's close, and the re-arm in the state that the close leaves. -/
theorem timersCloseDeliveries : Obligations.TimersCloseDeliveries := by
  intro s p d hd
  refine ⟨fun h => ⟨_, rfl, State.expireClose_closes hd h rfl⟩, fun h => ⟨_, rfl, State.expireClose_closes hd h rfl⟩,
    fun h => ⟨_, rfl, State.expireClose_closes hd h rfl⟩, fun h => ⟨_, rfl, State.expireClose_closes hd h rfl⟩,
    fun k hx hk h => ⟨_, exec_meterSettle hx hk,
      State.closeOn_closes hd (State.rearms_not h) (State.follow_followedBy _ _)⟩, ?_⟩
  rintro hx hk fill count ends mode hook u v rfl hv
  have read : v = (s.close p .preset false).rearmed p (s.point p).preset := hv
  have row {w : State} (h : (s.close p .preset false).rearm p d (s.point p).preset = w) :
      exec (.meterSettleExpiry p) s = .next (w.follow s) := by
    rw [exec_meterSettle hx hk, State.closeOn_rearms hd (State.rearms_iff.mpr ⟨rfl, fill, mode, ends, count, hook⟩), h]
  have refused (y : AuthRefusal) : s.Closes (((s.close p .preset false).raiseRefused y).follow s) p d .preset :=
    State.close_closes hd ((State.raiseRefused_followedBy y).trans (State.follow_followedBy _ s))
  refine ⟨State.close_closes hd (.refl _), fun m hm r hr => ⟨fun a c limit source price auth => ?_,
    fun reason source refuses => ?_⟩, fun hm => ⟨_, row (State.rearm_unknown hm), refused _,
      (State.raiseRefused_tells (State.follow_followedBy _ s)).1⟩⟩
  · subst hr
    have opens := State.authorise_ok auth
    rw [read] at opens
    have hf := State.follow_followedBy (v.openDelivery p (nextFill m d) a c limit source price) s
    obtain ⟨fills, preset⟩ := State.openDelivery_fill hf
    refine ⟨_, row (State.rearm_opens hm opens), ?_⟩
    rw [← read]
    exact ⟨State.openDelivery_opened hf, fills, preset.trans (by rw [read, State.rearmed, State.setPoint_point_same])⟩
  · subst hr
    have refusal := State.authorise_refused refuses
    rw [read] at refusal
    obtain ⟨told, full⟩ := State.raiseRefused_tells
      (State.follow_followedBy ((s.close p .preset false).raiseRefused { reason := reason, source := source }) s)
    exact ⟨_, row (State.rearm_refused hm refusal), refused _, told, full⟩

end rearm

end Sys2Proof.Machine

/-! SUPPORT AND CERTIFICATES. What suspends flow: a release of the trigger (R80) and the console's silence (R83, R185,
R186). -/

namespace Sys2Proof.Machine

open Sys2Proof

section release

variable {s t : State} {p : PointId}

/-- The trigger moved, before the point acts (R74, R80). -/
def State.triggered (s : State) (p : PointId) (on : Bool) : State := s.setPoint p { s.point p with trigger := on }

theorem State.triggered_point (on : Bool) : (s.triggered p on).point p = { s.point p with trigger := on } := by
  rw [State.triggered, State.setPoint_point_same]

theorem exec_triggerRelease (awake : s.inReset = false) (h : (s.point p).trigger = true) :
    exec (.triggerRelease p) s = .next ((s.triggered p false).letGo p) :=
  congrArg Host.Outcome.next ((if_pos h).trans (if_neg (Bool.eq_false_iff.mp awake)))

/-- A suspension under a moved trigger is one of the point (R80). -/
theorem State.Suspended.triggered {k : Cause} {on : Bool} (h : (s.triggered p on).Suspended t p k) :
    s.Suspended t p k :=
  { state := h.state, valves := h.valves, pressWait := h.pressWait, pumpSuspend := h.pumpSuspend, suction := h.suction
    context := h.context.trans (by rw [State.triggered_point]) }

end release

section console

variable {s : State}

/-- The console is found silent, before mode STOP acts (R185). -/
def State.hushed (s : State) : State :=
  (s.setWatch { s.watch with timer := none, silent := true }).raise .consoleSilent

theorem State.findSilent_report (h : s.watch.mode = .report) : s.findSilent = s.hushed := by
  have mode : s.hushed.watch.mode = .report := h
  unfold State.findSilent
  dsimp only
  split
  next => rfl
  next other => exact absurd (other.symm.trans mode) (by decide)

/-- The state that mode STOP suspends the points in (R83). -/
def State.blocked (s : State) : State := s.hushed.setWatch { s.hushed.watch with block := true }

theorem State.findSilent_stop (h : s.watch.mode = .stop) :
    s.findSilent = (s.blocked.suspendFlow .a .consoleSilent).suspendFlow .b .consoleSilent := by
  have mode : s.hushed.watch.mode = .stop := h
  unfold State.findSilent
  dsimp only
  split
  next other => exact absurd (other.symm.trans mode) (by decide)
  next => rfl

theorem exec_consoleTimer_runs (h : s.watch.overtaken = 0) (k : s.watch.timer.isSome = true) :
    exec .consoleTimerExpiry s = .next (s.findSilent.follow s) :=
  congrArg Host.Outcome.next ((if_neg (not_not_intro h)).trans (if_pos k))

theorem exec_consoleTimer_overtaken (h : s.watch.overtaken ≠ 0) :
    exec .consoleTimerExpiry s = .next (s.setWatch { s.watch with overtaken := s.watch.overtaken - 1 }) :=
  congrArg Host.Outcome.next (if_pos h)

theorem State.suspendFlow_kept (p : PointId) (k : Cause) :
    (s.suspendFlow p k).watch = s.watch ∧ (s.suspendFlow p k).ports = s.ports := by
  unfold State.suspendFlow
  split
  · simp only [State.suspend_frame, and_self]
  · exact ⟨rfl, rfl⟩

end console

/-- Settles O33: the suspensions of R80 and R83, and the expiry that a frame has overtaken. -/
theorem flowIsSuspended : Obligations.FlowIsSuspended := by
  intro s p
  refine ⟨fun awake held => ⟨fun mode flow => ?_, fun h => ?_⟩, fun fresh runs => ⟨fun mode => ?_, fun mode => ?_⟩,
    exec_consoleTimer_overtaken, fun why rest pending active => ?_⟩
  · have point := s.triggered_point (p := p) false
    have hf := State.follow_followedBy ((s.triggered p false).suspend p .triggerReleased) (s.triggered p false)
    have lets : (s.triggered p false).letGo p =
        ((s.triggered p false).suspend p .triggerReleased).follow (s.triggered p false) :=
      if_pos ⟨by rw [point]; exact mode, by rw [point]; exact flow⟩
    rw [exec_triggerRelease awake held, lets]
    refine ⟨_, rfl, (State.suspend_suspended hf).triggered, ?_⟩
    rw [(hf.points p).still (by simp [State.suspend])]
    simp [State.suspend, Point.shut, Point.stopTimers, point]
  · refine (exec_triggerRelease awake held).trans (congrArg Host.Outcome.next (if_neg fun k => ?_))
    rw [State.triggered_point] at k
    rcases h with h | h
    · exact h k.1
    · exact Bool.false_ne_true (h.symm.trans k.2)
  · rw [exec_consoleTimer_runs fresh runs, State.findSilent_stop mode]
    have hf := State.follow_followedBy ((s.blocked.suspendFlow .a .consoleSilent).suspendFlow .b .consoleSilent) s
    obtain ⟨watchB, portsB⟩ := (s.blocked.suspendFlow .a .consoleSilent).suspendFlow_kept .b .consoleSilent
    obtain ⟨watchA, portsA⟩ := s.blocked.suspendFlow_kept .a .consoleSilent
    have watch := hf.watch
    rw [watchB, watchA] at watch
    obtain ⟨wants, stays⟩ := State.suspendBoth s.blocked .consoleSilent p
    refine ⟨_, rfl, by rw [watch]; rfl, by rw [watch]; rfl, ?_, fun flow => ?_, fun flow => ?_⟩
    · refine hf.notices .office .consoleSilent (by decide) ?_
      have told : (s.hushed.port .office).has .consoleSilent = true := State.raised _ rfl
      have kept : ((s.blocked.suspendFlow .a .consoleSilent).suspendFlow .b .consoleSilent).port .office =
          s.hushed.port .office := congrArg (Triple.port · .office) (portsB.trans portsA)
      rw [kept]
      exact told
    · obtain ⟨state, valves, wait, pump, suction, context⟩ := (wants flow).followed hf
      exact ⟨state, valves, wait, pump, suction, context⟩
    · have point := stays flow
      refine ((hf.points p).still ?_).trans point
      rw [point]
      intro waits
      have flow' : (s.point p).state.wantsFlow = false := flow
      rw [show (s.point p).state = .waitSuction from waits] at flow'
      cases flow'
  · refine ⟨_, State.follow_followedBy _ s, ?_⟩
    rw [exec_consoleTimer_runs fresh runs, State.findSilent_report mode]
    rfl
  · obtain ⟨t, first, -, -, -, -, notices, -, others, -, operator⟩ :=
      badFrame_heard .operator why { s with pending := .consoleTimerExpiry :: rest }
    obtain ⟨watch, points, kept⟩ := operator rfl
    have active' : State.watchActive { s with pending := .consoleTimerExpiry :: rest } = true := active
    rw [active'] at watch
    have pending' : t.pending = .consoleTimerExpiry :: rest := congrArg State.pending kept
    have overtaken : t.watch.overtaken ≠ 0 := by
      rw [watch]
      simp
    have step1 : step s = .next t := by
      unfold step
      rw [pending]
      exact first
    have step2 : step t = .next (State.setWatch { t with pending := rest }
        { t.watch with overtaken := t.watch.overtaken - 1 }) := by
      unfold step
      rw [pending']
      exact exec_consoleTimer_overtaken (s := { t with pending := rest }) overtaken
    refine ⟨t, _, step1, step2, ?_, ?_, ?_, rfl, rfl, fun o => ?_, fun q hq => ?_⟩
    · show t.watch.timer = _
      rw [watch]
      rfl
    · show t.watch.silent = _
      rw [watch]
    · show t.watch.block = _
      rw [watch]
    · by_cases ho : o = .operator
      · rw [ho]
        exact notices
      · exact congrArg Port.notices (others o ho)
    · exact (points q).trans (if_neg hq)

end Sys2Proof.Machine

/-! SUPPORT AND CERTIFICATES. The arbiter's grants, releases and picks (R97, R98, R100), and a press that asks for flow
(R74 to R76, R96). -/

namespace Sys2Proof.Machine

open Sys2Proof

/-! ### A grant and the other point (R98) -/

section grants

variable {s t : State} {p q : PointId} {c : CompId}

/-- A grant writes its own point's requests and claim alone; the point is admitted no more, or stays as it was. -/
theorem State.grant_arbiter (s : State) (q : PointId) :
    ∃ w x y z, (s.grant q).arbiter =
      { s.arbiter with
        waiting := s.arbiter.waiting.set q w, admitted := s.arbiter.admitted.set q x
        claims := s.arbiter.claims.set q y, hold := s.arbiter.hold.set q z } ∧
      (x = false ∨ x = s.arbiter.admitted.get q) := by
  have still : ∃ w x y z, s.arbiter =
      { s.arbiter with
        waiting := s.arbiter.waiting.set q w, admitted := s.arbiter.admitted.set q x
        claims := s.arbiter.claims.set q y, hold := s.arbiter.hold.set q z } ∧
      (x = false ∨ x = s.arbiter.admitted.get q) :=
    ⟨s.arbiter.waiting.get q, s.arbiter.admitted.get q, s.arbiter.claims.get q, s.arbiter.hold.get q,
      by simp only [Pair.set_get], .inr rfl⟩
  unfold State.grant
  split
  · unfold State.grantFlow
    dsimp only
    split
    · exact ⟨none, false, .none, none, by cases q <;> rfl, .inl rfl⟩
    · exact ⟨none, false, .flowing, none, by cases q <;> rfl, .inl rfl⟩
  · exact still

theorem State.grant_point_ne (s : State) (h : p ≠ q) : (s.grant q).point p = s.point p := by
  unfold State.grant
  split
  · unfold State.grantFlow
    dsimp only
    split
    · rw [State.finish_point_ne _ _ _ _ h]
      simp [h]
    · simp [State.flow, h]
  · rfl

/-- A grant, where the point has been admitted (R98). -/
def State.grantIf (s : State) (on : Bool) (q : PointId) : State := if on then s.grant q else s

/-- What the grants of one arrival keep of the arbiter: the selector and its motor, and that no point stays admitted. -/
structure Arbiter.Keeps (a b : Arbiter) : Prop where
  selector : b.selector = a.selector
  motor : b.motor = a.motor
  travel : b.travel = a.travel
  last : b.lastGranted = a.lastGranted
  admitted : a.admitted = { a := false, b := false } → b.admitted = { a := false, b := false }

theorem Arbiter.Keeps.trans {a b x : Arbiter} (h : a.Keeps b) (k : b.Keeps x) : a.Keeps x :=
  ⟨k.selector.trans h.selector, k.motor.trans h.motor, k.travel.trans h.travel, k.last.trans h.last,
    fun e => k.admitted (h.admitted e)⟩

theorem State.grantIf_keeps (s : State) (on : Bool) (q : PointId) : s.arbiter.Keeps (s.grantIf on q).arbiter := by
  cases on with
  | false => exact ⟨rfl, rfl, rfl, rfl, id⟩
  | true =>
    obtain ⟨w, x, y, z, arbiter, hx⟩ := s.grant_arbiter q
    have granted : (s.grantIf true q).arbiter = (s.grant q).arbiter := rfl
    rw [granted, arbiter]
    refine ⟨rfl, rfl, rfl, rfl, fun none => ?_⟩
    have no : s.arbiter.admitted.get q = false := by rw [none]; cases q <;> rfl
    have off : x = false := by
      rcases hx with hx | hx
      · exact hx
      · exact hx.trans no
    show s.arbiter.admitted.set q x = _
    rw [none, off]
    cases q <;> rfl

/-- The other point's requests, claim and record stay as one point is granted. -/
structure State.SameAt (s t : State) (p : PointId) : Prop where
  point : t.point p = s.point p
  waiting : t.arbiter.waiting.get p = s.arbiter.waiting.get p
  claims : t.arbiter.claims.get p = s.arbiter.claims.get p
  hold : t.arbiter.hold.get p = s.arbiter.hold.get p

theorem State.grantIf_sameAt (s : State) (on : Bool) (h : p ≠ q) : s.SameAt (s.grantIf on q) p := by
  cases on with
  | false => exact ⟨rfl, rfl, rfl, rfl⟩
  | true =>
    obtain ⟨w, x, y, z, arbiter, -⟩ := s.grant_arbiter q
    refine ⟨s.grant_point_ne h, ?_, ?_, ?_⟩ <;>
      rw [show (s.grantIf true q).arbiter = (s.grant q).arbiter from rfl, arbiter] <;>
      exact Pair.get_set_ne _ _ _ _ h

theorem State.grantIf_off (s : State) (q : PointId) : s.grantIf false q = s := rfl

theorem State.SameAt.trans {u : State} (h : s.SameAt t p) (k : t.SameAt u p) : s.SameAt u p :=
  ⟨k.point.trans h.point, k.waiting.trans h.waiting, k.claims.trans h.claims, k.hold.trans h.hold⟩

/-- A point that flows in `t` flows in any state that leaves it so. -/
theorem State.Flows.sameAt {u : State} {d : Delivery} (h : s.Flows t p d) (k : t.SameAt u p) : s.Flows u p d :=
  ⟨by rw [k.point]; exact h.state, by rw [k.point]; exact h.valves, by rw [k.point]; exact h.started,
    by rw [k.claims, k.hold, k.waiting]; exact h.claim, by rw [k.point]; exact h.context⟩

/-- The selector is HELD(c), before the admitted points receive their grants (R98). -/
def State.heldOn (s : State) (c : CompId) : State :=
  s.setArbiter
    { s.arbiter with selector := .held c, motor := false, travel := none, admitted := { a := false, b := false } }

theorem State.grantAdmitted_eq (s : State) (c : CompId) :
    s.grantAdmitted c = ((s.heldOn c).grantIf s.arbiter.admitted.a .a).grantIf s.arbiter.admitted.b .b := rfl

/-- A point ready to flow: waiting for suction with room before its limit (R76). -/
structure State.Ready (s : State) (p : PointId) (d : Delivery) : Prop where
  waits : (s.point p).state = .waitSuction
  context : (s.point p).context = some d
  press : (s.point p).pressWait = none
  room : cLof d.net_uL + (s.point p).closeAhead < d.limit

theorem State.Ready.sameAt {d : Delivery} (h : s.Ready p d) (k : s.SameAt t p) : t.Ready p d := by
  obtain ⟨waits, context, press, room⟩ := h
  exact ⟨by rw [k.point, waits], by rw [k.point, context], by rw [k.point, press], by rw [k.point]; exact room⟩

theorem State.Ready.granted {d : Delivery} (h : s.Ready p d) : s.Flows (s.grant p) p d :=
  (State.grant_flows s p d h.context h.waits h.press h.room).1

/-- Flows reads its first state at the point's settings alone. -/
theorem State.Flows.of_point {u : State} {d : Delivery} (h : s.Flows t p d) (k : s.point p = u.point p) :
    u.Flows t p d := ⟨by rw [← k]; exact h.state, by rw [← k]; exact h.valves, h.started, h.claim, h.context⟩

/-- Each admitted point that is ready flows; one that was not admitted stays (R98). -/
theorem State.grantAdmitted_point (s : State) (c : CompId) (p : PointId) :
    (∀ d, s.arbiter.admitted.get p = true → s.Ready p d → s.Flows (s.grantAdmitted c) p d) ∧
      (s.arbiter.admitted.get p = false → s.SameAt (s.grantAdmitted c) p) := by
  have held : s.SameAt (s.heldOn c) p := ⟨rfl, rfl, rfl, rfl⟩
  rw [State.grantAdmitted_eq]
  cases p with
  | a =>
    have after := State.grantIf_sameAt ((s.heldOn c).grantIf s.arbiter.admitted.a .a) s.arbiter.admitted.b
      (p := .a) (q := .b) (by decide)
    refine ⟨fun d admitted ready => ?_, fun not => ?_⟩
    · have on : s.arbiter.admitted.a = true := admitted
      rw [on] at after ⊢
      exact ((ready.sameAt held).granted.sameAt after).of_point rfl
    · have off : s.arbiter.admitted.a = false := not
      rw [off] at after ⊢
      exact held.trans after
  | b =>
    have before := State.grantIf_sameAt (s.heldOn c) s.arbiter.admitted.a (p := .b) (q := .a) (by decide)
    refine ⟨fun d admitted ready => ?_, fun not => ?_⟩
    · have on : s.arbiter.admitted.b = true := admitted
      rw [on]
      exact (ready.sameAt (held.trans before)).granted.of_point (held.trans before).point
    · have off : s.arbiter.admitted.b = false := not
      rw [off]
      exact held.trans before

theorem State.grantAdmitted_keeps (s : State) (c : CompId) : (s.heldOn c).arbiter.Keeps (s.grantAdmitted c).arbiter :=
  (State.grantIf_keeps _ _ _).trans (State.grantIf_keeps _ _ _)

/-- A selector held for a point that flows has nothing to release. -/
theorem Arbiter.rests_of_claim {a : Arbiter} (h : a.selector = .held c) (k : a.claims.get p ≠ .none) : a.Rests :=
  .inr (.inl ⟨c, h, Arbiter.claims_ne _ p k⟩)

end grants

/-! ### A pick (R97, R98) -/

section picks

variable {s u : State} {p : PointId} {c : CompId}

/-- Where the arbiter releases and picks once and then rests, so do the blocks that follow. -/
theorem State.follow_picks (old : State) (hl : s.loader.Rests) (hu : s.testRelease.pick = u) (hr : u.arbiter.Rests) :
    (s.follow old).arbiter = u.arbiter ∧ (s.follow old).points = u.points := by
  have loader : u.loader = s.loader := by
    rw [← hu]
    simp only [State.pick_frame, State.testRelease_frame]
  have once : s.arbitrate = u := by
    unfold State.arbitrate
    rw [hu, State.testRelease_rests u hr, State.pick_rests u hr, State.testRelease_rests u hr, State.pick_rests u hr]
  have settles : s.settle = u := by
    unfold State.settle
    rw [State.advance_rests s hl, once, State.advance_rests u (by rw [loader]; exact hl), State.arbitrate_rests u hr]
  obtain ⟨arbiter, points, -⟩ := State.follow_settle s old
  rw [settles] at arbiter points
  exact ⟨arbiter, points⟩

/-- The request of R97's pick: alone, or the winner of a tie. -/
theorem State.choice_of (hw : s.arbiter.waiting.get p = some c) (hb : s.barred c = false)
    (tie : ∀ l, s.arbiter.waiting.get p.other = some l → s.barred l = false → s.arbiter.WinsTie p) :
    s.choice = some (p, c) := by
  have own : s.eligibleRequest p = some c := by simp [State.eligibleRequest, hw, hb]
  have winner (h : s.arbiter.WinsTie p) : s.arbiter.winner = p := by
    unfold Arbiter.winner
    split
    next e => exact (h.fixed e).symm
    next q e => exact (h.lowest q e).symm
    next e =>
      obtain ⟨first, later⟩ := h.rotate e
      cases hg : s.arbiter.lastGranted with
      | none => exact (first hg).symm
      | some q => exact (later q hg).symm
  have wins {l : CompId} (h : s.eligibleRequest p.other = some l) : s.arbiter.winner = p := by
    simp only [State.eligibleRequest, Option.filter_eq_some_iff, Bool.not_eq_true'] at h
    exact winner (tie l h.1 h.2)
  cases p with
  | a =>
    cases hr : s.eligibleRequest .b with
    | none => simp only [State.choice, own, hr]
    | some l => simp only [State.choice, own, hr, wins hr]
  | b =>
    cases hr : s.eligibleRequest .a with
    | none => simp only [State.choice, own, hr]
    | some l => simp only [State.choice, own, hr, wins hr]

theorem State.pick_idle {pos : Option CompId} (hs : s.arbiter.selector = .idle pos) (h : s.choice = some (p, c)) :
    s.pick = s.grantTo p c := by
  simp only [State.pick, hs, h]

/-- The arbiter with every request for `c` admitted and `p` the last granted (R97, R98). -/
def Arbiter.picked (a : Arbiter) (p : PointId) (c : CompId) : Arbiter := { a with lastGranted := some p }.admitFor c

theorem Arbiter.picked_admitted (a : Arbiter) (p q : PointId) (c : CompId) :
    (a.picked p c).admitted.get q = (a.admitted.get q || a.waiting.get q == some c) ∧
      (a.picked p c).waiting.get q = if a.waiting.get q = some c then none else a.waiting.get q := by
  cases q <;> exact ⟨rfl, rfl⟩

theorem State.grantTo_here (hs : s.arbiter.selector = .idle (some c)) :
    s.grantTo p c = (s.setArbiter (s.arbiter.picked p c)).grantAdmitted c := if_pos hs

theorem State.grantTo_travels {pos : Option CompId} (hs : s.arbiter.selector = .idle pos) (h : pos ≠ some c) :
    s.grantTo p c =
      s.setArbiter
        { s.arbiter.picked p c with
          selector := .moving c, motor := true, travel := some s.arbiter.travelTime } := by
  refine if_neg fun k => h ?_
  rw [hs] at k
  exact Selector.idle.inj k

theorem State.testRelease_idle {pos : Option CompId} (h : s.arbiter.selector = .idle pos) : s.testRelease = s := by
  unfold State.testRelease
  rw [h]

end picks

end Sys2Proof.Machine

/-! SUPPORT AND CERTIFICATES. The selector's arrival, the release of a claim, and the pick behind them (R97, R98, R100). -/

namespace Sys2Proof.Machine

open Sys2Proof

section rows

variable {s t : State} {p : PointId} {c : CompId}

theorem exec_arrival (h : s.arbiter.selector = .moving c) :
    exec .selectorArrival s = .next ((s.arrive c).follow s) := by
  refine congrArg Host.Outcome.next ?_
  rw [h]

theorem exec_holdExpiry (h : (s.arbiter.hold.get p).isSome = true) :
    exec (.suctionHoldExpiry p) s = .next ((s.setArbiter (s.arbiter.dropClaim p)).follow s) :=
  congrArg Host.Outcome.next (if_pos h)

/-- The selector is IDLE at the compartment it has reached (R98). -/
theorem State.arrive_idle (h : s.arbiter.admitted = { a := false, b := false }) :
    s.arrive c = s.setArbiter { s.arbiter with selector := .idle (some c), motor := false, travel := none } := if_pos h

theorem State.arrive_admitted (h : s.arbiter.admitted.get p = true) : s.arrive c = s.grantAdmitted c := by
  refine if_neg fun k => ?_
  rw [k] at h
  cases p <;> cases h

/-- The arbiter's release, where no claim holds its compartment (R100). -/
theorem State.testRelease_frees (h : s.arbiter.selector = .held c)
    (k : s.arbiter.claims = { a := .none, b := .none }) :
    s.testRelease = s.setArbiter { s.arbiter with selector := .idle (some c) } := by
  unfold State.testRelease
  rw [h]
  exact if_pos k

/-- Both claims are given up: the point's own, and the other's that was none (R100). -/
theorem Arbiter.dropClaim_none {a : Arbiter} (h : a.claims.get p.other = .none) :
    (a.dropClaim p).claims = { a := .none, b := .none } := by
  cases p with
  | a =>
    have other : a.claims.b = .none := h
    simp [Arbiter.dropClaim, Pair.set, other]
  | b =>
    have other : a.claims.a = .none := h
    simp [Arbiter.dropClaim, Pair.set, other]

end rows

/-! ### A release without a pick (R100) -/

section release

variable {s : State} {c : CompId}

/-- The other blocks read and write no arbiter before it releases. -/
theorem State.follow_frees (old : State) (hs : s.arbiter.selector = .held c)
    (hc : s.arbiter.claims = { a := .none, b := .none }) (hw : s.arbiter.waiting = { a := none, b := none }) :
    (s.follow old).arbiter = { s.arbiter with selector := .idle (some c) } ∧ (s.follow old).points = s.points := by
  have rests : Arbiter.Rests { s.arbiter with selector := .idle (some c) } := .inr (.inr ⟨_, rfl, hw⟩)
  have arbiter : s.advance.arbiter = s.arbiter := by simp only [State.advance_frame]
  have points : s.advance.points = s.points := by simp only [State.advance_frame]
  have freed : s.advance.testRelease = s.advance.setArbiter { s.arbiter with selector := .idle (some c) } := by
    rw [State.testRelease_frees (by rw [arbiter]; exact hs) (by rw [arbiter]; exact hc), arbiter]
  have once : s.advance.arbitrate = s.advance.setArbiter { s.arbiter with selector := .idle (some c) } := by
    have still : (s.advance.setArbiter { s.arbiter with selector := .idle (some c) }).arbiter.Rests := rests
    unfold State.arbitrate
    rw [freed, State.pick_rests _ still, State.testRelease_rests _ still, State.pick_rests _ still,
      State.testRelease_rests _ still, State.pick_rests _ still]
  obtain ⟨hold, points', -⟩ := State.follow_settle s old
  rw [hold, points', State.settle, once,
    State.arbitrate_rests _ (by simpa only [State.advance_frame, State.setArbiter_arbiter] using rests)]
  simp only [State.advance_frame, State.setArbiter_arbiter, State.setArbiter_points, and_self]

end release

/-! ### A release with its pick (R97, R98) -/

section pick

variable {s : State} {w : PointId} {c e : CompId}

/-- The arbiter IDLE at `c` behind a release or an arrival; the requests and the table of R97 are as they were. -/
def Arbiter.freed (a : Arbiter) (c : CompId) (motor : Bool) (travel : Timer) (claims : Pair Claim) (hold : Pair Timer) :
    Arbiter :=
  { a with selector := .idle (some c), motor := motor, travel := travel, claims := claims, hold := hold }

variable {a : Arbiter} {motor : Bool} {travel : Timer} {claims : Pair Claim} {hold : Pair Timer}

theorem State.freed_choice (hw : s.arbiter.waiting.get w = some e) (hb : s.barred e = false)
    (tie : ∀ l, s.arbiter.waiting.get w.other = some l → s.barred l = false → s.arbiter.WinsTie w) :
    (s.setArbiter (s.arbiter.freed c motor travel claims hold)).choice = some (w, e) :=
  State.choice_of hw hb fun l hl hf => ⟨(tie l hl hf).fixed, (tie l hl hf).lowest, (tie l hl hf).rotate⟩

/-- The pick travels to a compartment elsewhere, with every request for it admitted. -/
theorem State.follow_travels (old : State)
    (hrel : (s.setArbiter a).testRelease = s.setArbiter (s.arbiter.freed c motor travel claims hold))
    (hl : s.loader.Rests) (hc : (s.setArbiter (s.arbiter.freed c motor travel claims hold)).choice = some (w, e))
    (he : e ≠ c) :
    ((s.setArbiter a).follow old).arbiter =
        { (s.arbiter.freed c motor travel claims hold).picked w e with
          selector := .moving e, motor := true, travel := some s.arbiter.travelTime } ∧
      ((s.setArbiter a).follow old).points = s.points := by
  have travels := State.grantTo_travels (s := s.setArbiter (s.arbiter.freed c motor travel claims hold)) (p := w)
    (c := e) rfl (fun k => he (Option.some.inj k).symm)
  have picks := State.pick_idle (s := s.setArbiter (s.arbiter.freed c motor travel claims hold)) rfl hc
  exact State.follow_picks (s := s.setArbiter a) old hl ((congrArg State.pick hrel).trans (picks.trans travels))
    (.inl ⟨e, rfl⟩)

/-- The state in which a pick grants the compartment the selector stands at. -/
def State.pickedAt (s : State) (b : Arbiter) (w : PointId) (e : CompId) : State := s.setArbiter (b.picked w e)

/-- The pick grants the compartment where the selector stands, at once. -/
theorem State.follow_grants (old : State)
    (hrel : (s.setArbiter a).testRelease = s.setArbiter (s.arbiter.freed c motor travel claims hold))
    (hl : s.loader.Rests) (hc : (s.setArbiter (s.arbiter.freed c motor travel claims hold)).choice = some (w, c))
    {d : Delivery}
    (flows : s.Flows ((s.pickedAt (s.arbiter.freed c motor travel claims hold) w c).grantAdmitted c) w d) :
    ((s.setArbiter a).follow old).arbiter =
        ((s.pickedAt (s.arbiter.freed c motor travel claims hold) w c).grantAdmitted c).arbiter ∧
      ((s.setArbiter a).follow old).points =
        ((s.pickedAt (s.arbiter.freed c motor travel claims hold) w c).grantAdmitted c).points := by
  have here := State.grantTo_here (s := s.setArbiter (s.arbiter.freed c motor travel claims hold)) (p := w) (c := c) rfl
  have picks := State.pick_idle (s := s.setArbiter (s.arbiter.freed c motor travel claims hold)) rfl hc
  have keeps := State.grantAdmitted_keeps (s.pickedAt (s.arbiter.freed c motor travel claims hold) w c) c
  exact State.follow_picks (s := s.setArbiter a) old hl ((congrArg State.pick hrel).trans (picks.trans here))
    (Arbiter.rests_of_claim (p := w) keeps.selector (by rw [flows.claim.1]; decide))

end pick

/-- Two states with the same points and arbiter are the same at a point. -/
theorem State.SameAt.of_eq {s t : State} (ha : t.arbiter = s.arbiter) (hp : t.points = s.points) (p : PointId) :
    s.SameAt t p := ⟨congrArg (Pair.get · p) hp, by rw [ha], by rw [ha], by rw [ha]⟩

/-- What a release or an arrival leaves for the pick: IDLE at the compartment, the requests as they were. -/
theorem released_by {s : State} {i : Instr} {p : PointId} {c : CompId}
    (hi : (i = .selectorArrival ∧ s.arbiter.selector = .moving c) ∨
      (i = .suctionHoldExpiry p ∧ s.arbiter.selector = .held c ∧ (s.arbiter.hold.get p).isSome = true ∧
        s.arbiter.claims.get p.other = .none))
    (ha : s.arbiter.admitted = { a := false, b := false }) :
    ∃ a motor travel claims hold, exec i s = .next ((s.setArbiter a).follow s) ∧
      (s.setArbiter a).testRelease = s.setArbiter (s.arbiter.freed c motor travel claims hold) := by
  rcases hi with ⟨rfl, moving⟩ | ⟨rfl, held, runs, other⟩
  · refine ⟨{ s.arbiter with selector := .idle (some c), motor := false, travel := none }, false, none,
      s.arbiter.claims, s.arbiter.hold, ?_, ?_⟩
    · rw [exec_arrival moving, State.arrive_idle ha]
    · exact State.testRelease_idle (pos := some c) rfl
  · refine ⟨s.arbiter.dropClaim p, s.arbiter.motor, s.arbiter.travel, (s.arbiter.dropClaim p).claims,
      (s.arbiter.dropClaim p).hold, exec_holdExpiry runs, ?_⟩
    exact State.testRelease_frees (s := s.setArbiter (s.arbiter.dropClaim p)) held (Arbiter.dropClaim_none other)

/-- Settles O38: the arrival's grants, the release, and the pick by the table of R97. -/
theorem selectorArrivesAndReleases : Obligations.SelectorArrivesAndReleases := by
  refine ⟨fun s p c => ⟨fun moving => ⟨fun d admitted waits context room press => ?_, fun admitted waiting => ?_⟩,
    fun runs waiting held => ⟨fun other => ?_, fun other => ?_⟩⟩,
    fun s i p c hi admitted plan entry w e hw hb tie => ?_⟩
  · rw [exec_arrival moving, State.arrive_admitted admitted]
    have flows := (s.grantAdmitted_point c p).1 d admitted ⟨waits, context, press, room⟩
    have keeps := s.grantAdmitted_keeps c
    obtain ⟨arbiter, points, -⟩ := State.follow_rests (s.grantAdmitted c) s
      (Arbiter.rests_of_claim (p := p) keeps.selector (by rw [flows.claim.1]; decide))
    refine ⟨_, rfl, flows.sameAt (.of_eq arbiter points p), ?_, ?_, ?_, ?_⟩ <;> rw [arbiter]
    · exact keeps.selector
    · exact keeps.motor
    · exact keeps.travel
    · exact keeps.admitted rfl
  · rw [exec_arrival moving, State.arrive_idle admitted]
    obtain ⟨arbiter, points, -⟩ := State.follow_rests
      (s.setArbiter { s.arbiter with selector := .idle (some c), motor := false, travel := none }) s
      (.inr (.inr ⟨_, rfl, waiting⟩))
    refine ⟨_, rfl, ?_, ?_, ?_, fun q => congrArg (Pair.get · q) points⟩ <;> rw [arbiter] <;> rfl
  · rw [exec_holdExpiry runs]
    obtain ⟨arbiter, points⟩ := State.follow_frees (s := s.setArbiter (s.arbiter.dropClaim p)) s held
      (Arbiter.dropClaim_none other) waiting
    refine ⟨_, rfl, ?_, ?_, ?_, fun q => congrArg (Pair.get · q) points⟩ <;> rw [arbiter]
    · exact Pair.get_set_same _ _ _
    · exact Pair.get_set_same _ _ _
  · rw [exec_holdExpiry runs]
    have ne : p.other ≠ p := by cases p <;> decide
    have claim : (s.arbiter.dropClaim p).claims.get p.other = s.arbiter.claims.get p.other := Pair.get_set_ne _ _ _ _ ne
    obtain ⟨arbiter, -, -⟩ := State.follow_rests (s.setArbiter (s.arbiter.dropClaim p)) s
      (Arbiter.rests_of_claim (p := p.other) held (by rw [State.setArbiter_arbiter, claim]; exact other))
    refine ⟨_, rfl, ?_, ?_, ?_, ?_⟩ <;> rw [arbiter]
    · exact held
    · exact Pair.get_set_same _ _ _
    · exact Pair.get_set_same _ _ _
    · exact claim
  · obtain ⟨a, motor, travel, claims, hold, row, release⟩ := released_by hi admitted
    have loader : s.loader.Rests := .inl ⟨entry, .inr (by rw [plan]; decide)⟩
    have choice := s.freed_choice (c := c) (motor := motor) (travel := travel) (claims := claims) (hold := hold) hw hb tie
    have picked (q : PointId) := (s.arbiter.freed c motor travel claims hold).picked_admitted w q e
    have clear (q : PointId) : s.arbiter.admitted.get q = false := by rw [admitted]; cases q <;> rfl
    rw [row]
    refine ⟨fun he => ?_, fun he ready => ?_⟩
    · obtain ⟨arbiter, points⟩ := State.follow_travels s release loader choice he
      refine ⟨_, rfl, ?_, ?_, ?_, ?_, fun q => ?_, fun q => congrArg (Pair.get · q) points⟩ <;> rw [arbiter]
      · rfl
      · obtain ⟨admits, waits⟩ := picked q
        refine ⟨fun h => ⟨admits.trans ?_, waits.trans (if_pos h)⟩, fun h => ⟨admits.trans ?_, waits.trans (if_neg h)⟩⟩
        · exact Bool.or_eq_true_iff.mpr (.inr (beq_iff_eq.mpr h))
        · exact Bool.or_eq_false_iff.mpr ⟨clear q, beq_eq_false_iff_ne.mpr h⟩
    · subst he
      have grants (q : PointId) := (s.pickedAt (s.arbiter.freed e motor travel claims hold) w e).grantAdmitted_point e q
      have keeps := (s.pickedAt (s.arbiter.freed e motor travel claims hold) w e).grantAdmitted_keeps e
      have flow (q : PointId) (d : Delivery) (h : s.arbiter.waiting.get q = some e) (hd : (s.point q).context = some d) :
          s.Flows ((s.pickedAt (s.arbiter.freed e motor travel claims hold) w e).grantAdmitted e) q d := by
        obtain ⟨waits, press, x, hx, room⟩ := ready q h
        obtain rfl : x = d := Option.some.inj (hx.symm.trans hd)
        refine ((grants q).1 x ((picked q).1.trans ?_) ⟨waits, hx, press, room⟩).of_point rfl
        exact Bool.or_eq_true_iff.mpr (.inr (beq_iff_eq.mpr h))
      obtain ⟨-, -, d, hd, -⟩ := ready w hw
      obtain ⟨arbiter, points⟩ := State.follow_grants s release loader choice (flow w d hw hd)
      refine ⟨_, rfl, ?_, ?_, ?_, ?_, fun q x h hx => (flow q x h hx).sameAt (.of_eq arbiter points q), fun q h => ?_⟩
      · rw [arbiter]; exact keeps.selector
      · rw [arbiter]; exact keeps.motor
      · rw [arbiter]; exact keeps.travel
      · rw [arbiter]; exact keeps.last
      · have off : ((s.arbiter.freed e motor travel claims hold).picked w e).admitted.get q = false :=
          (picked q).1.trans (Bool.or_eq_false_iff.mpr ⟨clear q, beq_eq_false_iff_ne.mpr h⟩)
        have same := ((grants q).2 off).trans (.of_eq arbiter points q)
        exact ⟨same.waiting.trans ((picked q).2.trans (if_neg h)), same.point⟩

end Sys2Proof.Machine

/-! SUPPORT AND CERTIFICATES. A press of the trigger and the request it files (R74 to R76, R96). -/

namespace Sys2Proof.Machine

open Sys2Proof

section press

variable {s t : State} {p : PointId} {d : Delivery} {c : CompId}

theorem exec_triggerPress (awake : s.inReset = false) (h : (s.point p).trigger = false) :
    exec (.triggerPress p) s = .next ((s.triggered p true).press p) :=
  congrArg Host.Outcome.next
    ((if_neg (Bool.eq_false_iff.mp h)).trans (if_neg (Bool.eq_false_iff.mp awake)))

/-- The flow blocks do not read the trigger (R74). -/
theorem State.triggered_unblocked (on : Bool) : (s.triggered p on).unblocked p = s.unblocked p := by
  have context : ((s.triggered p on).point p).context = (s.point p).context := by rw [State.triggered_point]
  have block : (s.triggered p on).couplingBlock p = s.couplingBlock p := by
    unfold State.couplingBlock
    rw [context]
    rfl
  unfold State.unblocked
  rw [block]
  rfl

theorem State.press_taken (hd : (s.point p).context = some d) (hw : (s.point p).state.waitsForPress = true)
    (hu : s.unblocked p = true) : s.press p = (s.takePress p d).follow s := by
  simp only [State.press, hd, hw, hu, and_self, if_true]

theorem State.press_untaken (h : (s.point p).state.waitsForPress = false ∨ s.unblocked p = false) : s.press p = s := by
  unfold State.press
  split
  · refine if_neg fun ⟨waits, free⟩ => ?_
    rcases h with h | h
    · exact Bool.false_ne_true (h.symm.trans waits)
    · exact Bool.false_ne_true (h.symm.trans free)
  · rfl

/-- The point asks for suction, before its request is filed (R75). -/
def State.asking (s : State) (p : PointId) : State :=
  s.setPoint p { s.point p with state := .waitSuction, pressWait := none }

theorem State.takePress_within (h : d.limit ≤ cLof d.net_uL + (s.point p).closeAhead) :
    s.takePress p d = s.finish p d.limitCause := if_pos (decide_eq_true h)

theorem State.takePress_asks (h : cLof d.net_uL + (s.point p).closeAhead < d.limit) :
    s.takePress p d = (s.asking p).fileRequest p d.current.comp := by
  refine if_neg ?_
  rw [Delivery.within, decide_eq_true_eq]
  exact Nat.not_le_of_lt h

theorem State.asking_point : (s.asking p).point p = { s.point p with state := .waitSuction, pressWait := none } := by
  rw [State.asking, State.setPoint_point_same]

theorem State.asking_ready (hd : (s.point p).context = some d)
    (h : cLof d.net_uL + (s.point p).closeAhead < d.limit) : (s.asking p).Ready p d := by
  refine ⟨?_, ?_, ?_, ?_⟩ <;> rw [State.asking_point]
  · exact hd
  · exact h

/-- A flow is read at the point's slowdown volume alone (R76). -/
theorem State.Flows.of_slowdown {u : State} (h : s.Flows t p d) (k : (s.point p).slowdown = (u.point p).slowdown) :
    u.Flows t p d := ⟨by rw [← k]; exact h.state, by rw [← k]; exact h.valves, h.started, h.claim, h.context⟩

/-- The request waits where the selector does not stand, or does not go, for its compartment (R96). -/
def State.waitsFor (s : State) (p : PointId) (c : CompId) : State :=
  s.setArbiter { s.arbiter with waiting := s.arbiter.waiting.set p (some c) }

theorem State.waitsFor_waiting (q : PointId) :
    (s.waitsFor p c).arbiter.waiting.get q = if q = p then some c else s.arbiter.waiting.get q :=
  Pair.get_set _ _ _ _

theorem State.fileRequest_held (hs : s.arbiter.selector = .held c) (hb : s.barred c = false) :
    s.fileRequest p c = s.grant p := by
  simp [State.fileRequest, hs, hb]

theorem State.fileRequest_elsewhere {e : CompId} (he : e ≠ c)
    (hs : s.arbiter.selector = .moving e ∨ s.arbiter.selector = .held e) : s.fileRequest p c = s.waitsFor p c := by
  rcases hs with hs | hs <;> simp [State.fileRequest, State.waitsFor, hs, he]

theorem State.fileRequest_idle {pos : Option CompId} (hs : s.arbiter.selector = .idle pos) :
    s.fileRequest p c = s.waitsFor p c := by
  simp only [State.fileRequest, State.waitsFor, hs]

/-- The only request waits for `c`, so it is the one picked (R97). -/
theorem State.waitsFor_choice (hb : s.barred c = false) (ho : s.arbiter.waiting.get p.other = none) :
    (s.waitsFor p c).choice = some (p, c) := by
  have ne : p.other ≠ p := by cases p <;> decide
  refine State.choice_of (by rw [State.waitsFor_waiting, if_pos rfl]) hb fun l hl => ?_
  rw [State.waitsFor_waiting, if_neg ne, ho] at hl
  cases hl

/-! ### What becomes of the request (R96 to R98) -/

section request

variable (old : State)

/-- HELD on the compartment, the point flows at once. -/
theorem State.request_flows (ready : s.Ready p d) (hs : s.arbiter.selector = .held d.current.comp) (hb : s.barred d.current.comp = false) :
    s.Flows ((s.fileRequest p d.current.comp).follow old) p d := by
  rw [State.fileRequest_held hs hb]
  obtain ⟨flows, claim⟩ := State.grant_flows s p d ready.context ready.waits ready.press ready.room
  refine flows.followed (State.follow_followedBy _ _) ?_
  rw [claim]
  exact Pair.get_set_same _ _ _

/-- Behind a travel or a claim elsewhere, the request waits and the point with it. -/
theorem State.request_waits {e : CompId} (he : e ≠ d.current.comp)
    (hs : s.arbiter.selector = .moving e ∨
      (s.arbiter.selector = .held e ∧ ¬ (s.arbiter.claims.a = .none ∧ s.arbiter.claims.b = .none))) :
    ((s.fileRequest p d.current.comp).follow old).point p = s.point p ∧
      ((s.fileRequest p d.current.comp).follow old).arbiter = (s.waitsFor p d.current.comp).arbiter := by
  rw [State.fileRequest_elsewhere he (hs.imp id And.left)]
  have rests : (s.waitsFor p d.current.comp).arbiter.Rests := by
    rcases hs with hs | ⟨hs, claimed⟩
    · exact .inl ⟨e, hs⟩
    · refine .inr (.inl ⟨e, hs, fun none => claimed ?_⟩)
      have claims : s.arbiter.claims = { a := .none, b := .none } := none
      rw [claims]
      exact ⟨rfl, rfl⟩
  obtain ⟨arbiter, points, -⟩ := State.follow_rests _ old rests
  exact ⟨congrArg (Pair.get · p) points, arbiter⟩

variable (hl : s.loader.Rests) (hb : s.barred d.current.comp = false) (ho : s.arbiter.waiting.get p.other = none)
include hl hb ho

/-- An IDLE selector that stands at the compartment is picked for it, and the point flows. -/
theorem State.request_picks (ready : s.Ready p d) (hs : s.arbiter.selector = .idle (some d.current.comp)) :
    s.Flows ((s.fileRequest p d.current.comp).follow old) p d ∧
      ((s.fileRequest p d.current.comp).follow old).arbiter.selector = .held d.current.comp := by
  rw [State.fileRequest_idle hs]
  have stands : (s.waitsFor p d.current.comp).arbiter.selector = .idle (some d.current.comp) := hs
  have picks := (State.pick_idle stands (State.waitsFor_choice hb ho)).trans (State.grantTo_here stands)
  have granted := (((s.waitsFor p d.current.comp).setArbiter
    ((s.waitsFor p d.current.comp).arbiter.picked p d.current.comp)).grantAdmitted_point d.current.comp p).1 d
  have keeps := ((s.waitsFor p d.current.comp).setArbiter
    ((s.waitsFor p d.current.comp).arbiter.picked p d.current.comp)).grantAdmitted_keeps d.current.comp
  have flows := (granted (by
    rw [State.setArbiter_arbiter, (Arbiter.picked_admitted _ _ _ _).1, State.waitsFor_waiting, if_pos rfl, BEq.rfl,
      Bool.or_true]) ⟨ready.waits, ready.context, ready.press, ready.room⟩).of_point (u := s) rfl
  obtain ⟨arbiter, points⟩ := State.follow_picks old (s := s.waitsFor p d.current.comp) hl
    ((congrArg State.pick (State.testRelease_idle stands)).trans picks)
    (Arbiter.rests_of_claim (p := p) keeps.selector (by rw [flows.claim.1]; decide))
  refine ⟨flows.sameAt (.of_eq arbiter points p), ?_⟩
  rw [arbiter]
  exact keeps.selector

/-- An IDLE selector elsewhere travels to the compartment, with the point admitted. -/
theorem State.request_travels {pos : Option CompId} (hp : pos ≠ some d.current.comp)
    (hs : s.arbiter.selector = .idle pos) :
    ((s.fileRequest p d.current.comp).follow old).point p = s.point p ∧
      ((s.fileRequest p d.current.comp).follow old).arbiter =
        { (s.waitsFor p d.current.comp).arbiter.picked p d.current.comp with
          selector := .moving d.current.comp, motor := true, travel := some s.arbiter.travelTime } ∧
      ((s.fileRequest p d.current.comp).follow old).arbiter.admitted.get p = true := by
  rw [State.fileRequest_idle hs]
  have stands : (s.waitsFor p d.current.comp).arbiter.selector = .idle pos := hs
  have picks := (State.pick_idle stands (State.waitsFor_choice hb ho)).trans (State.grantTo_travels stands hp)
  obtain ⟨arbiter, points⟩ := State.follow_picks old (s := s.waitsFor p d.current.comp) hl
    ((congrArg State.pick (State.testRelease_idle stands)).trans picks) (.inl ⟨d.current.comp, rfl⟩)
  have admits := ((s.waitsFor p d.current.comp).arbiter.picked_admitted p p d.current.comp).1
  rw [State.waitsFor_waiting, if_pos rfl, BEq.rfl, Bool.or_true] at admits
  exact ⟨congrArg (Pair.get · p) points, arbiter, (congrArg (fun x => x.admitted.get p) arbiter).trans admits⟩

end request

end press

/-- Settles O32: the press goes to FINISHING, or files the request by the selector's state. -/
theorem pressAsksForFlow : Obligations.PressAsksForFlow := by
  intro s p awake released
  have row := exec_triggerPress awake released
  have point := s.triggered_point (p := p) true
  refine ⟨fun d hd waits free => ?_, fun h => ?_⟩
  · have taken := State.press_taken (s := s.triggered p true) (p := p) (d := d) (by rw [point]; exact hd)
      (by rw [point]; exact waits) (by rw [State.triggered_unblocked]; exact free)
    rw [row, taken]
    refine ⟨fun near => ?_, fun far => ?_⟩
    · rw [State.takePress_within (s := s.triggered p true) (by rw [point]; exact near)]
      obtain ⟨state, valves, timers, suction, context⟩ := State.finish_finished
        (State.follow_followedBy ((s.triggered p true).finish p d.limitCause) (s.triggered p true))
      exact ⟨_, rfl, state, valves, timers, suction, context.trans (by rw [point])⟩
    · rw [State.takePress_asks (s := s.triggered p true) (by rw [point]; exact far)]
      have ready := State.asking_ready (s := s.triggered p true) (p := p) (d := d) (by rw [point]; exact hd)
        (by rw [point]; exact far)
      have slowdown : (((s.triggered p true).asking p).point p).slowdown = (s.point p).slowdown := by
        rw [State.asking_point, point]
      refine ⟨fun held clear => ⟨_, rfl, (State.request_flows _ ready held clear).of_slowdown slowdown⟩,
        fun e he hs => ?_, fun clear plan entry alone => ?_⟩
      · obtain ⟨stays, arbiter⟩ := State.request_waits (s := (s.triggered p true).asking p) (p := p) (d := d) (s.triggered p true) he hs
        refine ⟨_, rfl, ?_, ?_, ?_, ?_, ?_, ?_⟩
        · rw [stays, ready.waits]
        · rw [arbiter, State.waitsFor_waiting, if_pos rfl]
        · rw [arbiter]
          rfl
        · rw [stays, ready.context]
        · rw [stays, ready.press]
        · rw [stays, State.asking_point, point]
      · have rests : s.loader.Rests := .inl ⟨entry, .inr (by rw [plan]; decide)⟩
        refine ⟨fun here => ?_, fun pos hpos idle => ?_⟩
        · obtain ⟨flows, held⟩ := State.request_picks (s := (s.triggered p true).asking p) (s.triggered p true) rests clear
              alone ready here
          exact ⟨_, rfl, flows.of_slowdown slowdown, held⟩
        · obtain ⟨stays, arbiter, admitted⟩ :=
            State.request_travels (s := (s.triggered p true).asking p) (d := d) (s.triggered p true) rests clear alone hpos
              idle
          refine ⟨_, rfl, by rw [stays, ready.waits], ?_, ?_, ?_, admitted, ?_, by rw [stays, ready.context]⟩ <;>
            rw [arbiter] <;> rfl
  · rw [row, State.press_untaken]
    · rfl
    · rw [State.triggered_point, State.triggered_unblocked]
      exact h

end Sys2Proof.Machine

/-! SUPPORT AND CERTIFICATES. Pulses and metering windows: the stages of a window, its owner, and what the owner does with
it (R3 to R13, R18, R77, R140). -/

namespace Sys2Proof.Machine

open Sys2Proof

/-! ### The stages of a window (R5 to R13) -/

section stages

variable (x : Channel) (probe : Option Int)

theorem settleDebt_eq (f r d : Nat) :
    settleDebt f r d =
      (if f ≤ r then 0 else f - r - d, if f ≤ r then min 4294967295 (d + (r - f)) else d - (f - r)) := by
  unfold settleDebt
  split
  · rfl
  · rfl

/-- A reading in range is used and held (R9). -/
theorem windowTemp_read {v : Int} (held : Option Int) (h : validTemp v = true) :
    windowTemp (some v) held = (v, some v, false, false) := by
  simp [windowTemp, Option.filter, h]

theorem filter_invalid (h : ∀ v, probe = some v → v < -400 ∨ 700 < v) : probe.filter validTemp = none := by
  cases probe with
  | none => rfl
  | some v =>
    have out : validTemp v = false := by
      simp only [validTemp, Bool.and_eq_false_iff, decide_eq_false_iff_not]
      rcases h v rfl with h | h <;> omega
    simp [Option.filter, out]

theorem windowTemp_held {probe : Option Int} (h : ∀ v, probe = some v → v < -400 ∨ 700 < v) (t : Int) :
    windowTemp probe (some t) = (t, some t, true, false) := by
  simp only [windowTemp, filter_invalid probe h]

theorem windowTemp_default {probe : Option Int} (h : ∀ v, probe = some v → v < -400 ∨ 700 < v) :
    windowTemp probe none = (150, none, false, true) := by
  simp only [windowTemp, filter_invalid probe h]

/-- The temperature of a window's result, what its channel holds after it, and its flags (R9). -/
theorem Channel.window_temp :
    ((x.window probe).2.t10, (x.window probe).1.held, (x.window probe).2.flags.tempHeld,
      (x.window probe).2.flags.tempDefault) = windowTemp probe x.held := rfl

end stages

/-! ### The end of a channel's window (R4, R12, R18) -/

section ends

variable {s : State} {c : ChannelId} {probe : Option Int}

theorem State.endWindow_bound (h : (s.channel c).bound = true) :
    s.endWindow c probe =
      (s.setChannel c ((s.channel c).window probe).1).handOver c ((s.channel c).window probe).2 := if_pos h

/-- The idle flow of an unbound channel (R18). -/
theorem State.endWindow_unbound (h : (s.channel c).bound = false) :
    s.endWindow c probe =
      if (((s.channel c).window probe).1.addIdle ((s.channel c).window probe).2.grown).2 then
        (s.setChannel c (((s.channel c).window probe).1.addIdle ((s.channel c).window probe).2.grown).1).raise .idleFlow
      else s.setChannel c (((s.channel c).window probe).1.addIdle ((s.channel c).window probe).2.grown).1 :=
  if_neg (Bool.eq_false_iff.mp h)

theorem State.handOver_channel (w : WindowResult) (d : ChannelId) : (s.handOver c w).channel d = s.channel d := by
  cases c <;> rfl

/-- The ended channel, but for its idle flow. -/
theorem State.endWindow_channel :
    (s.endWindow c probe).channel c =
      { ((s.channel c).window probe).1 with
        idle := ((s.endWindow c probe).channel c).idle
        idleNotified := ((s.endWindow c probe).channel c).idleNotified } := by
  cases h : (s.channel c).bound with
  | true => rw [State.endWindow_bound h, State.handOver_channel, State.setChannel_channel_same]
  | false =>
    rw [State.endWindow_unbound h]
    split
    · rw [State.raise_channel, State.setChannel_channel_same]
      rfl
    · rw [State.setChannel_channel_same]
      rfl

/-- The idle flow grows with the totaliser, and IDLE_FLOW is raised once when it exceeds 50 cL (R18). -/
theorem State.endWindow_idle (h : (s.channel c).bound = false) :
    ((s.endWindow c probe).channel c).idle =
        min 999999999 ((s.channel c).idle + ((s.channel c).window probe).2.grown) ∧
      (50 < min 999999999 ((s.channel c).idle + ((s.channel c).window probe).2.grown) →
        (s.channel c).idleNotified = false →
          ((s.endWindow c probe).port .office).has .idleFlow = true ∧
            ((s.endWindow c probe).port .service).has .idleFlow = true ∧
            ((s.endWindow c probe).channel c).idleNotified = true) := by
  rw [State.endWindow_unbound h]
  refine ⟨?_, fun above quiet => ?_⟩
  · split
    · rw [State.raise_channel, State.setChannel_channel_same]
      rfl
    · rw [State.setChannel_channel_same]
      rfl
  · have due : (((s.channel c).window probe).1.addIdle ((s.channel c).window probe).2.grown).2 = true := by
      have old : ((s.channel c).window probe).1.idleNotified = false := quiet
      unfold Channel.addIdle
      simp only [old, Bool.not_false, Bool.and_true]
      exact decide_eq_true above
    rw [if_pos due]
    refine ⟨State.raised _ rfl, State.raised _ rfl, ?_⟩
    rw [State.raise_channel, State.setChannel_channel_same]
    exact Bool.or_eq_true_iff.mpr (.inr due)

theorem State.handOver_point (p : PointId) (w : WindowResult) :
    (s.handOver (channelFor p) w).point p =
      { s.point p with context := (s.point p).context.map fun d => d.take w } := by
  cases p <;> rfl

theorem State.handOver_loader (w : WindowResult) :
    (s.handOver .load w).loader =
      { s.loader with
        current := s.loader.current.map fun e => { e with context := e.context.map fun x => x.take w } } := rfl

theorem State.endWindow_point {p : PointId} {d : Delivery} (h : (s.channel (channelFor p)).bound = true)
    (hd : (s.point p).context = some d) :
    (s.endWindow (channelFor p) probe).point p =
      { s.point p with context := some (d.take ((s.channel (channelFor p)).window probe).2) } := by
  rw [State.endWindow_bound h, State.handOver_point, State.setChannel_point, hd]
  rfl

theorem State.endWindow_load {e : Entry} {y : LoadContext} (h : s.channels.third.bound = true)
    (he : s.loader.current = some e) (hy : e.context = some y) :
    (s.endWindow .load probe).loader =
      { s.loader with current := some { e with context := some (y.take (s.channels.third.window probe).2) } } := by
  rw [State.endWindow_bound (c := .load) h, State.handOver_loader, State.setChannel_loader, he, Option.map_some, hy]
  rfl

end ends

/-! ### What the owner does (R77, R140) -/

section owner

variable {s : State}

theorem State.pointWindow_kept (s : State) (p : PointId) :
    ((s.pointWindow p).channel .a = s.channel .a ∧ (s.pointWindow p).channel .b = s.channel .b) ∧
      (∀ q, ((s.pointWindow p).point q).context = (s.point q).context) ∧
      ∀ o, (s.port o).has .idleFlow = true → ((s.pointWindow p).port o).has .idleFlow = true := by
  obtain ⟨u, hu, hf⟩ := s.pointWindow_follows p
  have same : u.channels = s.channels ∧ (∀ q, (u.point q).context = (s.point q).context) ∧ u.ports = s.ports := by
    rcases hu with rfl | ⟨-, rfl⟩
    · exact ⟨rfl, fun _ => rfl, rfl⟩
    · exact ⟨by simp only [State.compareFlow_frame], fun q => State.compareFlow_context s p q,
        by simp only [State.compareFlow_frame]⟩
  obtain ⟨channels, context, ports⟩ := same
  refine ⟨⟨hf.channelA.trans (by rw [channels]; rfl), hf.channelB.trans (by rw [channels]; rfl)⟩, fun q => ?_,
    fun o h => ?_⟩
  · rw [(hf.points q).context, context]
  · refine hf.notices o _ (by decide) ?_
    have port : u.port o = s.port o := congrArg (Triple.port · o) ports
    rw [port]
    exact h

theorem State.ownerActs_channel (c d : ChannelId) (h : d ≠ .load ∨ c = .load) :
    (s.ownerActs c).channel d = s.channel d := by
  cases c with
  | load =>
    show s.loadWindow.channel d = _
    simp only [State.loadWindow_frame]
  | a =>
    cases d with
    | a => exact (s.pointWindow_kept .a).1.1
    | b => exact (s.pointWindow_kept .a).1.2
    | load => exact absurd h (by decide)
  | b =>
    cases d with
    | a => exact (s.pointWindow_kept .b).1.1
    | b => exact (s.pointWindow_kept .b).1.2
    | load => exact absurd h (by decide)

theorem State.ownerActs_context (c : ChannelId) (q : PointId) :
    ((s.ownerActs c).point q).context = (s.point q).context := by
  cases c with
  | a => exact (s.pointWindow_kept .a).2.1 q
  | b => exact (s.pointWindow_kept .b).2.1 q
  | load =>
    show (s.loadWindow.point q).context = _
    simp only [State.loadWindow_frame]

theorem State.ownerActs_idleFlow (c : ChannelId) {o : PortId} (h : (s.port o).has .idleFlow = true) :
    ((s.ownerActs c).port o).has .idleFlow = true := by
  cases c with
  | a => exact (s.pointWindow_kept .a).2.2 o h
  | b => exact (s.pointWindow_kept .b).2.2 o h
  | load =>
    show (s.loadWindow.port o).has .idleFlow = true
    simpa only [State.loadWindow_frame] using h

/-- The test of R140 leaves the entry's accumulators and flags. -/
theorem State.loadWindow_current {e : Entry} {y : LoadContext} (he : s.loader.current = some e)
    (hy : e.context = some y) :
    ∃ f z, s.loadWindow.loader.current = some f ∧ f.comp = e.comp ∧ f.target = e.target ∧ f.context = some z ∧
      z.gross_uL = y.gross_uL ∧ z.net_uL = y.net_uL ∧ z.tempSum = y.tempSum ∧ z.flags = y.flags := by
  unfold State.loadWindow
  simp only [he, hy]
  split
  next x _ hx =>
    obtain rfl : y = x := Option.some.inj hx
    split
    · exact ⟨_, _, rfl, rfl, rfl, rfl, rfl, rfl, rfl, rfl⟩
    · split
      · exact ⟨_, _, rfl, rfl, rfl, rfl, rfl, rfl, rfl, rfl⟩
      · split
        · exact ⟨e, y, rfl, rfl, rfl, hy, rfl, rfl, rfl, rfl⟩
        · exact ⟨e, y, he, rfl, rfl, hy, rfl, rfl, rfl, rfl⟩
  next => exact ⟨_, _, he, rfl, rfl, hy, rfl, rfl, rfl, rfl⟩

end owner

theorem exec_windowEnd {s : State} (c : ChannelId) (probe : Option Int) (awake : s.inReset = false) :
    exec (.meterWindowEnd c probe) s = .next ((s.endWindow c probe).ownerActs c) :=
  congrArg Host.Outcome.next (if_neg (Bool.eq_false_iff.mp awake))

/-- Settles O34: the stages of the window, the channel they leave, and the owner that takes the result. -/
theorem pulsesAndWindowsAreMetered : Obligations.PulsesAndWindowsAreMetered := by
  refine ⟨fun c dir s => ⟨fun awake => ?_, fun reset => congrArg Host.Outcome.next (if_pos reset)⟩,
    fun c probe s x w n debt rate factor awake hx hw hn hdebt hrate hfactor => ?_⟩
  · have row (dir : PulseDir) : exec (.meterPulse c dir) s = .next (s.setChannel c ((s.channel c).count dir)) :=
      congrArg Host.Outcome.next (if_neg (Bool.eq_false_iff.mp awake))
    refine ⟨row .forward, row .reverse, (row .none).trans (congrArg Host.Outcome.next ?_)⟩
    cases c <;> rfl
  · have debts : settleDebt x.forward x.reverse x.debt = (n, debt) := by
      rw [settleDebt_eq, hn, hdebt]
    have usable : (settleDebt x.forward x.reverse x.debt).1 = n := by rw [debts]
    have left : (settleDebt x.forward x.reverse x.debt).2 = debt := by rw [debts]
    have channel : ((s.endWindow c probe).ownerActs c).channel c = (s.endWindow c probe).channel c := by
      refine State.ownerActs_channel c c ?_
      cases c <;> decide
    have ended := State.endWindow_channel (s := s) (c := c) (probe := probe)
    rw [← channel] at ended
    have held : (((s.endWindow c probe).ownerActs c).channel c).held = (x.window probe).1.held := by
      rw [ended, hx]
    have temp := x.window_temp probe
    rw [← hw] at temp
    have rates : w.rate = rate := by
      rw [hw, hrate, ← usable]
      rfl
    have gross : w.gross = (n * factor + x.grossRem) / x.k := by
      rw [hw, hfactor, hrate, ← usable]
      rfl
    refine ⟨_, exec_windowEnd c probe awake, gross, ?_, rates, ?_, ?_, fun v hv lo hi => ?_,
      fun invalid => ⟨fun h hh => ?_, fun hh => ?_⟩, ⟨?_, ?_, ?_, ?_, ?_, ?_, ?_, ?_, ?_, ?_, ?_, ?_⟩,
      fun d hd hl => ?_, fun unbound => ?_, fun p d hc bound hd => ?_, fun e y hc bound he hy => ?_⟩
    · rw [hw]
      rfl
    · rw [← left, hw]
      show (x.debt == 0 && (settleDebt x.forward x.reverse x.debt).2 != 0) = true ↔ _
      simp
    · rw [← rates, hw]
      show (x.forward == 65535 || x.reverse == 65535 || decide (x.ratedMax < (x.window probe).2.rate)) = true ↔ _
      simp [or_assoc]
    · subst hv
      rw [windowTemp_read _ (by simp [validTemp, lo, hi])] at temp
      simp only [Prod.mk.injEq] at temp
      obtain ⟨t10, holds, tempHeld, tempDefault⟩ := temp
      exact ⟨t10, held.trans holds, tempHeld, tempDefault⟩
    · rw [hh, windowTemp_held invalid] at temp
      simp only [Prod.mk.injEq] at temp
      obtain ⟨t10, holds, tempHeld, tempDefault⟩ := temp
      exact ⟨t10, held.trans holds, tempHeld, tempDefault⟩
    · rw [hh, windowTemp_default invalid] at temp
      simp only [Prod.mk.injEq] at temp
      obtain ⟨t10, holds, tempHeld, tempDefault⟩ := temp
      exact ⟨t10, held.trans holds, tempHeld, tempDefault⟩
    · rw [ended]; rfl
    · rw [ended]; rfl
    · rw [ended, ← left, hx]; rfl
    · rw [ended, ← rates, hw, hx]
      rfl
    · rw [ended, hfactor, hrate, ← usable, hx]
      rfl
    · rw [ended, hw, hx]
      rfl
    · rw [ended, hw, hx]
      exact (s.channel c).window_counts probe
    · rw [ended, hx]; rfl
    · rw [ended, hx]; rfl
    · rw [ended, hx]; rfl
    · rw [ended, hx]; rfl
    · rw [ended, hx]; rfl
    · rw [State.ownerActs_channel c d (.inl hl), State.endWindow_other _ _ _ _ hd]
    · subst hx
      obtain ⟨idle, notified⟩ := State.endWindow_idle (probe := probe) unbound
      rw [channel]
      have grown : ((s.channel c).window probe).2.grown = ((s.channel c).grossCarry + w.gross) / 10000 := by
        rw [hw]
        rfl
      rw [grown] at idle notified
      refine ⟨idle, fun above quiet => ?_⟩
      obtain ⟨office, service, noted⟩ := notified above quiet
      exact ⟨State.ownerActs_idleFlow c office, State.ownerActs_idleFlow c service, noted⟩
    · subst hc hx
      rw [State.ownerActs_context, State.endWindow_point bound hd, hw]
      rfl
    · subst hc hx
      have loader := State.endWindow_load (probe := probe) bound he hy
      obtain ⟨f, z, current, comp, target, context, grossSum, netSum, tempSum, flags⟩ :=
        State.loadWindow_current (s := s.endWindow .load probe) (by rw [loader]) rfl
      rw [hw]
      exact ⟨f, z, current, comp, target, context, grossSum, netSum, tempSum, flags⟩

end Sys2Proof.Machine

/-! SUPPORT AND CERTIFICATES. The comparison at a window's end: a flowing point with its limit (R77) and a load entry with its
target (R140). -/

namespace Sys2Proof.Machine

open Sys2Proof

section point

variable {s : State} {p : PointId} {d : Delivery} {stage : Stage}

/-- The blocks follow the comparison of a flowing point (R77). -/
theorem State.pointWindow_followedBy (h : (s.point p).state.isFlowing = true) :
    (s.compareFlow p).FollowedBy (s.pointWindow p) := by
  rw [State.pointWindow, if_pos h]
  dsimp only
  split
  · exact (State.follow_followedBy _ _).trans (State.testNoFlow_followedBy _)
  · exact State.follow_followedBy _ _

theorem State.ownerActs_point : s.ownerActs (channelFor p) = s.pointWindow p := by
  cases p <;> rfl

theorem State.compareFlow_slows (hs : (s.point p).state = .flowing .fast) (hd : (s.point p).context = some d)
    (far : cLof d.net_uL + (s.point p).closeAhead < d.limit) (near : d.limit ≤ cLof d.net_uL + (s.point p).slowdown) :
    s.compareFlow p = s.setPoint p { s.point p with state := .flowing .slow, fastValve := false } := by
  have within : d.within (s.point p).slowdown = true := decide_eq_true near
  have beyond : d.within (s.point p).closeAhead = false := decide_eq_false (Nat.not_le_of_lt far)
  unfold State.compareFlow
  rw [hs, hd]
  simp only [beyond, within, Bool.false_eq_true, if_false, and_self, if_true]

theorem State.compareFlow_flows (hs : (s.point p).state = .flowing stage) (hd : (s.point p).context = some d)
    (far : cLof d.net_uL + (s.point p).closeAhead < d.limit)
    (h : stage = .slow ∨ cLof d.net_uL + (s.point p).slowdown < d.limit) : s.compareFlow p = s := by
  have beyond : d.within (s.point p).closeAhead = false := decide_eq_false (Nat.not_le_of_lt far)
  have on : ¬ (stage = .fast ∧ d.within (s.point p).slowdown = true) := by
    rintro ⟨fast, within⟩
    rcases h with slow | off
    · rw [slow] at fast
      cases fast
    · exact absurd (of_decide_eq_true within) (Nat.not_le_of_lt off)
  unfold State.compareFlow
  rw [hs, hd]
  simp only [beyond, Bool.false_eq_true, if_false]
  exact if_neg on

end point

section load

variable {s : State} {e : Entry} {z : LoadContext}

/-- The test of R140 writes the sequencer alone. -/
theorem State.loadWindow_rest (s : State) : { s.loadWindow with loader := s.loader } = s := by
  unfold State.loadWindow State.settleLoad State.setLoader
  split
  · split
    · split
      · rfl
      · split
        · rfl
        · split <;> rfl
    · rfl
  · rfl

variable (he : s.loader.current = some e) (hs : e.state = .loading) (hz : e.context = some z)
include he hs hz

theorem State.loadWindow_settles (h : z.used ≤ cLof z.net_uL + s.loader.closeAhead) :
    s.loadWindow = s.settleLoad e z .target := by
  simp only [State.loadWindow, he, hs, hz]
  exact if_pos h

theorem State.loadWindow_flows (h : cLof z.net_uL + s.loader.closeAhead < z.used) (hr : 0 < s.channels.third.lastRate) :
    s.loadWindow.loader =
      { s.loader with current := some { e with context := some { z with flowBegun := true } }, noFlow := none } := by
  simp only [State.loadWindow, he, hs, hz]
  rw [if_neg (Nat.not_le_of_lt h), if_pos hr]
  rfl

theorem State.loadWindow_waits (h : cLof z.net_uL + s.loader.closeAhead < z.used) (hr : s.channels.third.lastRate = 0)
    (begun : z.flowBegun = true) (idle : s.loader.noFlow = none) :
    s.loadWindow.loader = { s.loader with noFlow := some s.loader.noFlowTime } := by
  simp only [State.loadWindow, he, hs, hz]
  rw [if_neg (Nat.not_le_of_lt h), if_neg (by omega), if_pos ⟨begun, idle⟩]
  rfl

theorem State.loadWindow_stays (h : cLof z.net_uL + s.loader.closeAhead < z.used) (hr : s.channels.third.lastRate = 0)
    (k : z.flowBegun = false ∨ s.loader.noFlow.isSome = true) : s.loadWindow = s := by
  have none : ¬ (z.flowBegun = true ∧ s.loader.noFlow = none) := by
    rintro ⟨begun, idle⟩
    rcases k with k | k
    · exact Bool.false_ne_true (k.symm.trans begun)
    · rw [idle] at k
      cases k
  simp only [State.loadWindow, he, hs, hz]
  rw [if_neg (Nat.not_le_of_lt h), if_neg (by omega), if_neg none]

end load

/-- Settles O35: the comparison of R77 behind the window, and the test of R140. -/
theorem flowMeetsItsLimit : Obligations.FlowMeetsItsLimit := by
  refine ⟨fun s p probe d e stage awake hs hd bound he => ?_, fun s probe e y z rate awake he hs hy bound hz hr => ?_⟩
  · have point := State.endWindow_point (probe := probe) bound hd
    rw [← he] at point
    have state : ((s.endWindow (channelFor p) probe).point p).state = .flowing stage := by rw [point]; exact hs
    have context : ((s.endWindow (channelFor p) probe).point p).context = some e := by rw [point]
    have ahead : ((s.endWindow (channelFor p) probe).point p).closeAhead = (s.point p).closeAhead := by rw [point]
    have slow : ((s.endWindow (channelFor p) probe).point p).slowdown = (s.point p).slowdown := by rw [point]
    have flowing : ((s.endWindow (channelFor p) probe).point p).state.isFlowing = true := by rw [state]; rfl
    rw [exec_windowEnd _ probe awake, State.ownerActs_point]
    have hf := State.pointWindow_followedBy flowing
    refine ⟨_, rfl, ?_, fun near => ?_, fun far => ⟨fun fast near => ?_, fun h => ?_⟩⟩
    · rw [(hf.points p).context, State.compareFlow_context, context]
    · rw [State.compareFlow_within context flowing (by rw [ahead]; exact near)] at hf
      exact State.finish_finished hf
    · rw [State.compareFlow_slows (by rw [state, fast]) context (by rw [ahead]; exact far) (by rw [slow]; exact near)] at hf
      rw [(hf.points p).still (by rw [State.setPoint_point_same]; simp), State.setPoint_point_same, point]
    · rw [State.compareFlow_flows state context (by rw [ahead]; exact far) (by rw [slow]; exact h)] at hf
      rw [(hf.points p).still (by rw [state]; simp), point]
  · have loader := State.endWindow_load (probe := probe) bound he hy
    rw [← hz] at loader
    have current : (s.endWindow .load probe).loader.current = some { e with context := some z } := by rw [loader]
    have ahead : (s.endWindow .load probe).loader.closeAhead = s.loader.closeAhead := by rw [loader]
    have last : (s.endWindow .load probe).channels.third.lastRate = rate := by
      rw [hr]
      exact congrArg Channel.lastRate (State.endWindow_channel (s := s) (c := .load) (probe := probe))
    have begun : z.flowBegun = y.flowBegun := by rw [hz]; rfl
    rw [exec_windowEnd _ probe awake]
    refine ⟨_, rfl, fun near => ?_, fun far => ⟨fun flow => ?_, fun idle started stopped => ?_, fun idle h => ?_⟩, ?_⟩
    · show (s.endWindow .load probe).loadWindow.loader = _
      rw [State.loadWindow_settles current hs rfl (by rw [ahead]; exact near)]
      show Loader.settling (s.endWindow .load probe).loader _ z .target (s.endWindow .load probe).times.meterSettle = _
      simp only [State.endWindow_frame, loader]
      rfl
    · refine (State.loadWindow_flows current hs rfl (by rw [ahead]; exact far) (by rw [last]; exact flow)).trans ?_
      rw [loader]
    · refine (State.loadWindow_waits current hs rfl (by rw [ahead]; exact far) (by rw [last]; exact idle)
        (begun.trans started) (by rw [loader]; exact stopped)).trans ?_
      rw [loader]
    · show (s.endWindow .load probe).loadWindow.loader = _
      rw [State.loadWindow_stays current hs rfl (by rw [ahead]; exact far) (by rw [last]; exact idle)
        (by rw [loader, begun]; exact h), loader]
    · show { (s.endWindow .load probe).loadWindow with loader := s.loader, channels := s.channels } = s
      have ended : { s.endWindow .load probe with loader := s.loader, channels := s.channels } = s := by
        rw [State.endWindow_bound (c := .load) bound]
        rfl
      have acted := congrArg (fun t : State => { t with loader := s.loader, channels := s.channels })
        (s.endWindow .load probe).loadWindow_rest
      exact acted.trans ended

end Sys2Proof.Machine

/-! SUPPORT AND CERTIFICATES. The end of a load entry without a receipt, and what ends the LOADING of one (R141 to R143,
R146). -/

namespace Sys2Proof.Machine

open Sys2Proof

/-! ### An entry that ends without a receipt (R146) -/

section dropped

variable {s t : State} {e : Entry} {k : EndCause}

theorem State.dropEntry_loader :
    (s.dropEntry e k).loader =
      { s.loader with
        current := none, lastResult := some { seq := none, comp := e.comp, cause := k }, settle := none, noFlow := none
        inlets := s.loader.inlets.set e.comp false } := rfl

theorem State.dropEntry_journal :
    (s.dropEntry e k).journal = { s.journal with reserved := s.journal.reserved - 1 } := rfl

theorem State.dropEntry_comp (c : CompId) :
    (s.dropEntry e k).comp c =
      (s.comp c).map fun x => if c = e.comp then { x with draining := false } else x := by
  refine (State.modComp_comp s.returnSlot e.comp c _).trans ?_
  by_cases hc : c = e.comp
  · subst hc
    simp only [if_true]
    rfl
  · simp only [hc, if_false, Option.map_id']
    rfl

/-- The entry ended, with its notice; the plan goes on behind it (R145, R146). -/
def State.dropped (s : State) (e : Entry) (k : EndCause) : State := (s.dropEntry e k).raise .loadDone

theorem State.dropped_tells {o : PortId} (h : Notice.loadDone.ports.port o = true) :
    ((s.dropped e k).port o).has .loadDone = true := State.raised _ h

theorem State.dropped_comp (c : CompId) :
    (s.dropped e k).comp c = (s.comp c).map fun x => if c = e.comp then { x with draining := false } else x :=
  State.dropEntry_comp (k := k) c

/-- Clearing stage empty withdraws its own notice alone (R136). -/
theorem State.closePlan_has (o : PortId) {n : Notice} (h : n ≠ .loadStageEmpty) :
    (s.closePlan.port o).has n = (s.port o).has n := State.clearStageEmpty_has _ o n h

theorem State.afterEntry_has (o : PortId) {n : Notice} (h : n ≠ .loadStageEmpty) :
    (s.afterEntry.port o).has n = (s.port o).has n := by
  unfold State.afterEntry
  split
  · exact State.closePlan_has o h
  · rfl

theorem State.afterEntry_opened (h : s.loader.state = .opened) : s.afterEntry = s := if_neg (by rw [h]; decide)

/-- A promotion seen from the state before the entry ended (R145). -/
theorem State.Promotes.of_ended {v : State} {h : Staged} {rest : List Staged} {w z : Compartment}
    (hp : v.Promotes t h rest z) (segment : v.segmentOn h.comp = s.segmentOn h.comp) (arbiter : v.arbiter = s.arbiter)
    (close : v.loader.closeAhead = s.loader.closeAhead) (high : v.loader.highLevel = s.loader.highLevel)
    (hz : z = w ∨ z = { w with draining := false }) : s.Promotes t h rest w := by
  have waits (k : s.segmentOn h.comp = true) : v.segmentOn h.comp = true := segment.trans k
  have free (k : s.segmentOn h.comp = false) : v.segmentOn h.comp = false := segment.trans k
  have holds : v.arbiter.selector.holds h.comp = s.arbiter.selector.holds h.comp := by rw [arbiter]
  rcases hz with rfl | rfl
  · exact ⟨hp.due, fun a b => hp.waits a (waits b), fun a b c d e f => hp.starts a (free b) (holds.trans c) d
      (by rw [close]; exact e) (by rw [high]; exact f)⟩
  · exact ⟨hp.due, fun a b => hp.waits a (waits b), fun a b c d e f => hp.starts a (free b) (holds.trans c) d
      (by rw [close]; exact e) (by rw [high]; exact f)⟩

/-- The ended entry leaves the head staged entry's compartment, DRAINING apart where it was its own. -/
theorem State.dropped_record {c : CompId} {w : Compartment} (h : s.comp c = some w) :
    ∃ z, (s.dropped e k).comp c = some z ∧ (z = w ∨ z = { w with draining := false }) := by
  rw [State.dropped_comp, h]
  by_cases hc : c = e.comp
  · exact ⟨_, congrArg some (if_pos hc), .inr rfl⟩
  · exact ⟨_, congrArg some (if_neg hc), .inl rfl⟩

/-- The slot that the entry returns is there for the next one (R135). -/
theorem Journal.canReserve_returned {j : Journal} (h : j.canReserve = true) :
    Journal.canReserve { j with reserved := j.reserved - 1 } = true := by
  have room : Journal.room { j with reserved := j.reserved - 1 } = Config.journalSize - j.occupied - (j.reserved - 1) := rfl
  have before : j.room = Config.journalSize - j.occupied - j.reserved := rfl
  have free := of_decide_eq_true h
  exact decide_eq_true (by omega)

/-- The head staged entry is promoted behind an entry that ended (R146). -/
theorem State.dropped_promotes (old : State) {h : Staged} {rest : List Staged} {w : Compartment}
    (opened : s.loader.state = .opened) (staged : s.loader.staged = h :: rest) (hw : s.comp h.comp = some w)
    (slot : s.journal.canReserve = true) : s.Promotes ((s.dropped e k).follow old) h rest w := by
  obtain ⟨z, record, same⟩ := State.dropped_record (e := e) (k := k) hw
  have promotes := State.follow_promotes (s.dropped e k) old h rest z opened rfl staged record
    (Journal.canReserve_returned slot)
  exact promotes.of_ended rfl rfl rfl rfl same

theorem State.dropped_loader : (s.dropped e k).loader = (s.dropEntry e k).loader := rfl

theorem State.dropped_opened (h : s.loader.state = .opened) : (s.dropped e k).afterEntry = s.dropped e k :=
  State.afterEntry_opened (by rw [State.dropped_loader, State.dropEntry_loader]; exact h)

/-- Without a staged entry behind it, the ended entry leaves a plan at rest, and the blocks that follow keep it (R146). -/
theorem State.dropped_ends (old : State) (empty : s.loader.staged = []) :
    ((s.dropped e k).afterEntry.follow old).loader.current = none ∧
      ((s.dropped e k).afterEntry.follow old).loader.staged = [] ∧
      (s.loader.state = .opened → ((s.dropped e k).afterEntry.follow old).loader.state = .opened) ∧
      ((s.dropped e k).afterEntry.follow old).loader.lastResult =
        some { seq := none, comp := e.comp, cause := k } ∧
      ((s.dropped e k).afterEntry.follow old).journal = { s.journal with reserved := s.journal.reserved - 1 } ∧
      (∀ c, ((s.dropped e k).afterEntry.follow old).comp c =
        (s.comp c).map fun x => if c = e.comp then { x with draining := false } else x) ∧
      ((s.dropped e k).afterEntry.follow old).channels = s.channels := by
  have plan := State.afterEntry_loader (s.dropped e k)
  rw [State.dropped_loader, State.dropEntry_loader] at plan
  have current : (s.dropped e k).afterEntry.loader.current = none := by rw [plan]; split <;> rfl
  have staged : (s.dropped e k).afterEntry.loader.staged = [] := by
    rw [plan]
    split
    · rfl
    · exact empty
  have last : (s.dropped e k).afterEntry.loader.lastResult = some { seq := none, comp := e.comp, cause := k } := by
    rw [plan]; split <;> rfl
  obtain ⟨loader, stock, journal, channels, -⟩ :=
    State.follow_loader (s.dropped e k).afterEntry old (.inl ⟨current, .inl staged⟩)
  rw [loader, journal, channels]
  refine ⟨current, staged, fun opened => ?_, last, ?_, fun c => ?_, ?_⟩
  · rw [State.dropped_opened opened, State.dropped_loader, State.dropEntry_loader]
    exact opened
  · simp only [State.afterEntry_frame]; rfl
  · refine (congrArg (Quad.get · c) stock).trans ?_
    simp only [State.afterEntry_frame]
    exact State.dropped_comp c
  · simp only [State.afterEntry_frame]; rfl

end dropped

/-! ### The end of LOADING (R141 to R144) -/

section stopped

variable {s : State} {e : Entry} {x : LoadContext} {k : EndCause}

theorem State.settleLoad_eq : s.settleLoad e x k = s.setLoader (s.loader.settling e x k s.times.meterSettle) := rfl

theorem State.stopLoading_settles (he : s.loader.current = some e) (hs : e.state = .loading) (hx : e.context = some x) :
    s.stopLoading k = s.setLoader (s.loader.settling e x k s.times.meterSettle) := by
  simp only [State.stopLoading, he, hs, hx]
  rfl

/-- A SETTLING entry leaves the sequencer nothing to do. -/
theorem Loader.settling_rests (l : Loader) (time : Nat) : (l.settling e x k time).Rests := .inr ⟨_, rfl, .inr rfl⟩

theorem bodyStopLoad_loading (he : s.loader.current = some e) (hs : e.state = .loading) :
    bodyStopLoad s = ((s.stopLoading .operatorStop).follow s, Reply.ok) := by
  simp only [bodyStopLoad, he, hs]

theorem bodyStopLoad_settling (he : s.loader.current = some e) (hs : e.state = .settling) :
    bodyStopLoad s = (s, Reply.ok) := by
  simp only [bodyStopLoad, he, hs]
  rfl

theorem bodyStopLoad_none (he : s.loader.current = none) : bodyStopLoad s = s.deny .wrongState := by
  simp only [bodyStopLoad, he]

theorem bodyStopLoad_waiting (he : s.loader.current = some e) (hs : e.state = .due ∨ e.state = .waiting) :
    bodyStopLoad s = ((s.dropped e .operatorStop).afterEntry.follow s, Reply.ok) := by
  rcases hs with hs | hs <;> simp only [bodyStopLoad, he, hs] <;> rfl

/-- The switch's new state, before the sequencer acts (R141). -/
def State.switched (s : State) (c : CompId) (active : Bool) : State :=
  s.setLoader { s.loader with highLevel := s.loader.highLevel.set c active }

theorem exec_highLevelSwitch (s : State) (c : CompId) (active : Bool) :
    exec (.highLevelSwitch c active) s =
      .next
        (if active = true ∧ ¬ s.loader.highLevel.get c = true ∧ (s.switched c active).loadingOn c = true ∧
            ¬ s.inReset = true then
          (s.switched c active).stopLoading .highLevel
        else s.switched c active) := rfl

end stopped

/-- Settles O45: each end of LOADING, and the entry that ends without a receipt. -/
theorem loadingIsStopped : Obligations.LoadingIsStopped := by
  intro r s
  refine ⟨?_, ?_, ?_, ?_, fun e x runs he hs hx => ?_, fun e x awake low he hs hx => ?_, fun c => ?_⟩
  · rintro u e x ht rfl he hs hx
    have stops := State.stopLoading_settles (k := .operatorStop) he hs hx
    obtain ⟨loader, stock, journal, -⟩ := State.follow_loader ((s.frameReceived r.port).stopLoading .operatorStop)
      (s.frameReceived r.port) (by rw [stops]; exact Loader.settling_rests ..)
    refine ⟨_, Answers.of_body (fun _ => rfl) ht (bodyStopLoad_loading he hs), ?_, ?_, ?_⟩
    · rw [loader, stops]; rfl
    · rw [stock, stops]; rfl
    · rw [journal, stops]; rfl
  · rintro u e ht rfl he hs
    exact Answers.of_body (fun _ => rfl) ht (bodyStopLoad_settling he hs)
  · rintro u ht rfl he
    exact Answers.of_body (fun _ => rfl) ht (bodyStopLoad_none he)
  · rintro u e ht rfl he hs
    have hf := State.follow_followedBy ((s.frameReceived r.port).dropped e .operatorStop).afterEntry
      (s.frameReceived r.port)
    have tells {o : PortId} (h : Notice.loadDone.ports.port o = true) :=
      hf.notices o .loadDone (by decide) ((State.afterEntry_has o (by decide)).trans (State.dropped_tells h))
    refine ⟨_, Answers.of_body (fun _ => rfl) ht (bodyStopLoad_waiting he hs), ?_, tells rfl, tells rfl,
      fun empty => ?_, fun h rest w opened staged hw slot => ?_⟩
    · rw [hf.journal]
      simp only [State.afterEntry_frame]
      rfl
    · exact State.dropped_ends (s.frameReceived r.port) empty
    · rw [State.dropped_opened opened]
      exact State.dropped_promotes _ opened staged hw slot
  · exact congrArg Host.Outcome.next ((if_pos runs).trans (State.stopLoading_settles he hs hx))
  · have loading : (s.switched e.comp true).loadingOn e.comp = true := by
      simp [State.loadingOn, State.switched, he, hs]
    rw [exec_highLevelSwitch, if_pos ⟨rfl, Bool.eq_false_iff.mp low, loading, Bool.eq_false_iff.mp awake⟩,
      State.stopLoading_settles (s := s.switched e.comp true) he hs hx]
    rfl
  · rw [exec_highLevelSwitch, if_neg fun h => Bool.false_ne_true h.1]
    rfl

end Sys2Proof.Machine

/-! SUPPORT AND CERTIFICATES. The load plan's commands (R133, R134, R147). -/

namespace Sys2Proof.Machine

open Sys2Proof

/-- What a port is told stands in the ports alone. -/
theorem State.has_of_ports {s t : State} (h : t.ports = s.ports) {o : PortId} {n : Notice} :
    (t.port o).has n = (s.port o).has n := congrArg (fun y : Triple Port => (y.port o).has n) h

section close

variable {s t : State} {e : Entry} {x : LoadContext} {k : EndCause}

/-- A plan that goes to NONE takes its standing notice with it (R136, R147). -/
theorem State.clearStageEmpty_withdraws (h : s.loader.stageEmpty = true) (o : PortId) :
    (s.clearStageEmpty.port o).has .loadStageEmpty = false := by
  rw [State.clearStageEmpty, if_pos h, State.withdraw_port, Port.has_withdraw]
  simp

theorem State.closePlan_withdraws (h : s.loader.stageEmpty = true) (o : PortId) :
    (s.closePlan.port o).has .loadStageEmpty = false := by
  unfold State.closePlan
  exact State.clearStageEmpty_withdraws (by exact h) o

theorem State.closePlan_rest : { s.closePlan with loader := s.loader, ports := s.ports } = s := by
  unfold State.closePlan State.clearStageEmpty
  split <;> rfl

theorem bodyCloseLoadPlan_unopened (h : s.loader.state ≠ .opened) : bodyCloseLoadPlan s = s.deny .wrongState := if_pos h

theorem bodyCloseLoadPlan_idle (h : s.loader.state = .opened) (he : s.loader.current = none) :
    bodyCloseLoadPlan s = (s.closePlan, Reply.ok) := by
  simp [bodyCloseLoadPlan, h, he]

theorem bodyCloseLoadPlan_loading (h : s.loader.state = .opened) (he : s.loader.current = some e)
    (hs : e.state = .loading) :
    bodyCloseLoadPlan s = (((s.stopLoading .operatorStop).beginClosing).follow s, Reply.ok) := by
  simp [bodyCloseLoadPlan, h, he, hs]

theorem bodyCloseLoadPlan_settling (h : s.loader.state = .opened) (he : s.loader.current = some e)
    (hs : e.state = .settling) : bodyCloseLoadPlan s = (s.beginClosing, Reply.ok) := by
  simp [bodyCloseLoadPlan, h, he, hs]

theorem bodyCloseLoadPlan_waiting (h : s.loader.state = .opened) (he : s.loader.current = some e)
    (hs : e.state = .due ∨ e.state = .waiting) :
    bodyCloseLoadPlan s = ((s.dropped e .operatorStop).closePlan.follow s, Reply.ok) := by
  rcases hs with hs | hs <;> simp only [bodyCloseLoadPlan, h, he, hs] <;> rfl

/-- The plan goes to CLOSING with its LOADING entry sent to SETTLING (R147). -/
theorem State.closing_loader (old : State) (he : s.loader.current = some e) (hs : e.state = .loading)
    (hx : e.context = some x) :
    (((s.stopLoading k).beginClosing).follow old).loader =
      { s.loader.settling e x k s.times.meterSettle with state := .closing, staged := [], paused := false } := by
  have stops := State.stopLoading_settles (k := k) he hs hx
  have rests : ((s.stopLoading k).beginClosing).loader.Rests := by
    rw [stops]
    exact .inr ⟨_, rfl, .inr rfl⟩
  obtain ⟨loader, -⟩ := State.follow_loader ((s.stopLoading k).beginClosing) old rests
  rw [loader, stops]
  rfl

/-- A plan closed with a DUE or WAITING entry is NONE at once, and the blocks that follow leave it so (R146, R147). -/
theorem State.closed_loader (old : State) :
    ((s.dropped e k).closePlan.follow old).loader = (s.dropped e k).closePlan.loader ∧
      (∀ c, ((s.dropped e k).closePlan.follow old).comp c =
        (s.comp c).map fun x => if c = e.comp then { x with draining := false } else x) ∧
      ((s.dropped e k).closePlan.follow old).journal = { s.journal with reserved := s.journal.reserved - 1 } ∧
      ((s.dropped e k).closePlan.follow old).channels = s.channels ∧
      ((s.dropped e k).closePlan.follow old).ports = (s.dropped e k).closePlan.ports := by
  have plan := State.closePlan_loader (s.dropped e k)
  have rests : (s.dropped e k).closePlan.loader.Rests := by
    rw [plan]
    exact .inl ⟨rfl, .inl rfl⟩
  obtain ⟨loader, stock, journal, channels, ports⟩ := State.follow_loader (s.dropped e k).closePlan old rests
  refine ⟨loader, fun c => ?_, ?_, ?_, ports⟩
  · refine (congrArg (Quad.get · c) stock).trans ?_
    simp only [State.closePlan_frame]
    exact State.dropped_comp c
  · rw [journal]
    simp only [State.closePlan_frame]
    rfl
  · rw [channels]
    simp only [State.closePlan_frame]
    rfl

theorem State.closed_withdraws (h : s.loader.stageEmpty = true) (o : PortId) :
    ((s.dropped e k).closePlan.port o).has .loadStageEmpty = false :=
  State.closePlan_withdraws (s := s.dropped e k) ((congrArg Loader.stageEmpty State.dropEntry_loader).trans h) o

end close

/-! ### APPEND_LOAD_ENTRY (R134 to R136) -/

section append

variable {s : State} {n v : Nat} {c : CompId} {g : Target} {x : Compartment} {e : Entry}

/-- The entry staged, with stage empty cleared (R134, R136). -/
def State.stagedWith (s : State) (c : CompId) (g : Target) : State :=
  (s.setLoader { s.loader with staged := s.loader.staged ++ [{ comp := c, target := g }] }).clearStageEmpty

theorem State.stagedWith_loader :
    (s.stagedWith c g).loader =
      { s.loader with staged := s.loader.staged ++ [{ comp := c, target := g }], stageEmpty := false } := by
  rw [State.stagedWith, State.clearStageEmpty_loader]
  rfl

theorem bodyAppendLoadEntry_full (hc : num4Of n = some c) (hg : targetOf v = some g) (ho : s.loader.state = .opened)
    (hx : (s.comp c).isSome = true) (hl : 4 ≤ s.loader.staged.length) :
    bodyAppendLoadEntry n v s = s.deny .full := by
  have known : ¬ (s.comp c).isNone = true := by
    rw [Option.isNone_iff_eq_none]
    exact Option.isSome_iff_ne_none.mp hx
  simp only [bodyAppendLoadEntry, hc, hg]
  rw [if_neg (by simp [ho]), if_neg known]
  exact if_pos hl

theorem bodyAppendLoadEntry_stages (hc : num4Of n = some c) (hg : targetOf v = some g) (ho : s.loader.state = .opened)
    (hx : (s.comp c).isSome = true) (hl : s.loader.staged.length < 4) :
    bodyAppendLoadEntry n v s =
      ((s.stagedWith c g).follow s,
        Reply.okWith
          (if (s.loader.current.isNone && s.loader.staged.isEmpty && s.journal.canReserve) = true then
            [fld 1 0, fld 4 0]
          else [fld 1 1, fld 4 (s.loader.staged.length + 1)])) := by
  have known : ¬ (s.comp c).isNone = true := by
    rw [Option.isNone_iff_eq_none]
    exact Option.isSome_iff_ne_none.mp hx
  simp only [bodyAppendLoadEntry, hc, hg]
  rw [if_neg (by simp [ho]), if_neg known]
  exact if_neg (Nat.not_le_of_lt hl)

/-- Behind an entry that loads or settles, the sequencer has nothing to do (R135). -/
theorem State.stagedWith_rests (he : s.loader.current = some e) (hs : e.state = .loading ∨ e.state = .settling) :
    (s.stagedWith c g).loader.Rests := by
  rw [State.stagedWith_loader]
  exact .inr ⟨e, he, hs⟩

/-- A promotion onto an out-of-service compartment leaves the entry DUE, and nothing more is due (R135, R137). -/
theorem State.follow_due (old : State) {h : Staged} {rest : List Staged} (ho : s.loader.state = .opened)
    (he : s.loader.current = none) (hs : s.loader.staged = h :: rest) (hx : s.comp h.comp = some x)
    (hj : s.journal.canReserve = true) (hd : x.state = .outOfService) :
    (s.follow old).loader = (s.promote h rest).loader ∧ (s.follow old).journal = (s.promote h rest).journal ∧
      (s.follow old).ports = (s.promote h rest).ports := by
  obtain ⟨⟨current, -⟩, comp⟩ := State.promote_ok s h rest x hx hj
  have promotes : s.tryStart.tryPromote = s.promote h rest := by
    have idle : s.tryStart = s := by
      unfold State.tryStart
      rw [he]
    rw [idle]
    unfold State.tryPromote
    rw [ho, he, hs]
  have still (z : State) (hz : z.loader.current = some h.due) (hc : z.comp h.comp = some { x with draining := true }) :
      z.tryStart = z := by
    have tests : z.tryStart = z.startTest h.due := by
      unfold State.tryStart
      rw [hz]
      exact if_pos (.inl rfl)
    rw [tests]
    unfold State.startTest
    rw [hc]
    exact (if_pos hd).trans (State.setEntryState_same z _ _ hz)
  have advances : s.advance = s.promote h rest := by
    have fixed := State.advance_fixed (s.promote h rest) h.due current (still _ current comp)
    have skip : (s.promote h rest).tryPromote = s.promote h rest := by
      unfold State.tryPromote
      rw [current]
      cases (s.promote h rest).loader.state <;> cases (s.promote h rest).loader.staged <;> rfl
    unfold State.advance
    rw [promotes, still _ current comp, skip, still _ current comp, skip, still _ current comp, skip,
      still _ current comp, skip, still _ current comp]
  obtain ⟨loader, -, journal, -, ports⟩ := State.follow_fixed s old (by
    rw [advances]
    exact State.advance_fixed _ h.due (by simpa only [State.arbitrate_frame] using current)
      (still _ (by simpa only [State.arbitrate_frame] using current)
        (by simpa only [State.arbitrate_frame] using comp)))
  rw [advances] at loader journal ports
  exact ⟨loader, journal, ports⟩

end append

theorem bodyOpenLoadPlan_opens {s : State} {raw : RawOpt (List Nat)} {docket : Option (List Nat)}
    (hd : readOpt (List.replicate 12 0) (printableCode 12) raw = some docket) (h : s.loader.state = .none)
    (k : s.power.state ≠ .wakeSettle) :
    bodyOpenLoadPlan raw s =
      (s.setLoader
        { s.loader with
          state := .opened, docket := docket, current := none, staged := [], paused := false, stageEmpty := false },
        Reply.ok) := by
  simp only [bodyOpenLoadPlan, hd, h, k, ne_eq, not_true_eq_false, if_false]

theorem bodyOpenLoadPlan_wrongState {s : State} {raw : RawOpt (List Nat)} {docket : Option (List Nat)}
    (hd : readOpt (List.replicate 12 0) (printableCode 12) raw = some docket)
    (h : s.loader.state ≠ .none ∨ s.power.state = .wakeSettle) : bodyOpenLoadPlan raw s = s.deny .wrongState := by
  simp only [bodyOpenLoadPlan, hd]
  by_cases plan : s.loader.state = .none
  · rw [if_neg (not_not_intro plan), if_pos (h.resolve_left (not_not_intro plan))]
  · rw [if_pos plan]

/-! ### The entry that an empty plan promotes at once (R134, R135) -/
section first

variable {s : State} {c : CompId} {g : Target} {x : Compartment}

variable (ho : s.loader.state = .opened) (hx : s.comp c = some x) (hl : s.loader.staged = [])
  (he : s.loader.current = none) (hj : s.journal.canReserve = true)
include ho hx hl he hj

theorem State.stagedWith_promotes (old : State) :
    (s.stagedWith c g).Promotes ((s.stagedWith c g).follow old) { comp := c, target := g } [] x := by
  have loader := s.stagedWith_loader (c := c) (g := g)
  have comp : (s.stagedWith c g).comp c = some x := by
    rw [← hx]
    simp only [State.stagedWith, State.clearStageEmpty_frame, State.setLoader_comp]
  have journal : (s.stagedWith c g).journal = s.journal := by
    simp only [State.stagedWith, State.clearStageEmpty_frame, State.setLoader_journal]
  exact State.follow_promotes _ old { comp := c, target := g } [] x (by rw [loader]; exact ho)
    (by rw [loader]; exact he) (by rw [loader, hl]; rfl) comp (by rw [journal]; exact hj)

/-- DUE on an out-of-service compartment: the slot reserved and LOAD_STAGE_EMPTY raised (R135, R136). -/
theorem State.stagedWith_due (old : State) (hd : x.state = .outOfService) :
    ((s.stagedWith c g).follow old).loader.stageEmpty = true ∧
      ((s.stagedWith c g).follow old).journal.reserved = s.journal.reserved + 1 ∧
      (((s.stagedWith c g).follow old).port .operator).has .loadStageEmpty = true := by
  have staged := s.stagedWith_loader (c := c) (g := g)
  have comp : (s.stagedWith c g).comp c = some x := by
    rw [← hx]
    simp only [State.stagedWith, State.clearStageEmpty_frame, State.setLoader_comp]
  have slots : (s.stagedWith c g).journal = s.journal := by
    simp only [State.stagedWith, State.clearStageEmpty_frame, State.setLoader_journal]
  have slot : (s.stagedWith c g).journal.canReserve = true := by rw [slots]; exact hj
  obtain ⟨loader, journal, ports⟩ := State.follow_due (s := s.stagedWith c g) old (h := { comp := c, target := g })
    (rest := []) (by rw [staged]; exact ho) (by rw [staged]; exact he) (by rw [staged, hl]; rfl) comp slot hd
  refine ⟨?_, ?_, ?_⟩
  · rw [loader, State.promote, if_pos slot]
    rfl
  · rw [journal, State.promote, if_pos slot, ← slots]
    exact (s.stagedWith c g).reserveSlot_slots.2.2.1
  · refine (congrArg (fun y : Triple Port => (y.port .operator).has .loadStageEmpty) ports).trans ?_
    rw [State.promote, if_pos slot]
    exact State.raised _ rfl

/-- On a free compartment with ullage the entry starts LOADING (R135, R138, R139). -/
theorem State.stagedWith_starts (old : State) (hs : x.state ≠ .outOfService)
    (held : s.arbiter.selector.holds c = false) (drawn : s.segmentOn c = false) (room : (100 : Int) ≤ x.ullage)
    (ahead : s.loader.closeAhead < (g.used x.ullage.toNat).1) (high : s.loader.highLevel.get c = false) :
    (((s.stagedWith c g).follow old).comp c).any (fun y => y.state == .loading) = true ∧
      ((s.stagedWith c g).follow old).loader.inlets.get c = true ∧
      ((s.stagedWith c g).follow old).channels.third.bound = true ∧
      ∃ e y, ((s.stagedWith c g).follow old).loader.current = some e ∧ e.comp = c ∧ e.state = .loading ∧
        e.context = some y ∧ y.product = x.product ∧ y.used = (g.used x.ullage.toNat).1 ∧ y.net_uL = 0 := by
  have loader := s.stagedWith_loader (c := c) (g := g)
  have arbiter : (s.stagedWith c g).arbiter = s.arbiter := by
    simp only [State.stagedWith, State.clearStageEmpty_frame, State.setLoader_arbiter]
  have segment : (s.stagedWith c g).segmentOn c = s.segmentOn c := by
    simp only [State.segmentOn, State.stagedWith, State.clearStageEmpty_frame, State.setLoader_points]
  obtain ⟨-, comp, inlet, bound, e, y, current, on, -, state, context, product, used, net⟩ :=
    (State.stagedWith_promotes ho hx hl he hj old (g := g)).starts hs (segment.trans drawn)
      ((congrArg (fun a : Arbiter => a.selector.holds c) arbiter).trans held) room (by rw [loader]; exact ahead)
      (by rw [loader]; exact high)
  refine ⟨?_, inlet, bound, e, y, current, on, state, context, product, used, net⟩
  rw [comp]
  rfl

end first

/-! ### The statement -/

/-- Settles O44: each command by its body's equation, and the loader that the blocks leave behind it. -/
theorem loadPlanCommandsAct : Obligations.LoadPlanCommandsAct := by
  intro r s u ht hu
  subst hu
  refine ⟨fun raw docket hd h k => ?_, fun raw docket hd h => ?_, fun h he => ?_, fun e x h he hs hx => ?_,
    fun e h he hs => ?_, fun e h he hs => ?_, fun h => ?_, fun n c v g e hc hg ho hx hl he hs => ?_,
    fun n c v g x hc hg ho hx hl he hj => ?_, fun n c v g hc hg ho hx hl => ?_⟩
  · exact Answers.of_body (fun _ => rfl) ht (bodyOpenLoadPlan_opens hd h k)
  · exact Answers.of_body (fun _ => rfl) ht (bodyOpenLoadPlan_wrongState hd h)
  · refine ⟨_, Answers.of_body (fun _ => rfl) ht (bodyCloseLoadPlan_idle h he), State.closePlan_loader _,
      fun standing => State.closePlan_withdraws standing, State.closePlan_rest⟩
  · have loader := State.closing_loader (k := .operatorStop) (s.frameReceived r.port) he hs hx
    refine ⟨_, Answers.of_body (fun _ => rfl) ht (bodyCloseLoadPlan_loading h he hs), ?_⟩
    rw [loader]
    exact ⟨rfl, rfl, Quad.get_set_same .., rfl, rfl⟩
  · exact Answers.of_body (fun _ => rfl) ht (bodyCloseLoadPlan_settling h he hs)
  · obtain ⟨loader, comp, journal, channels, ports⟩ :=
      State.closed_loader (s := s.frameReceived r.port) (e := e) (k := .operatorStop) (s.frameReceived r.port)
    have plan := State.closePlan_loader ((s.frameReceived r.port).dropped e .operatorStop)
    have tells {o : PortId} (h : Notice.loadDone.ports.port o = true) :
        (((s.frameReceived r.port).dropped e .operatorStop).closePlan.port o).has .loadDone = true :=
      (State.closePlan_has o (by decide)).trans (State.dropped_tells h)
    refine ⟨_, Answers.of_body (fun _ => rfl) ht (bodyCloseLoadPlan_waiting h he hs), ?_, ?_, ?_, ?_, ?_, ?_, ?_,
      journal, comp, channels, ?_, ?_, fun standing o => ?_⟩
    · rw [loader, plan]
    · rw [loader, plan]; rfl
    · rw [loader, plan]
    · rw [loader, plan]
    · rw [loader, plan]
    · rw [loader, plan]
    · rw [loader, plan]; rfl
    · rw [State.has_of_ports ports]; exact tells rfl
    · rw [State.has_of_ports ports]; exact tells rfl
    · rw [State.has_of_ports ports]; exact State.closed_withdraws standing o
  · exact Answers.of_body (fun _ => rfl) ht (bodyCloseLoadPlan_unopened h)
  · have rests := State.stagedWith_rests (s := s.frameReceived r.port) (c := c) (g := g) he hs
    obtain ⟨loader, -, journal, -⟩ := State.follow_loader _ (s.frameReceived r.port) rests
    have behind : ¬ ((s.frameReceived r.port).loader.current.isNone && (s.frameReceived r.port).loader.staged.isEmpty &&
        (s.frameReceived r.port).journal.canReserve) = true := by
      rw [he]; exact Bool.false_ne_true
    refine ⟨_, Answers.of_body (fun _ => rfl) ht ((bodyAppendLoadEntry_stages hc hg ho hx hl).trans
      (by rw [if_neg behind])), ?_, ?_, ?_, ?_⟩
    · rw [loader, State.stagedWith_loader]
    · rw [loader, State.stagedWith_loader]; exact he
    · rw [loader, State.stagedWith_loader]
    · rw [journal]
      simp only [State.stagedWith, State.clearStageEmpty_frame, State.setLoader_journal]
  · have empty : ((s.frameReceived r.port).loader.current.isNone && (s.frameReceived r.port).loader.staged.isEmpty &&
        (s.frameReceived r.port).journal.canReserve) = true := by
      rw [he, hl, hj]; rfl
    have promotes := State.stagedWith_promotes ho hx hl he hj (s.frameReceived r.port) (g := g)
    refine ⟨_, Answers.of_body (fun _ => rfl) ht ((bodyAppendLoadEntry_stages hc hg ho (by rw [hx]; rfl)
      (by rw [hl]; decide)).trans (by rw [if_pos empty])), fun hd => ?_, fun hs held drawn room ahead high =>
      State.stagedWith_starts ho hx hl he hj (s.frameReceived r.port) hs held drawn room ahead high⟩
    obtain ⟨current, staged, comp⟩ := promotes.due hd
    obtain ⟨tells, slots, notice⟩ := State.stagedWith_due ho hx hl he hj (s.frameReceived r.port) hd (g := g)
    exact ⟨current, staged, tells, slots, comp, notice⟩
  · exact Answers.of_body (fun _ => rfl) ht (bodyAppendLoadEntry_full hc hg ho hx hl)

end Sys2Proof.Machine

/-! SUPPORT AND CERTIFICATES. The receipt that closes a load entry (R145). -/

namespace Sys2Proof.Machine

open Sys2Proof

/-! ### The receipt close (R145, steps 1 to 6) -/

section receipt

variable {s : State} {e : Entry} {x : LoadContext} {y : Compartment} {k : EndCause} {b : Bool}

theorem State.closeReceipt_loader :
    (s.closeReceipt e x k b).loader =
      { s.loader with
        current := none, lastResult := some { seq := some s.journal.next, comp := e.comp, cause := k }, settle := none
        noFlow := none, inlets := s.loader.inlets.set e.comp false } := by
  simp only [State.closeReceipt, State.raise_loader, State.endEntry, State.setLoader_loader, State.receiveStock_frame,
    State.storeReserved_frame, State.unbindChannel_frame]

theorem State.closeReceipt_slots (hy : s.comp e.comp = some y) :
    (s.closeReceipt e x k b).journal.reserved = s.journal.reserved - 1 ∧
      ∃ r, (s.closeReceipt e x k b).journal.records = s.journal.records ++ [r] ∧ r.seq = s.journal.next ∧
        r.body = .receipt (receiptOf e x y.book (min Config.bookMax (y.book + cLof x.net_uL)) k b) := by
  unfold State.closeReceipt
  rw [hy]
  simp only [State.raise_journal, State.endEntry, State.setLoader_journal, State.receiveStock_frame,
    State.storeReserved_slots, State.unbindChannel_frame, List.append_cancel_left_eq, List.cons.injEq, and_true,
    true_and]
  exact ⟨_, rfl, rfl, rfl⟩

theorem State.closeReceipt_channel : (s.closeReceipt e x k b).channels.third.bound = false := by
  simp only [State.closeReceipt, State.raise_channels, State.endEntry, State.setLoader_channels,
    State.receiveStock_frame, State.storeReserved_frame]
  rfl

theorem State.closeReceipt_tells {o : PortId} (h : Notice.loadDone.ports.port o = true) :
    ((s.closeReceipt e x k b).port o).has .loadDone = true := State.raised _ h

/-- The compartment that has received: the net volume in its book, IN_SERVICE, DRAINING and SUCTION_LOST clear, its
reorder mark as its stock stands (R124, R145). -/
def Compartment.received (y z : Compartment) (net : Nat) : Prop :=
  z = { y with
    book := min Config.bookMax (y.book + net), state := .inService, draining := false, suctionLost := false
    settle := z.settle, reorderSent := z.reorderSent }

theorem State.receiveStock_comp {c : CompId} {n : Nat} (hy : s.comp c = some y) :
    ∃ z, (s.receiveStock c n).comp c = some z ∧ y.received z n := by
  unfold State.receiveStock
  rw [State.startSettle_comp, if_pos rfl, State.reorderNew_comp, if_pos rfl, State.modComp_comp_same, hy]
  refine ⟨_, rfl, ?_⟩
  split <;> rfl

theorem State.receiveStock_comp_ne {c d : CompId} {n : Nat} (h : d ≠ c) : (s.receiveStock c n).comp d = s.comp d := by
  unfold State.receiveStock
  rw [State.startSettle_comp, if_neg h, State.reorderNew_comp, if_neg h, State.modComp_comp_ne _ _ _ _ h]

theorem State.closeReceipt_comp (hy : s.comp e.comp = some y) :
    ∃ z, (s.closeReceipt e x k b).comp e.comp = some z ∧ y.received z (cLof x.net_uL) := by
  simp only [State.closeReceipt, State.raise_comp, State.endEntry, State.setLoader_comp]
  exact State.receiveStock_comp (by simpa only [State.storeReserved_frame, State.unbindChannel_frame] using hy)

theorem State.closeReceipt_comp_ne {c : CompId} (h : c ≠ e.comp) :
    (s.closeReceipt e x k b).comp c = s.comp c := by
  simp only [State.closeReceipt, State.raise_comp, State.endEntry, State.setLoader_comp, State.receiveStock_comp_ne h,
    State.storeReserved_frame, State.unbindChannel_frame]

/-- The record of the head staged entry behind the receipt: its own compartment has received, another is as it was. -/
theorem State.closeReceipt_head {h : Staged} {w : Compartment} (hw : s.comp h.comp = some w) :
    ∃ z, (s.closeReceipt e x k b).comp h.comp = some z ∧ z.product = w.product ∧ z.capacity = w.capacity ∧
      z.safeFill = w.safeFill ∧
      (h.comp = e.comp → z.state = .inService ∧ z.book = min Config.bookMax (w.book + cLof x.net_uL)) ∧
      (h.comp ≠ e.comp → z = w) := by
  by_cases same : h.comp = e.comp
  · rw [same] at hw ⊢
    obtain ⟨z, hz, rec⟩ := State.closeReceipt_comp (x := x) (k := k) (b := b) hw
    unfold Compartment.received at rec
    rw [rec] at hz
    exact ⟨_, hz, rfl, rfl, rfl, fun _ => ⟨rfl, rfl⟩, fun ne => absurd rfl ne⟩
  · exact ⟨w, (State.closeReceipt_comp_ne same).trans hw, rfl, rfl, rfl, fun h => absurd h same, fun _ => rfl⟩

/-- The receipt takes the slot its entry held: the room behind it is as it was (R154). -/
theorem State.closeReceipt_canReserve (hy : s.comp e.comp = some y) (held : 0 < s.journal.reserved) :
    (s.closeReceipt e x k b).journal.canReserve = s.journal.canReserve := by
  obtain ⟨reserved, r, records, -⟩ := State.closeReceipt_slots (x := x) (k := k) (b := b) hy
  have room : (s.closeReceipt e x k b).journal.room = s.journal.room := by
    unfold Journal.room Journal.occupied
    rw [reserved, records, List.length_append, List.length_singleton]
    omega
  unfold Journal.canReserve
  rw [room]

end receipt

/-! ### A plan that pauses (R135) -/

section pause

variable {s : State} {h : Staged} {rest : List Staged}

/-- Without a current entry there is no start test (R137). -/
theorem State.tryStart_none (hc : s.loader.current = none) : s.tryStart = s := by unfold State.tryStart; rw [hc]

/-- A paused plan without a slot does nothing. -/
theorem State.tryPromote_paused (hc : s.loader.current = none) (hs : s.loader.staged = h :: rest)
    (slot : s.journal.canReserve = false) (paused : s.loader.paused = true) : s.tryPromote = s := by
  unfold State.tryPromote
  rw [hc, hs]
  cases s.loader.state
  case opened => exact (if_neg (Bool.eq_false_iff.mp slot)).trans (if_pos paused)
  all_goals rfl

theorem State.advance_paused (hc : s.loader.current = none) (hs : s.loader.staged = h :: rest)
    (slot : s.journal.canReserve = false) (paused : s.loader.paused = true) : s.advance = s := by
  simp only [State.advance, State.tryStart_none hc, State.tryPromote_paused hc hs slot paused]

/-- Without a slot the promotion pauses the plan and keeps it (R135). -/
theorem State.promote_pauses (slot : s.journal.canReserve = false) :
    (s.promote h rest).loader = { s.loader with paused := true } ∧ (s.promote h rest).journal = s.journal ∧
      (s.loader.paused = false → ((s.promote h rest).port .operator).has .journalFull = true) := by
  unfold State.promote
  rw [if_neg (Bool.eq_false_iff.mp slot)]
  by_cases paused : s.loader.paused = true
  · rw [if_pos paused]
    refine ⟨?_, rfl, fun k => absurd (paused.symm.trans k) Bool.noConfusion⟩
    rw [← paused]
  · rw [if_neg paused]
    exact ⟨rfl, rfl, fun _ => State.raised _ rfl⟩

/-- The blocks that follow pause an OPEN plan that finds no slot for its head staged entry (R135). -/
theorem State.follow_pauses (old : State) (ho : s.loader.state = .opened) (hc : s.loader.current = none)
    (hs : s.loader.staged = h :: rest) (slot : s.journal.canReserve = false) :
    (s.follow old).loader = { s.loader with paused := true } ∧
      (s.loader.paused = false → ((s.follow old).port .operator).has .journalFull = true) := by
  obtain ⟨loader, journal, notice⟩ := State.promote_pauses (h := h) (rest := rest) slot
  have still (z : State) (zl : z.loader = (s.promote h rest).loader) (zj : z.journal = (s.promote h rest).journal) :
      z.advance = z :=
    State.advance_paused (h := h) (rest := rest) (by rw [zl, loader]; exact hc) (by rw [zl, loader]; exact hs)
      (by rw [zj, journal]; exact slot) (by rw [zl, loader])
  have advances : s.advance = s.promote h rest := by
    have promote : s.tryPromote = s.promote h rest := by unfold State.tryPromote; rw [ho, hc, hs]
    have current : (s.promote h rest).loader.current = none := by rw [loader]; exact hc
    have again : (s.promote h rest).tryPromote = s.promote h rest :=
      State.tryPromote_paused (h := h) (rest := rest) current (by rw [loader]; exact hs) (by rw [journal]; exact slot)
        (by rw [loader])
    simp only [State.advance, State.tryStart_none hc, promote, State.tryStart_none current, again]
  obtain ⟨keeps, -, -, -, ports⟩ := State.follow_fixed s old (by
    rw [advances]
    exact still _ (by simp only [State.arbitrate_frame]) (by simp only [State.arbitrate_frame]))
  rw [advances] at keeps ports
  exact ⟨keeps.trans loader, fun k => (State.has_of_ports ports).trans (notice k)⟩

end pause

/-! ### The statement -/

theorem exec_loadSettle {s : State} {e : Entry} {x : LoadContext} {k : EndCause} (runs : s.loader.settle.isSome = true)
    (he : s.loader.current = some e) (hx : e.context = some x) (hk : x.pendingEnd = some k) :
    exec .loadSettleExpiry s = .next ((s.closeReceipt e x k false).afterEntry.follow s) := by
  refine congrArg Host.Outcome.next ((if_pos runs).trans ?_)
  unfold State.endSettling
  simp only [he, hx, hk]

/-- Settles O46: the receipt close, the plan's going on behind it, and the promotion or the pause that follows. -/
theorem receiptClosesTheEntry : Obligations.ReceiptClosesTheEntry := by
  intro s e x y k runs he hx hk hy
  have loader := State.closeReceipt_loader (s := s) (e := e) (x := x) (k := k) (b := false)
  obtain ⟨reserved, r, records, seq, body⟩ := State.closeReceipt_slots (x := x) (k := k) (b := false) hy
  obtain ⟨z, hz, rec⟩ := State.closeReceipt_comp (x := x) (k := k) (b := false) hy
  unfold Compartment.received at rec
  have hf := State.follow_followedBy (s.closeReceipt e x k false).afterEntry s
  have tells {o : PortId} (h : Notice.loadDone.ports.port o = true) :=
    hf.notices o .loadDone (by decide) ((State.afterEntry_has o (by decide)).trans
      (State.closeReceipt_tells (s := s) (e := e) (x := x) (k := k) (b := false) h))
  refine ⟨_, r, exec_loadSettle runs he hx hk, ?_, seq, body, ?_, tells rfl, tells rfl, fun empty => ?_,
    fun h rest w opened staged hw held => ?_⟩
  · rw [hf.journal]
    simp only [State.afterEntry_frame]
    exact records
  · obtain ⟨v, hv, loads, -⟩ := hf.comps e.comp z (by simpa only [State.afterEntry_frame] using hz)
    rw [hv, loads, rec]
    rfl
  · have plan := State.afterEntry_loader (s.closeReceipt e x k false)
    rw [loader] at plan
    have rests : (s.closeReceipt e x k false).afterEntry.loader.Rests := by
      rw [plan]
      split
      · exact .inl ⟨rfl, .inl rfl⟩
      · exact .inl ⟨rfl, .inl empty⟩
    obtain ⟨follows, stock, journal, channels, -⟩ := State.follow_loader _ s rests
    refine ⟨?_, ?_, ?_, ?_, fun closing => ?_, ?_, ?_⟩
    · rw [journal]
      simp only [State.afterEntry_frame]
      exact reserved
    · rw [follows, plan]; split <;> rfl
    · rw [follows, plan, seq]; split <;> rfl
    · rw [follows, plan]; split <;> exact Quad.get_set_same ..
    · rw [follows, plan, if_pos closing]
    · rw [channels]
      simp only [State.afterEntry_frame]
      exact State.closeReceipt_channel
    · have comp : ((s.closeReceipt e x k false).afterEntry.follow s).comp e.comp = some z := by
        refine (congrArg (Quad.get · e.comp) stock).trans ?_
        simp only [State.afterEntry_frame]
        exact hz
      rw [comp, rec]
      rfl
  · have open' : (s.closeReceipt e x k false).loader.state = .opened := by rw [loader]; exact opened
    have current : (s.closeReceipt e x k false).loader.current = none := by rw [loader]
    have head : (s.closeReceipt e x k false).loader.staged = h :: rest := by rw [loader]; exact staged
    have slot := State.closeReceipt_canReserve (x := x) (k := k) (b := false) hy held
    rw [State.afterEntry_opened open']
    refine ⟨fun free => ?_, fun full => ?_⟩
    · obtain ⟨z, hz, record⟩ := State.closeReceipt_head (x := x) (k := k) (b := false) (e := e) hw
      have promotes := State.follow_promotes _ s h rest z open' current head hz (slot.trans free)
      refine ⟨z, promotes.of_ended ?_ ?_ (by rw [loader]) (by rw [loader]) (.inl rfl), record⟩
      · simp only [State.segmentOn, State.closeReceipt_frame]
      · simp only [State.closeReceipt_frame]
    · obtain ⟨pauses, notice⟩ := State.follow_pauses s open' current head (slot.trans full)
      rw [pauses]
      refine ⟨current, rfl, head, ?_, fun k => notice (by rw [loader]; exact k)⟩
      rw [loader, seq]

end Sys2Proof.Machine

/-! SUPPORT AND CERTIFICATES. Service, adjustment and limits of a compartment (R117, R118, R125, R130). -/

namespace Sys2Proof.Machine

open Sys2Proof

section stock

variable {s : State} {n book reorder tolerance : Nat} {c : CompId} {x : Compartment}

theorem State.reorderNew_rest (s : State) (c : CompId) :
    { s.reorderNew c with stock := s.stock, ports := s.ports } = s := by
  unfold State.reorderNew
  split
  · rfl
  · exact State.reorderFall_rest s c

/-! ### SET_COMPARTMENT_SERVICE (R117) -/

theorem bodySetCompartmentService_sets {w : Nat} {on : Bool} {y : CompState} (hc : num4Of n = some c)
    (hw : yesNo w = some on) (hx : s.comp c = some x) (hy : x.state.service on = some y) :
    bodySetCompartmentService n w s = ((s.setComp c (some { x with state := y })).follow s, Reply.ok) := by
  simp only [bodySetCompartmentService, hc, hw, hx, hy, State.modComp_eq (h := hx)]

theorem bodySetCompartmentService_wrongState {w : Nat} {on : Bool} (hc : num4Of n = some c) (hw : yesNo w = some on)
    (hx : s.comp c = some x) (hy : x.state.service on = none) :
    bodySetCompartmentService n w s = s.deny .wrongState := by
  simp only [bodySetCompartmentService, hc, hw, hx, hy]

/-! ### ADJUST_STOCK (R125) -/

theorem bodyAdjustStock_busy (hc : num4Of n = some c) (hb : book ≤ 99999999) (hx : s.comp c = some x)
    (busy : s.segmentOn c = true ∨ x.state = .loading) : bodyAdjustStock n book s = s.deny .busy := by
  have range : decide (book ≤ Config.bookMax) = true := decide_eq_true hb
  simp only [bodyAdjustStock, hc, range, hx]
  exact if_pos busy

theorem bodyAdjustStock_free (hc : num4Of n = some c) (hb : book ≤ 99999999) (hx : s.comp c = some x)
    (idle : s.segmentOn c = false) (hs : x.state ≠ .loading) :
    bodyAdjustStock n book s =
      if ¬ s.journal.hasRoom = true then s.deny .full else ((s.adjustStock c x book).follow s, Reply.ok) := by
  have range : decide (book ≤ Config.bookMax) = true := decide_eq_true hb
  have free : ¬ (s.segmentOn c = true ∨ x.state = .loading) :=
    not_or.mpr ⟨fun h => Bool.false_ne_true (idle.symm.trans h), hs⟩
  simp only [bodyAdjustStock, hc, range, hx]
  exact if_neg free

/-- The adjusted compartment: the book set, SUCTION_LOST and VARIANCE clear, EMPTY back in service (R125). -/
theorem State.adjustStock_comp (hx : s.comp c = some x) :
    ∃ y, (s.adjustStock c x book).comp c = some y ∧ y.book = book ∧ y.reserved = x.reserved ∧ y.suctionLost = false ∧
      y.variance = false ∧ y.state = if x.state = .empty then .inService else x.state := by
  unfold State.adjustStock
  rw [State.reorderNew_comp, if_pos rfl, State.modComp_comp_same]
  simp only [State.store_frame, hx]
  exact ⟨_, rfl, rfl, rfl, rfl, rfl, rfl⟩

theorem State.adjustStock_record :
    ∃ r, (s.adjustStock c x book).journal.records = s.journal.records ++ [r] ∧ r.seq = s.journal.next ∧
      r.body = .stockAdjust c x.product x.book book ((s.gauge c).map fun g => g.net) := by
  unfold State.adjustStock
  simp only [State.reorderNew_frame, State.modComp_journal, State.store_slots, List.append_cancel_left_eq,
    List.cons.injEq, and_true]
  exact ⟨_, rfl, rfl, rfl⟩

theorem State.adjustStock_planNames (d : CompId) : (s.adjustStock c x book).planNames d = s.planNames d := by
  have loader : (s.adjustStock c x book).loader = s.loader := by
    unfold State.adjustStock
    simp only [State.reorderNew_frame, State.modComp_loader, State.store_frame]
  unfold State.planNames
  rw [loader]

/-! ### SET_STOCK_LIMITS (R118, R130) -/

theorem bodySetStockLimits_sets (hc : num4Of n = some c) (hr : reorder ≤ 4000000) (ht : tolerance ≤ 1000000)
    (hx : s.comp c = some x) :
    bodySetStockLimits n reorder tolerance s =
      ((s.setComp c (some { x with reorder := reorder, tolerance := tolerance })).reorderNew c, Reply.ok) := by
  have range : (decide (reorder ≤ 4000000) && decide (tolerance ≤ 1000000)) = true := by
    rw [decide_eq_true hr, decide_eq_true ht]; rfl
  simp only [bodySetStockLimits, hc, range, hx, Option.isNone_some, Bool.false_eq_true, if_false,
    State.modComp_eq (h := hx)]

end stock

/-! ### The statement -/

/-- Settles O47: the table of R117 state by state, the adjusted compartment with what the sequencer may do to it, and the
limits with their reorder mark. -/
theorem stockCommandsAct : Obligations.StockCommandsAct := by
  intro r s u n c x hu hc hx
  subst hu
  refine ⟨fun ht => ⟨fun hs => ?_, fun hs => ?_, fun hs => ?_, fun hs => ?_⟩, fun ht =>
    ⟨fun book hb idle hs room => ?_, fun book hb busy => ?_, fun book hb idle hs full => ?_,
      fun reorder tolerance hr hl => ?_⟩⟩
  · have serves : x.state.service true = some .inService := by rcases hs with hs | hs <;> rw [hs] <;> rfl
    exact ⟨_, State.follow_followedBy _ _,
      Answers.of_body (fun _ => rfl) ht (bodySetCompartmentService_sets hc rfl hx serves)⟩
  · have bars : x.state.service true = none := by rcases hs with hs | hs <;> rw [hs] <;> rfl
    exact Answers.of_body (fun _ => rfl) ht (bodySetCompartmentService_wrongState hc rfl hx bars)
  · have serves : x.state.service false = some .outOfService := by
      revert hs
      cases x.state <;> intro hs
      case loading => exact absurd rfl hs
      all_goals rfl
    exact ⟨_, State.follow_followedBy _ _,
      Answers.of_body (fun _ => rfl) ht (bodySetCompartmentService_sets hc rfl hx serves)⟩
  · have bars : x.state.service false = none := by rw [hs]; rfl
    exact Answers.of_body (fun _ => rfl) ht (bodySetCompartmentService_wrongState hc rfl hx bars)
  · have body : bodyAdjustStock n book (s.frameReceived r.port) = _ :=
      (bodyAdjustStock_free hc hb hx idle hs).trans (if_neg (not_not_intro room))
    have hf := State.follow_followedBy ((s.frameReceived r.port).adjustStock c x book) (s.frameReceived r.port)
    obtain ⟨rec, records, seq, fields⟩ :=
      State.adjustStock_record (s := s.frameReceived r.port) (c := c) (x := x) (book := book)
    obtain ⟨y, hy, books, reserved, lost, variance, state⟩ := State.adjustStock_comp (book := book) hx
    obtain ⟨z, hz, loads, moves⟩ := hf.comps c y hy
    refine ⟨_, rec, Answers.of_body (fun _ => rfl) ht body, ?_, seq, fields, ?_, fun w hw => ?_⟩
    · rw [hf.journal]
      exact records
    · rw [hz, loads, Option.map_some, books, reserved, lost, variance]
    · obtain rfl := Option.some.inj (hz.symm.trans hw)
      by_cases names : (s.frameReceived r.port).planNames c = true
      · exact moves.imp (fun h => h.trans state) fun h => ⟨names, h⟩
      · have spares := State.follow_spares ((s.frameReceived r.port).adjustStock c x book) (s.frameReceived r.port) c
          ((State.adjustStock_planNames c).trans (Bool.eq_false_iff.mpr names))
        obtain rfl := Option.some.inj (hz.symm.trans (spares.2.trans hy))
        exact .inl state
  · exact Answers.of_body (fun _ => rfl) ht (bodyAdjustStock_busy hc hb hx busy)
  · exact Answers.of_body (fun _ => rfl) ht ((bodyAdjustStock_free hc hb hx idle hs).trans
      (if_pos (Bool.eq_false_iff.mp full)))
  · refine ⟨_, Answers.of_body (fun _ => rfl) ht (bodySetStockLimits_sets hc hr hl hx), ?_, fun d hd => ?_, ?_⟩
    · rw [State.reorderNew_comp, if_pos rfl, State.setComp_comp_same]
      rfl
    · rw [State.reorderNew_comp, if_neg hd, State.setComp_comp_ne _ _ _ _ hd]
    · exact congrArg (fun v : State => { v with stock := (s.frameReceived r.port).stock })
        (State.reorderNew_rest ((s.frameReceived r.port).setComp c
          (some { x with reorder := reorder, tolerance := tolerance })) c)

end Sys2Proof.Machine

/-! SUPPORT AND CERTIFICATES. What lets the pump run again (R82, R108, R109). -/

namespace Sys2Proof.Machine

open Sys2Proof

section released

variable {s t u : State}

/-- Where the pump can stand under the blocks that follow a stop: off, or started with its drive on (R103). -/
def Pump.Ready (x : Pump) : Prop := x.state = .stopped ∨ (x.state = .starting ∧ x.drive = true)

theorem Pump.start_state (x : Pump) : x.start.state = .starting ∧ x.start.drive = true := by
  unfold Pump.start
  rw [Pump.testAll_eq]
  exact ⟨rfl, rfl⟩

/-- The pump stands as the run condition asks (R103). -/
def Pump.Obeys (x : Pump) (run : Bool) : Prop :=
  (x.state = .stopped ∧ run = false) ∨ (x.state = .starting ∧ x.drive = true ∧ run = true)

theorem Pump.Obeys.ready {x : Pump} {run : Bool} (h : x.Obeys run) : x.Ready :=
  h.imp (fun h => h.1) fun h => ⟨h.1, h.2.1⟩

theorem State.followRun_obeys (h : s.pump.Ready) : s.followRun.pump.Obeys s.runCondition := by
  by_cases run : s.runCondition = true
  · rw [State.followRun, if_pos run, run]
    rcases h with stopped | ⟨starting, drive⟩
    · rw [if_pos stopped]
      exact .inr ⟨(Pump.start_state _).1, (Pump.start_state _).2, rfl⟩
    · rw [if_neg (by rw [starting]; decide)]
      exact .inr ⟨starting, drive, rfl⟩
  · rw [State.followRun, if_neg run, Bool.eq_false_iff.mpr run]
    rcases h with stopped | ⟨starting, -⟩
    · rw [if_neg (by rw [stopped]; decide)]
      exact .inl ⟨stopped, rfl⟩
    · rw [if_pos (.inl starting)]
      exact .inl ⟨rfl, rfl⟩

theorem Pump.Obeys.minded {x : Pump} {run : Bool} (rate : Nat) (h : x.Obeys run) : (x.minded rate).Obeys run := by
  obtain ⟨state, -, -, drive, -⟩ := x.minded_kept rate
  unfold Pump.Obeys
  rwa [state, drive]

theorem State.runCondition_of_eq (points : t.points = s.points) (arbiter : t.arbiter = s.arbiter) :
    t.runCondition = s.runCondition := by
  unfold State.runCondition
  rw [State.flowingOnHeld_of_eq points arbiter, State.flowingOnHeld_of_eq points arbiter]

/-- A pump that may run stands, behind the blocks that follow, as the run condition asks (R103). -/
theorem State.follow_obeys (old : State) (h : s.pump.Ready) : (s.follow old).pump.Obeys (s.follow old).runCondition := by
  obtain ⟨arbiter, points, -⟩ := s.follow_settle old
  obtain ⟨y, settles⟩ := s.followRun_settle
  have first : (s.settle.setPump y).pump.Ready := by
    have kept : s.followRun.settle.pump = s.followRun.pump := by simp only [State.settle_frame]
    rw [← settles, kept]
    exact (State.followRun_obeys h).ready
  have second := State.followRun_obeys first
  have same : (s.follow old).runCondition = (s.settle.setPump y).runCondition := State.runCondition_of_eq points arbiter
  rw [same, State.follow, settles, State.followWatch_eq, State.setWatch_pump]
  split
  · rw [State.testNoFlow_pump]
    exact second.minded _
  · exact second

/-! ### Leaving RETRY_WAIT or LATCHED (R82, R102) -/

theorem State.releasePump_pump :
    s.releasePump.pump = { s.pump with state := .stopped, retry := none, clear := none, latched := none, noFlow := none } := by
  simp only [State.releasePump, State.mayRun_frame, State.setPump_pump]

/-- Both points are told; each lifts its own suspension alone (R82). -/
theorem State.mayRun_point (p : PointId) :
    s.mayRun.point p =
      if (s.point p).state = .suspended .pumpFault then
        { (s.point p).stopTimers with state := .suspended .triggerReleased, pressWait := some s.times.holdToRun }
      else s.point p := by
  unfold State.mayRun
  cases p
  · rw [State.lift_point_ne _ _ _ _ (by decide), State.lift_point]
  · rw [State.lift_point, State.lift_point_ne _ _ _ _ (by decide), State.lift_times]

theorem State.releasePump_point (p : PointId) :
    s.releasePump.point p =
      if (s.point p).state = .suspended .pumpFault then
        { (s.point p).stopTimers with state := .suspended .triggerReleased, pressWait := some s.times.holdToRun }
      else s.point p := State.mayRun_point p

/-- The release, and the blocks that follow it (R102). -/
theorem State.release_released (s old : State) :
    s.Released (s.releasePump.follow old) ∧ (s.releasePump.follow old).pump.retryCount = s.pump.retryCount := by
  have pump := State.releasePump_pump (s := s)
  have hf := State.follow_followedBy s.releasePump old
  have kept := hf.pump
  have still (p : PointId) (h : (s.releasePump.point p).state ≠ .waitSuction) :
      (s.releasePump.follow old).point p = s.releasePump.point p := (hf.points p).still h
  refine ⟨⟨?_, ?_, fun p h => ?_, fun p h flow => ?_⟩, ?_⟩
  · exact State.follow_obeys old (.inl (by rw [pump]))
  · rw [kept, pump]
    exact ⟨rfl, rfl, rfl⟩
  · have lifts := State.releasePump_point (s := s) p
    rw [if_pos h] at lifts
    rw [still p (by rw [lifts]; exact PointState.noConfusion), lifts]
    exact ⟨rfl, rfl, rfl⟩
  · have same := State.releasePump_point (s := s) p
    rw [if_neg h] at same
    rw [still p (by rw [same]; exact flow), same]
  · rw [kept, pump]

theorem bodyClearPumpFault_releases (h : s.pump.state = .latched) (k : s.pump.supply = .within) :
    bodyClearPumpFault s = ((s.setPump { s.pump with retryCount := 0 }).releasePump.follow s, Reply.ok) :=
  (if_pos h).trans (if_pos k)

theorem bodyClearPumpFault_present (h : s.pump.state = .latched) (k : s.pump.supply ≠ .within) :
    bodyClearPumpFault s = (s, Reply.refused .faultPresent) := (if_pos h).trans (if_neg k)

theorem bodyClearPumpFault_wrongState (h : s.pump.state ≠ .latched) : bodyClearPumpFault s = s.deny .wrongState :=
  if_neg h

/-- The retry counter is nothing to the release of the points. -/
theorem State.Released.of_counter {n : Nat} (h : (s.setPump { s.pump with retryCount := n }).Released t) :
    s.Released t := ⟨h.state, h.latched, h.points, h.others⟩

end released

/-! ### The statement -/

/-- Settles O41: each of the three ways out of the fault is the one release, and what the run condition then asks. -/
theorem pumpIsReleased : Obligations.PumpIsReleased := by
  intro s u r
  refine ⟨fun waits timer => ?_, fun latched timer => ?_, fun ht hu => ?_⟩
  · exact ⟨_, congrArg Host.Outcome.next (if_pos ⟨waits, timer⟩), State.release_released s s⟩
  · exact ⟨_, congrArg Host.Outcome.next (if_pos ⟨latched, timer⟩), State.release_released s s⟩
  · subst hu
    refine ⟨fun latched within => ?_, fun latched out => ?_, fun other => ?_⟩
    · obtain ⟨released, count⟩ := State.release_released ((s.frameReceived r.port).setPump
        { (s.frameReceived r.port).pump with retryCount := 0 }) (s.frameReceived r.port)
      exact ⟨_, Answers.of_body (fun _ => rfl) ht (bodyClearPumpFault_releases latched within), released.of_counter,
        count⟩
    · exact Answers.of_body (fun _ => rfl) ht (bodyClearPumpFault_present latched out)
    · exact Answers.of_body (fun _ => rfl) ht (bodyClearPumpFault_wrongState other)

end Sys2Proof.Machine

/-! SUPPORT AND CERTIFICATES. Pump faults and their actions (R105 to R110). -/

namespace Sys2Proof.Machine

open Sys2Proof

/-! ### The pump behind a fault (R105, R107, R108) -/

section pump

variable {x z : Pump} {k j : FaultKind} {t : Timer} {auto : Bool}

/-- The pump with the detection's own timers spent (R105, R106). -/
def Pump.detected (x : Pump) (k : FaultKind) (t : Timer) : Pump := { x with deglitch := x.deglitch.set k none, noFlow := t }

/-- The detections made together with that of `k`: a STALL or DRY_RUN is dropped, and a NO_FLOW or supply kind whose timer
has run out waits for its row (R105). -/
structure Pump.Awaits (x z : Pump) (k : FaultKind) (t : Timer) : Prop where
  noFlow : z.noFlow = ranOut t
  stall : z.deglitch.stall = none
  dryRun : z.deglitch.dryRun = none
  supply :
    ∀ j, j = .supplyLow ∨ j = .supplyHigh → j ≠ k → x.deglitch.get j = some 0 → z.deglitch.get j = some 0

theorem Pump.setPresent_eq (x : Pump) (k : FaultKind) (v : Bool) :
    x.setPresent k v =
      { x with lowPresent := (x.setPresent k v).lowPresent, highPresent := (x.setPresent k v).highPresent } := by
  cases k <;> rfl

theorem Pump.setPresent_true (x : Pump) (h : k = .supplyLow ∨ k = .supplyHigh) :
    (x.setPresent k true).present k = true := by
  rcases h with rfl | rfl <;> rfl

theorem ranOut_zero : ranOut (some 0) = some 0 := rfl

/-- The pump latched by `k` (R107). -/
def Pump.latchedBy (x : Pump) (k : FaultKind) (auto : Bool) : Pump :=
  Pump.setPresent
    { x.halt with latched := if x.state = .latched then x.latched else some (k, auto), lastFault := some (k, .latch) }
    k true

/-- The pump that waits for its retry timer after `k`, or stays LATCHED (R108). -/
def Pump.heldOffBy (x : Pump) (k : FaultKind) : Pump := { x.holdOff with lastFault := some (k, .retry) }

theorem Pump.latchedBy_eq :
    x.latchedBy k auto =
      { x.halt with
        latched := if x.state = .latched then x.latched else some (k, auto), lastFault := some (k, .latch)
        lowPresent := (x.latchedBy k auto).lowPresent, highPresent := (x.latchedBy k auto).highPresent } :=
  Pump.setPresent_eq ..

/-- What a latch leaves in every pump state (R107). -/
theorem Pump.latchedBy_kept :
    (x.latchedBy k auto).state = .latched ∧ (x.latchedBy k auto).drive = false ∧
      (x.latchedBy k auto).lastFault = some (k, .latch) ∧ (x.latchedBy k auto).ramp = none ∧
      (x.latchedBy k auto).cleanRun = none ∧ (x.latchedBy k auto).retry = none ∧
      (x.latchedBy k auto).retryCount = x.retryCount ∧
      (x.latchedBy k auto).latched = (if x.state = .latched then x.latched else some (k, auto)) ∧
      (x.latchedBy k auto).clear = (if x.state = .latched then x.clear else none) := by
  rw [Pump.latchedBy_eq]
  exact ⟨rfl, rfl, rfl, rfl, rfl, rfl, rfl, rfl, rfl⟩

theorem Pump.latchedBy_present (h : k = .supplyLow ∨ k = .supplyHigh) : (x.latchedBy k auto).present k = true :=
  Pump.setPresent_true _ h

theorem Pump.detected_get (h : j ≠ k) : (x.detected k t).deglitch.get j = x.deglitch.get j :=
  (PerFault.get_set ..).trans (if_neg h)

theorem Pump.latchedBy_awaits : x.Awaits ((x.detected k t).latchedBy k auto) k t := by
  refine ⟨?_, ?_, ?_, fun j supply other out => ?_⟩ <;> rw [Pump.latchedBy_eq]
  · rfl
  · rfl
  · rfl
  · have kept := (Pump.detected_get (x := x) (t := t) other).trans out
    rcases supply with rfl | rfl <;> exact (congrArg ranOut kept).trans ranOut_zero

/-- A retry stops the pump, and counts itself (R108). -/
theorem Pump.heldOffBy_kept (h : x.state ≠ .latched) :
    (x.heldOffBy k).state = .retryWait ∧ (x.heldOffBy k).drive = false ∧
      (x.heldOffBy k).retryCount = min 10 (x.retryCount + 1) ∧ (x.heldOffBy k).retry = some x.retryTime ∧
      (x.heldOffBy k).lastFault = some (k, .retry) := by
  have off : x.holdOff = { x.trip with
      state := .retryWait, retryCount := min Config.retryMax (x.retryCount + 1), retry := some x.retryTime } := if_neg h
  unfold Pump.heldOffBy
  rw [off]
  exact ⟨rfl, rfl, rfl, rfl, rfl⟩

theorem Pump.heldOffBy_awaits (h : x.state ≠ .latched) : x.Awaits ((x.detected k t).heldOffBy k) k t := by
  have off : (x.detected k t).holdOff = { (x.detected k t).trip with
      state := .retryWait, retryCount := min Config.retryMax (x.retryCount + 1), retry := some x.retryTime } := if_neg h
  refine ⟨?_, ?_, ?_, fun j supply other out => ?_⟩ <;> unfold Pump.heldOffBy <;> rw [off]
  · rfl
  · rfl
  · rfl
  · have kept := (Pump.detected_get (x := x) (t := t) other).trans out
    rcases supply with rfl | rfl <;> exact kept

theorem Pump.heldOffBy_latched (h : x.state = .latched) : x.heldOffBy k = { x with lastFault := some (k, .retry) } := by
  have stays : x.holdOff = x := if_pos h
  rw [Pump.heldOffBy, stays]

/-- A retry is left where there is no limit, or the counter is below it (R108). -/
theorem Pump.mayRetry_iff :
    x.mayRetry = true ↔ x.retryLimit = none ∨ ∃ n, x.retryLimit = some n ∧ x.retryCount < n := by
  unfold Pump.mayRetry
  split <;> next h => simp [h]

end pump

/-! ### The fault's action, and the points it suspends (R82, R107) -/

section act

variable {s : State} {x z : Pump} {k : FaultKind} {auto : Bool}

/-- A fault that stops the pump: every point told, and every port (R82, R107). -/
def State.struck (s : State) (z : Pump) : State := ((s.setPump z).tellFault).raise .pumpFault

theorem State.struck_setPump : (s.setPump x).struck z = s.struck z := rfl

/-- The report of a detection: the last fault and the mark, notified once (R110). -/
theorem State.report_detected {t : Timer} :
    (s.setPump (s.pump.detected k t)).report k =
      if s.pump.reported.get k then
        s.setPump { s.pump.detected k t with
          lastFault := some (k, .report), reported := s.pump.reported.set k (s.pump.state.tests k) }
      else
        (s.setPump { s.pump.detected k t with
          lastFault := some (k, .report), reported := s.pump.reported.set k (s.pump.state.tests k) }).raise
          .pumpFault := rfl

theorem State.latch_eq : s.latch k auto = s.struck (s.pump.latchedBy k auto) := rfl

theorem State.retry_eq : s.retry k = s.struck (s.pump.heldOffBy k) := rfl

theorem State.act_latches
    (h : (s.pump.faults.get k).action = (if auto then FaultAction.autoClear else .latch) ∨
      (auto = false ∧ (s.pump.faults.get k).action = .retry ∧
        ∃ n, s.pump.retryLimit = some n ∧ n ≤ s.pump.retryCount)) : s.act k = s.latch k auto := by
  unfold State.act
  rcases h with action | ⟨rfl, action, n, limit, spent⟩
  · rw [action]
    cases auto <;> rfl
  · have none : ¬ s.pump.mayRetry = true := by
      rw [Pump.mayRetry_iff, limit]
      rintro (h | ⟨m, h, below⟩)
      · cases h
      · cases h
        omega
    rw [action]
    exact if_neg none

theorem State.act_retries (h : (s.pump.faults.get k).action = .retry) (room : s.pump.mayRetry = true) :
    s.act k = s.retry k := by
  unfold State.act
  rw [h]
  exact if_pos room

theorem State.act_reports (h : (s.pump.faults.get k).action = .report) : s.act k = s.report k := by
  unfold State.act
  rw [h]

/-- What the fault does to the points and ports, and the pump it leaves, behind the blocks that follow. -/
theorem State.struck_follows (old : State) (h : z.state.blocks = true) :
    ((s.struck z).follow old).pump = z ∧
      (∀ p, (s.point p).state.wantsFlow = true → s.Suspended ((s.struck z).follow old) p .pumpFault) ∧
      (∀ p, (s.point p).state.wantsFlow = false → ((s.struck z).follow old).point p = s.point p) ∧
      ∀ o, (((s.struck z).follow old).port o).has .pumpFault = true := by
  have hf := State.follow_followedBy (s.struck z) old
  have told : (s.setPump z).tellFault.FollowedBy ((s.struck z).follow old) := (State.raise_followedBy _).trans hf
  have pump : (s.struck z).pump = z := by
    simp only [State.struck, State.raise_pump, State.tellFault_frame, State.setPump_pump]
  refine ⟨(hf.pumpStill (by rw [pump]; exact h)).trans pump, fun p wants => ?_, fun p stays => ?_, fun o =>
    hf.notices o .pumpFault (by decide) (State.raised _ (by cases o <;> rfl))⟩
  · obtain ⟨state, valves, wait, suspend, suction, context⟩ :=
      ((State.suspendBoth (s.setPump z) .pumpFault p).1 wants).followed told
    exact ⟨state, valves, wait, suspend, suction, context⟩
  · have same : (s.setPump z).tellFault.point p = s.point p := (State.suspendBoth (s.setPump z) .pumpFault p).2 stays
    refine ((told.points p).still ?_).trans same
    rw [same]
    intro waits
    rw [waits] at stays
    cases stays

/-! ### The rows (R105, R106) -/

/-- A detection apart from a dry run: its timers are spent, its action follows, and then the other blocks. -/
theorem exec_detection {i : Instr}
    (h : (i = .faultDeglitchExpiry k ∧ (s.pump.deglitch.get k).isSome = true ∧ k ≠ .dryRun) ∨
      (i = .noFlowTimerExpiry ∧ k = .noFlow ∧ s.pump.noFlow.isSome = true) ∨
      (i = .pumpOvercurrent ∧ k = .overcurrent ∧ s.pump.state ≠ .stopped)) :
    exec i s =
      .next (((s.setPump (s.pump.detected k (if i = .noFlowTimerExpiry then none else s.pump.noFlow))).act k).follow s) := by
  rcases h with ⟨rfl, runs, other⟩ | ⟨rfl, rfl, runs⟩ | ⟨rfl, rfl, on⟩
  · refine congrArg Host.Outcome.next ((if_pos runs).trans ?_)
    rw [if_neg Instr.noConfusion]
    revert runs other
    cases k <;> intro runs other
    case dryRun => exact absurd rfl other
    all_goals rfl
  · exact congrArg Host.Outcome.next (if_pos runs)
  · refine congrArg Host.Outcome.next ((if_pos ?_).trans ?_)
    · unfold Pump.takesOvercurrent
      revert on
      cases s.pump.state <;> intro on
      case stopped => exact absurd rfl on
      all_goals rfl
    · rw [if_neg Instr.noConfusion]
      rfl

end act

/-! ### The statement -/

theorem ranOut_if {t : Timer} {i : Instr} :
    ranOut (if i = .noFlowTimerExpiry then none else t) = if t = some 0 ∧ i ≠ .noFlowTimerExpiry then some 0 else none := by
  by_cases h : i = .noFlowTimerExpiry
  · rw [if_pos h, if_neg fun k => k.2 h]
    rfl
  · rw [if_neg h]
    rcases t with _ | n
    · exact (if_neg fun k => nomatch k.1).symm
    · by_cases zero : n = 0
      · subst zero
        exact (if_pos ⟨rfl, h⟩).symm
      · rw [if_neg fun k => zero (Option.some.inj k.1)]
        simp [ranOut, Option.filter, zero]

/-- Settles O40: the detection's own timers spent, the action of the kind's setting, and what the blocks that follow leave of
a pump that has stopped. -/
theorem pumpFaultsAct : Obligations.PumpFaultsAct := by
  intro s i k row
  have acts := exec_detection row
  generalize timer : (if i = .noFlowTimerExpiry then none else s.pump.noFlow) = t at acts
  have ran := ranOut_if (t := s.pump.noFlow) (i := i)
  rw [timer] at ran
  refine ⟨fun auto action => ?_, fun action room => ?_, fun action u hu => ?_⟩
  · have latches := (State.act_latches (s := s.setPump (s.pump.detected k t)) action).trans State.latch_eq
    rw [latches, State.struck_setPump] at acts
    obtain ⟨state, drive, last, ramp, clean, retry, count, cause, clear⟩ :=
      Pump.latchedBy_kept (auto := auto) (k := k) (x := s.pump.detected k t)
    obtain ⟨noFlow, stall, dry, supply⟩ := Pump.latchedBy_awaits (x := s.pump) (k := k) (auto := auto) (t := t)
    have present := Pump.latchedBy_present (x := s.pump.detected k t) (k := k) (auto := auto)
    obtain ⟨pump, wants, stays, told⟩ := State.struck_follows (s := s)
      (z := (s.pump.detected k t).latchedBy k auto) s (by rw [state]; rfl)
    refine ⟨fun fresh => ⟨_, acts, ?_⟩, fun latched => ⟨_, acts, ?_⟩⟩ <;> rw [State.setPump_pump, pump]
    · exact ⟨state, drive, cause.trans (if_neg fresh), last, ramp, ⟨noFlow.trans ran, stall, dry, supply⟩, clean, retry,
        count, present, wants, stays, told⟩
    · exact ⟨state, drive, cause.trans (if_pos latched), clear.trans (if_pos latched), last,
        ⟨noFlow.trans ran, stall, dry, supply⟩, present, count, told⟩
  · have retries := (State.act_retries (s := s.setPump (s.pump.detected k t)) action (Pump.mayRetry_iff.mpr room)).trans
      State.retry_eq
    rw [retries, State.struck_setPump] at acts
    have blocks : ((s.pump.detected k t).heldOffBy k).state.blocks = true := by
      by_cases latched : s.pump.state = .latched
      · rw [Pump.heldOffBy_latched (x := s.pump.detected k t) latched, show ({ s.pump.detected k t with
          lastFault := some (k, .retry) } : Pump).state = .latched from latched]
        rfl
      · rw [(Pump.heldOffBy_kept (x := s.pump.detected k t) latched).1]
        rfl
    obtain ⟨pump, wants, -, told⟩ := State.struck_follows (s := s) s blocks
    refine ⟨fun fresh => ⟨_, acts, ?_⟩, fun latched => ⟨_, acts, ?_⟩⟩ <;> rw [State.setPump_pump, pump]
    · obtain ⟨state, drive, count, retry, last⟩ := Pump.heldOffBy_kept (x := s.pump.detected k t) (k := k) fresh
      obtain ⟨noFlow, stall, dry, supply⟩ := Pump.heldOffBy_awaits (x := s.pump) (k := k) (t := t) fresh
      exact ⟨state, drive, count, retry, last, ⟨noFlow.trans ran, stall, dry, supply⟩, wants, told⟩
    · refine ⟨?_, told⟩
      rw [Pump.heldOffBy_latched (x := s.pump.detected k t) latched, Pump.detected]
  · subst hu
    rw [State.act_reports (s := s.setPump (s.pump.detected k t)) action, State.report_detected] at acts
    refine ⟨fun fresh => ⟨_, State.follow_followedBy _ s, acts.trans ?_⟩, fun stands =>
      ⟨_, State.follow_followedBy _ s, acts.trans ?_⟩⟩
    · rw [if_neg (Bool.eq_false_iff.mp fresh), Pump.detected]
    · rw [if_pos stands, Pump.detected]

end Sys2Proof.Machine

/-! SUPPORT AND CERTIFICATES. The dry run's marks, and the switch of a delivery to a second segment (R111 to R113). -/

namespace Sys2Proof.Machine

open Sys2Proof

/-! ### The marks of a dry compartment (R111, R129) -/

section marks

variable {s : State} {c e : CompId}

theorem State.markSuctionLost_comp :
    (s.markSuctionLost c).comp e =
      if e = c then (s.comp c).map fun x => { x with suctionLost := true } else s.comp e := by
  unfold State.markSuctionLost
  split
  · rw [State.raise_comp, State.modComp_comp]
  next marked =>
    split
    next same =>
      subst same
      cases hx : s.comp e with
      | none => rfl
      | some x =>
        have lost : x.suctionLost = true := by simpa [hx] using marked
        rw [Option.map_some, ← lost]
    next => rfl

theorem State.markEmpty_comp :
    (s.markEmpty c).comp e = if e = c then (s.comp c).map fun x => { x with state := .empty } else s.comp e := by
  unfold State.markEmpty
  split
  · rw [State.raise_comp, State.modComp_comp]
  next marked =>
    split
    next same =>
      subst same
      cases hx : s.comp e with
      | none => rfl
      | some x =>
        have empty : x.state = .empty := by simpa [hx] using marked
        rw [Option.map_some, ← empty]
    next => rfl

end marks

/-! ### The target of a switch (R112) -/

section target

variable {s t : State} {c : CompId} {q : ProductId}

/-- The better of the best compartment so far and the next one (R54). -/
def State.better (s : State) (ok : CompId → Bool) (best : Option CompId) (e : CompId) : Option CompId :=
  if ok e then best.elim (some e) fun b => if s.availableOn b < s.availableOn e then some e else best else best

theorem State.mostStock_eq (ok : CompId → Bool) : s.mostStock ok = Num4.all.foldl (s.better ok) none := by
  unfold State.mostStock
  congr 1
  funext best e
  unfold State.better
  cases best <;> rfl

theorem State.better_ok {ok : CompId → Bool} {best : Option CompId} (h : ∀ b, best = some b → ok b = true) (e : CompId) :
    ∀ b, s.better ok best e = some b → ok b = true := by
  intro b
  unfold State.better
  by_cases he : ok e = true
  · rw [if_pos he]
    cases best with
    | none => exact fun k => Option.some.inj k ▸ he
    | some a =>
      simp only [Option.elim_some]
      split
      · exact fun k => Option.some.inj k ▸ he
      · exact h b
  · rw [if_neg he]
    exact h b

theorem State.better_congr {ok : CompId → Bool} {best : Option CompId}
    (same : ∀ e, ok e = true → t.availableOn e = s.availableOn e) (h : ∀ b, best = some b → ok b = true) (e : CompId) :
    t.better ok best e = s.better ok best e := by
  unfold State.better
  by_cases he : ok e = true
  · cases best with
    | none => rfl
    | some b => simp only [Option.elim_some, same b (h b rfl), same e he]
  · simp only [if_neg he]

/-- The choice by greatest stock looks at the compartments that pass alone. -/
theorem State.mostStock_congr {ok : CompId → Bool} (h : ∀ e, ok e = true → t.availableOn e = s.availableOn e) :
    t.mostStock ok = s.mostStock ok := by
  have folds (l : List CompId) : ∀ best : Option CompId, (∀ b, best = some b → ok b = true) →
      l.foldl (t.better ok) best = l.foldl (s.better ok) best := by
    induction l with
    | nil => exact fun _ _ => rfl
    | cons e l ih =>
      intro best hb
      rw [List.foldl_cons, List.foldl_cons, State.better_congr h hb]
      exact ih _ (State.better_ok hb e)
  rw [State.mostStock_eq, State.mostStock_eq]
  exact folds _ none fun _ k => nomatch k

/-- A change of `c` alone leaves the target of a delivery whose segment is on it (R112). -/
theorem State.target_same (h : ∀ e, e ≠ c → t.comp e = s.comp e) :
    t.mostStock (t.isTarget c q) = s.mostStock (s.isTarget c q) := by
  have ok : t.isTarget c q = s.isTarget c q := by
    funext e
    by_cases he : e = c
    · simp [State.isTarget, he]
    · simp only [State.isTarget, State.eligible, h e he]
  rw [ok]
  refine State.mostStock_congr fun e he => ?_
  have ne : e ≠ c := by
    rintro rfl
    simp [State.isTarget] at he
  simp only [State.availableOn, h e ne]

theorem State.target_ne {e : CompId} (h : s.mostStock (s.isTarget c q) = some e) : e ≠ c := by
  have ok := State.mostStock_ok _ h
  rintro rfl
  simp [State.isTarget] at ok

end target

/-! ### The switch (R113, step 4) -/

section switch

variable {s : State} {p : PointId} {d : Delivery} {e : CompId} {n : Nat}

/-- A delivery moved to a second segment on `e` with `n` cL left. -/
def Delivery.switched (d : Delivery) (e : CompId) (n : Nat) : Delivery :=
  { d with
    earlier := some { d.current with remaining := 0 }, current := { comp := e, net_uL := 0, remaining := n } }

/-- A compartment's state, mark and reserved sum. -/
def Compartment.marks (y : Compartment) : CompState × Bool × Nat := (y.state, y.suctionLost, y.reserved)

theorem State.switchTo_point (h : (s.point p).context = some d) :
    (s.switchTo p e n).point p = { s.point p with context := some (d.switched e n) } := by
  simp only [State.switchTo, h, State.startSettle_frame, State.setArbiter_point, State.reorderFall_frame,
    State.stopSettle_frame, State.reserveOn_frame, State.setPoint_point_same, State.releaseOn_frame]
  rfl

theorem State.switchTo_point_ne {q : PointId} (hq : q ≠ p) : (s.switchTo p e n).point q = s.point q := by
  unfold State.switchTo
  split
  · rfl
  · simp only [State.startSettle_frame, State.setArbiter_point, State.reorderFall_frame,
      State.stopSettle_frame, State.reserveOn_frame, State.setPoint_point_ne _ _ _ _ hq, State.releaseOn_frame]

theorem State.switchTo_claim (h : (s.point p).context = some d) :
    (s.switchTo p e n).arbiter = s.arbiter.dropClaim p := by
  simp only [State.switchTo, h, State.startSettle_frame, State.setArbiter_arbiter, State.reorderFall_frame,
    State.stopSettle_frame, State.reserveOn_frame, State.setPoint_arbiter, State.releaseOn_frame]

/-- The settle timers and the reorder mark apart, the remainder goes from the one compartment to the other. -/
theorem State.switchTo_comp (h : (s.point p).context = some d) (he : e ≠ d.current.comp) (f : CompId) :
    ((s.switchTo p e n).comp f).map (fun y => y.marks) =
      (s.comp f).map fun y =>
        (y.state, y.suctionLost,
          if f = d.current.comp then y.reserved - d.current.remaining
          else if f = e then y.reserved + n
          else y.reserved) := by
  have settles (u : State) (a : CompId) : ((u.startSettle a).comp f).map (fun y => y.marks) = (u.comp f).map fun y => y.marks := by
    rw [State.startSettle_comp]
    split
    next same => subst same; cases u.comp f <;> simp only [Option.map_none, Option.map_some]; split <;> rfl
    next => rfl
  have stops (u : State) (a : CompId) : ((u.stopSettle a).comp f).map (fun y => y.marks) = (u.comp f).map fun y => y.marks := by
    rw [State.stopSettle_comp]
    split
    next same => subst same; cases u.comp f <;> rfl
    next => rfl
  have falls (u : State) (a : CompId) : ((u.reorderFall a).comp f).map (fun y => y.marks) = (u.comp f).map fun y => y.marks := by
    rw [State.reorderFall_comp]
    split
    next same => subst same; cases u.comp f <;> rfl
    next => rfl
  simp only [State.switchTo, h]
  rw [settles, State.setArbiter_comp, falls, stops, State.reserveOn_comp]
  simp only [State.setPoint_comp, State.releaseOn_comp]
  by_cases here : f = d.current.comp
  · subst here
    simp only [if_neg he.symm, if_true, Option.map_map]
    rfl
  · by_cases there : f = e
    · subst there
      simp only [if_neg here, if_true, Option.map_map]
      rfl
    · simp only [if_neg here, if_neg there]
      rfl

end switch

end Sys2Proof.Machine

/-! SUPPORT AND CERTIFICATES. Lost suction on a compartment that one delivery draws on (R84, R111 to R113). -/

namespace Sys2Proof.Machine

open Sys2Proof

/-! ### A point that is told to suspend (R82, R84) -/

section holds

variable {s : State} {x y z : Point} {k j : Cause}

/-- A point that wants flow is suspended with `k`, another stays; the delivery stays as it was. -/
structure Point.HoldsTo (x y : Point) (k : Cause) : Prop where
  state : y.state = if x.state.wantsFlow then .suspended k else x.state
  context : y.context = x.context
  closeAhead : y.closeAhead = x.closeAhead

theorem Point.HoldsTo.wants (h : x.HoldsTo y k) : y.state.wantsFlow = false := by
  rw [h.state]
  split
  next => rfl
  next stays => exact Bool.eq_false_iff.mpr stays

theorem Point.HoldsTo.trans (h : x.HoldsTo y k) (g : y.HoldsTo z j) : x.HoldsTo z k := by
  refine ⟨?_, g.context.trans h.context, g.closeAhead.trans h.closeAhead⟩
  rw [g.state, if_neg (by rw [h.wants]; exact Bool.false_ne_true)]
  exact h.state

theorem Point.HoldsTo.unfinished (h : x.HoldsTo y k) (u : x.state.unfinished = true) : y.state.unfinished = true := by
  rw [h.state]
  split
  · rfl
  · exact u

theorem PointState.still_of_wants {a : PointState} (h : a.wantsFlow = false) :
    a ≠ .waitSuction ∧ a.isFlowing = false := by
  revert h
  cases a <;> simp [PointState.wantsFlow, PointState.isFlowing]

theorem State.suspendFlow_holds (p : PointId) (k : Cause) : (s.point p).HoldsTo ((s.suspendFlow p k).point p) k := by
  unfold State.suspendFlow
  split
  next wants =>
    refine ⟨?_, ?_, ?_⟩
    · rw [(s.suspend_suspends p k).state, if_pos wants]
    · exact (s.suspend_suspends p k).context
    · simp [State.suspend, Point.shut, Point.stopTimers]
  next stays => exact ⟨(if_neg stays).symm, rfl, rfl⟩

theorem State.tellFault_holds (p : PointId) : (s.point p).HoldsTo (s.tellFault.point p) .pumpFault := by
  unfold State.tellFault
  cases p with
  | a =>
    rw [State.suspendFlow_point_ne _ _ _ _ (by decide)]
    exact State.suspendFlow_holds .a .pumpFault
  | b =>
    have h := State.suspendFlow_holds (s := s.suspendFlow .a .pumpFault) .b .pumpFault
    rwa [State.suspendFlow_point_ne s .a .b .pumpFault (by decide)] at h

end holds

/-! ### The one delivery on a compartment (R84, R112) -/

section alone

variable {s : State} {p q : PointId} {c : CompId} {d : Delivery}

theorem State.losesSuction_none (h : (s.point q).context = none) : s.losesSuction c q = false := by
  simp [State.losesSuction, State.drawsOn, State.segmentComp, h]

theorem State.losesSuction_own (h : (s.point p).context = some d) (hc : d.current.comp = c)
    (u : (s.point p).state.unfinished = true) : s.losesSuction c p = true := by
  simp [State.losesSuction, State.drawsOn, State.segmentComp, h, hc, u]

theorem State.suspendIf_none (h : (s.point q).context = none) : s.suspendIf c q = s :=
  if_neg (Bool.eq_false_iff.mp (State.losesSuction_none h))

theorem State.switchIf_none (h : (s.point q).context = none) : s.switchIf c q = s :=
  if_neg (Bool.eq_false_iff.mp (State.losesSuction_none h))

theorem State.switchOrEnd_point_ne (h : q ≠ p) : (s.switchOrEnd c p).point q = s.point q := by
  unfold State.switchOrEnd
  split
  · rfl
  next d hd =>
    have lowers (v : Nat) : (s.lowerLimit p v .stock).point q = s.point q := State.lowerLimit_point_ne _ _ hd h
    split
    · exact State.finish_point_ne _ _ _ _ h
    · split
      · exact State.finish_point_ne _ _ _ _ h
      · dsimp only
        split
        · split
          · rw [State.finish_point_ne _ _ _ _ h, lowers]
          · rw [State.compareLowered_point_ne h, State.switchTo_point_ne h, lowers]
        · split
          · exact State.finish_point_ne _ _ _ _ h
          · exact State.switchTo_point_ne h

/-- Where one delivery alone draws on `c`, lost suction suspends its point, and switches or ends it (R84, R113). -/
theorem State.loseSuction_alone (h : (s.point p).context = some d) (hc : d.current.comp = c)
    (u : (s.point p).state.unfinished = true) (ho : (s.point p.other).context = none) :
    s.loseSuction c = (s.suspendFlow p .suctionLost).switchOrEnd c p := by
  have holds := s.suspendFlow_holds p .suctionLost
  have other : p.other ≠ p := by cases p <;> decide
  have first : s.suspendIf c p = s.suspendFlow p .suctionLost := if_pos (State.losesSuction_own h hc u)
  have rest : ((s.suspendFlow p .suctionLost).point p.other).context = none := by
    rw [State.suspendFlow_point_ne _ _ _ _ other]
    exact ho
  have own := State.losesSuction_own (s := s.suspendFlow p .suctionLost) (c := c) (holds.context.trans h) hc
    (holds.unfinished u)
  have turn : (s.suspendFlow p .suctionLost).switchIf c p = (s.suspendFlow p .suctionLost).switchOrEnd c p := if_pos own
  have last : (((s.suspendFlow p .suctionLost).switchOrEnd c p).point p.other).context = none := by
    rw [State.switchOrEnd_point_ne other]
    exact rest
  have none := State.losesSuction_none (c := c) rest
  unfold State.loseSuction
  cases p with
  | a =>
    have skip : (s.suspendFlow .a .suctionLost).suspendIf c .b = s.suspendFlow .a .suctionLost :=
      State.suspendIf_none rest
    rw [first, skip, if_neg fun both => Bool.false_ne_true (none.symm.trans both.2), turn]
    exact State.switchIf_none last
  | b =>
    have skip : s.suspendIf c .a = s := State.suspendIf_none ho
    have pass : (s.suspendFlow .b .suctionLost).switchIf c .a = s.suspendFlow .b .suctionLost :=
      State.switchIf_none rest
    rw [skip, first, if_neg fun both => Bool.false_ne_true (none.symm.trans both.1), pass, turn]

end alone

/-! ### The switch or the end, by the stock of the target (R113) -/

section outcome

variable {s : State} {p : PointId} {c e : CompId} {d : Delivery}

theorem State.switchOrEnd_ends (h : (s.point p).context = some d)
    (k : d.earlier.isSome = true ∨ s.mostStock (s.isTarget c d.product) = none) :
    s.switchOrEnd c p = s.finish p .stockEmpty := by
  unfold State.switchOrEnd
  rw [h]
  dsimp only
  rcases k with k | k
  · exact if_pos k
  · rw [k, ite_self]

theorem State.switchOrEnd_enough (h : (s.point p).context = some d) (one : d.earlier = none)
    (target : s.mostStock (s.isTarget c d.product) = some e)
    (room : d.limit - cLof d.current.net_uL ≤ s.availableOn e) :
    s.switchOrEnd c p =
      if d.limit - cLof d.current.net_uL < d.minimum then s.finish p .stockEmpty
      else s.switchTo p e (d.limit - cLof d.current.net_uL) := by
  unfold State.switchOrEnd
  rw [h]
  dsimp only
  rw [one, target]
  exact if_neg (Nat.not_lt_of_le room)

theorem State.switchOrEnd_short (h : (s.point p).context = some d) (one : d.earlier = none)
    (target : s.mostStock (s.isTarget c d.product) = some e)
    (room : s.availableOn e < d.limit - cLof d.current.net_uL) :
    s.switchOrEnd c p =
      if s.availableOn e < d.minimum then
        (s.lowerLimit p (cLof d.current.net_uL + s.availableOn e) .stock).finish p .stockEmpty
      else
        ((s.lowerLimit p (cLof d.current.net_uL + s.availableOn e) .stock).switchTo p e
          (s.availableOn e)).compareLowered p := by
  unfold State.switchOrEnd
  rw [h]
  dsimp only
  rw [one, target]
  exact if_pos room

/-- A point that does not flow and is not within its close-ahead stays (R78). -/
theorem State.compareLowered_beyond (hd : (s.point p).context = some d) (still : (s.point p).state.isFlowing = false)
    (hv : cLof d.net_uL + (s.point p).closeAhead < d.limit) : s.compareLowered p = s := by
  have beyond : d.within (s.point p).closeAhead = false := decide_eq_false (Nat.not_le_of_lt hv)
  unfold State.compareLowered
  rw [hd]
  exact (if_neg (Bool.eq_false_iff.mp still)).trans
    (if_neg fun h => Bool.false_ne_true (beyond.symm.trans h.2))

end outcome

/-! ### What the blocks that follow leave of it (R76, R137) -/

section lands

variable {s t u : State} {p : PointId} {c : CompId} {d : Delivery}

/-- The empty compartment keeps a segment, and its delivery has no claim and does not wait. -/
structure State.Spent (s : State) (p : PointId) (c : CompId) : Prop where
  comp : (s.comp c).map (fun y => (y.state, y.suctionLost)) = some (.empty, true)
  claim : s.arbiter.claims.get p = .none
  segment : s.segmentOn c = true
  still : (s.point p).state ≠ .waitSuction

/-- What the blocks that follow leave of a spent compartment's delivery, and of every reserved sum. -/
structure State.Lands (u t : State) (p : PointId) (c : CompId) : Prop where
  point : t.point p = u.point p
  claim : t.arbiter.claims.get p = .none
  empty : (t.comp c).map (fun y => y.state) = some .empty
  lost : (t.comp c).any (fun y => y.suctionLost) = true
  reserved : ∀ f, (t.comp f).map (fun y => y.reserved) = (u.comp f).map fun y => y.reserved
  roster : t.roster = u.roster
  accounts : t.accounts = u.accounts

theorem State.FollowedBy.reserved (h : u.FollowedBy t) (f : CompId) :
    (t.comp f).map (fun y => y.reserved) = (u.comp f).map fun y => y.reserved := by
  have figures := congrArg (Option.map fun y : Nat × Nat × Bool => y.2.1) (h.figures f)
  simp only [Option.map_map] at figures
  exact figures

theorem State.FollowedBy.lost (h : u.FollowedBy t) (k : (u.comp c).any (fun y => y.suctionLost) = true) :
    (t.comp c).any (fun y => y.suctionLost) = true := by
  cases hc : u.comp c with
  | none => rw [hc] at k; cases k
  | some x =>
    obtain ⟨y, hy, loads, -⟩ := h.comps c x hc
    rw [hc] at k
    rw [hy, loads]
    exact k

theorem State.Spent.lands (h : u.Spent p c) (old : State) : u.Lands (u.follow old) p c := by
  have hf := State.follow_followedBy u old
  obtain ⟨point, claim⟩ := State.follow_leaves u old p h.still
  obtain ⟨-, state⟩ := State.follow_occupies u old c h.segment
  obtain ⟨x, hx, marks⟩ := Option.map_eq_some_iff.mp h.comp
  obtain ⟨empty, lost⟩ := Prod.mk.inj marks
  refine ⟨point, claim.trans h.claim, ?_, hf.lost ?_, hf.reserved, hf.rest.1, hf.rest.2.1⟩
  · rw [state, hx, Option.map_some, empty]
  · rw [hx]
    exact lost

theorem State.segmentOn_of_context (h : (s.point p).context = some d) (k : d.touches c = true) :
    s.segmentOn c = true := by
  cases p <;> simp only [State.point, Pair.get] at h <;> simp [State.segmentOn, h, k]

theorem Delivery.touches_current (h : d.current.comp = c) : d.touches c = true := by
  simp [Delivery.touches, h]

theorem Delivery.touches_switched {e : CompId} {n : Nat} (h : d.current.comp = c) : (d.switched e n).touches c = true := by
  simp [Delivery.touches, Delivery.switched, h]

theorem State.finish_segmentOn {k : EndCause} : (s.finish p k).segmentOn c = s.segmentOn c := by
  have a := State.finish_context s p .a k
  have b := State.finish_context s p .b k
  simp only [State.point, Pair.get] at a b
  simp only [State.segmentOn, a, b]

theorem State.finish_spent {k : EndCause}
    (comp : (s.comp c).map (fun y => (y.state, y.suctionLost)) = some (.empty, true)) (segment : s.segmentOn c = true) :
    (s.finish p k).Spent p c := by
  have finished := State.finish_finishes s p k
  refine ⟨by simpa only [State.finish_frame] using comp, finished.suction.2.2.1,
    State.finish_segmentOn.trans segment, ?_⟩
  rw [finished.state.1]
  exact PointState.noConfusion

/-- The comparison of R78 at a point that does not flow: it finishes or it stays. -/
theorem State.Spent.compareLowered (h : s.Spent p c) (still : (s.point p).state.isFlowing = false) :
    (s.compareLowered p).Spent p c := by
  unfold State.compareLowered
  split
  · exact h
  · rw [if_neg (by rw [still]; exact Bool.false_ne_true)]
    split
    · exact State.finish_spent h.comp h.segment
    · exact h

/-- The two marks of the compartment alone. -/
theorem marks_of {a b : Option Compartment} {f : Compartment → Nat}
    (h : a.map (fun y => y.marks) = b.map fun y => (y.state, y.suctionLost, f y)) :
    a.map (fun y => (y.state, y.suctionLost)) = (b.map fun y => (y.state, y.suctionLost)) ∧
      a.map (fun y => y.reserved) = b.map f := by
  have two := congrArg (Option.map fun y : CompState × Bool × Nat => (y.1, y.2.1)) h
  have one := congrArg (Option.map fun y : CompState × Bool × Nat => y.2.2) h
  simp only [Option.map_map] at one two
  exact ⟨two, one⟩

theorem State.switchTo_spent {e : CompId} {n : Nat}
    (comp : (s.comp c).map (fun y => (y.state, y.suctionLost)) = some (.empty, true))
    (h : (s.point p).context = some d) (hc : d.current.comp = c) (he : e ≠ c)
    (still : (s.point p).state ≠ .waitSuction) : (s.switchTo p e n).Spent p c := by
  have point := State.switchTo_point (e := e) (n := n) h
  obtain ⟨marks, -⟩ := marks_of (State.switchTo_comp (n := n) h (by rw [hc]; exact he) c)
  refine ⟨marks.trans comp, ?_, State.segmentOn_of_context (by rw [point]) (Delivery.touches_switched hc), ?_⟩
  · rw [State.switchTo_claim h]
    exact Pair.get_set_same ..
  · rw [point]
    exact still

end lands

end Sys2Proof.Machine

/-! SUPPORT AND CERTIFICATES. A dry run switches or ends the delivery (R107, R111 to R113). -/

namespace Sys2Proof.Machine

open Sys2Proof

/-! ### The state in which the delivery is switched or ended -/

section dry

variable {s w : State} {p : PointId} {c e : CompId} {x : Compartment} {d : Delivery} {k : Cause}

/-- `w` is `s` with its fault acted on, `c` marked SUCTION_LOST and EMPTY, and the point told (R84, R111). -/
structure State.Dry (s w : State) (p : PointId) (c : CompId) (x : Compartment) (k : Cause) : Prop where
  point : (s.point p).HoldsTo (w.point p) k
  roster : w.roster = s.roster
  accounts : w.accounts = s.accounts
  comp : w.comp c = some { x with suctionLost := true, state := .empty }
  comps : ∀ f, f ≠ c → w.comp f = s.comp f

variable (h : s.Dry w p c x k) (hx : s.comp c = some x) (hd : (s.point p).context = some d) (hc : d.current.comp = c)
include h hd

theorem State.Dry.context : (w.point p).context = some d := h.point.context.trans hd

omit hd in
theorem State.Dry.marks : (w.comp c).map (fun y => (y.state, y.suctionLost)) = some (.empty, true) := by
  rw [h.comp]
  rfl

omit hd in
theorem State.Dry.target (q : ProductId) : w.mostStock (w.isTarget c q) = s.mostStock (s.isTarget c q) :=
  State.target_same h.comps

omit hd in
theorem State.Dry.available (he : e ≠ c) : w.availableOn e = s.availableOn e := by
  simp only [State.availableOn, h.comps e he]

omit hd in
include hx in
theorem State.Dry.reserved (f : CompId) :
    (w.comp f).map (fun y => y.reserved) = (s.comp f).map fun y => y.reserved := by
  by_cases hf : f = c
  · rw [hf, h.comp, hx]
    rfl
  · rw [h.comps f hf]

omit hd in
include hx in
/-- A figure made of a reserved sum. -/
theorem State.Dry.reserved_map (g : Nat → Nat) (f : CompId) :
    (w.comp f).map (fun y => g y.reserved) = (s.comp f).map fun y => g y.reserved := by
  have same := congrArg (Option.map g) (h.reserved hx f)
  simp only [Option.map_map] at same
  exact same

include hc

/-- The delivery ended with STOCK_EMPTY (R113). -/
theorem State.Dry.ends : (w.finish p .stockEmpty).Spent p c :=
  State.finish_spent h.marks (State.segmentOn_of_context (h.context hd) (Delivery.touches_current hc))

/-- The delivery moved to its second segment (R113). -/
theorem State.Dry.switches (he : e ≠ c) (n : Nat) : (w.switchTo p e n).Spent p c :=
  State.switchTo_spent h.marks (h.context hd) hc he (PointState.still_of_wants h.point.wants).1

omit hc

/-- The state with the limit lowered to what the two compartments hold (R113, step 3). -/
theorem State.Dry.lowered_point (n : Nat) :
    (w.lowerLimit p n .stock).point p = { w.point p with context := some (d.lowered n .stock) } :=
  State.lowerLimit_point n .stock (h.context hd)

include hc

theorem State.Dry.lowered_marks (n : Nat) :
    ((w.lowerLimit p n .stock).comp c).map (fun y => (y.state, y.suctionLost)) = some (.empty, true) := by
  rw [State.lowerLimit_comp n .stock (h.context hd), if_pos hc.symm, h.comp]
  rfl

include hx in
theorem State.Dry.lowered_reserved (n : Nat) (f : CompId) :
    ((w.lowerLimit p n .stock).comp f).map (fun y => y.reserved) =
      (s.comp f).map fun y =>
        if f = c then y.reserved - min (d.limit - n) d.current.remaining else y.reserved := by
  rw [State.lowerLimit_comp n .stock (h.context hd), hc]
  by_cases hf : f = c
  · simp only [if_pos hf, Option.map_map]
    exact h.reserved_map hx (fun v => v - min (d.limit - n) d.current.remaining) f
  · simp only [if_neg hf]
    exact h.reserved hx f

/-- The delivery ended with its limit lowered first (R113). -/
theorem State.Dry.lowered_ends (n : Nat) : ((w.lowerLimit p n .stock).finish p .stockEmpty).Spent p c :=
  State.finish_spent (h.lowered_marks hd hc n)
    (State.segmentOn_of_context (d := d.lowered n .stock) (by rw [h.lowered_point hd])
      (Delivery.touches_current hc))

/-- The delivery moved with its limit lowered first (R113). -/
theorem State.Dry.lowered_switches (he : e ≠ c) (n v : Nat) :
    ((w.lowerLimit p n .stock).switchTo p e v).Spent p c :=
  State.switchTo_spent (d := d.lowered n .stock) (h.lowered_marks hd hc n) (by rw [h.lowered_point hd]) hc he
    (by rw [h.lowered_point hd]; exact (PointState.still_of_wants h.point.wants).1)

omit hc in
theorem State.Dry.lowered_switches_point (n v : Nat) :
    ((w.lowerLimit p n .stock).switchTo p e v).point p =
      { w.point p with context := some ((d.lowered n .stock).switched e v) } := by
  rw [State.switchTo_point (d := d.lowered n .stock) (by rw [h.lowered_point hd]), h.lowered_point hd]

/-- The switch or the end, whichever it is, leaves the compartment spent (R113). -/
theorem State.Dry.spent : (w.switchOrEnd c p).Spent p c := by
  have context := h.context hd
  by_cases ends : d.earlier.isSome = true ∨ w.mostStock (w.isTarget c d.product) = none
  · rw [State.switchOrEnd_ends context ends]
    exact h.ends hd hc
  · obtain ⟨one, none⟩ := not_or.mp ends
    obtain ⟨e, target⟩ := Option.ne_none_iff_exists'.mp none
    have he := State.target_ne target
    have single : d.earlier = Option.none := by simpa using one
    by_cases room : d.limit - cLof d.current.net_uL ≤ w.availableOn e
    · rw [State.switchOrEnd_enough context single target room]
      split
      · exact h.ends hd hc
      · exact h.switches hd hc he _
    · rw [State.switchOrEnd_short context single target (Nat.lt_of_not_le room)]
      split
      · exact h.lowered_ends hd hc _
      · exact (h.lowered_switches hd hc he _ _).compareLowered
          (by rw [h.lowered_switches_point hd]; exact (PointState.still_of_wants h.point.wants).2)

end dry

/-! ### The outcome behind the blocks that follow -/

section outcome

variable {s w v t : State} {p : PointId} {c e : CompId} {x : Compartment} {d : Delivery} {k : Cause}

/-- The delivery `d` has ended with STOCK_EMPTY (R112, R113). -/
def State.EndedEmpty (t : State) (p : PointId) (d : Delivery) : Prop :=
  (t.point p).state = .finishing ∧ (t.point p).pendingEnd = some .stockEmpty ∧ (t.point p).context = some d

theorem State.Lands.ended (h : (v.finish p .stockEmpty).Lands t p c) (hd : (v.point p).context = some d) :
    t.EndedEmpty p d := by
  obtain ⟨⟨state, cause⟩, -, -, -, context⟩ := State.finish_finishes v p .stockEmpty
  unfold State.EndedEmpty
  rw [h.point]
  exact ⟨state, cause, context.trans hd⟩

variable (h : s.Dry w p c x k) (hx : s.comp c = some x) (hd : (s.point p).context = some d) (hc : d.current.comp = c)
  (ht : (w.switchOrEnd c p).Lands t p c)
include h hd ht

/-- A delivery with two segments, or without a target, is ended (R112, R113). -/
theorem State.Dry.outcome_ends (ends : d.earlier.isSome = true ∨ s.mostStock (s.isTarget c d.product) = none) :
    t.EndedEmpty p d := by
  have context := h.context hd
  rw [State.switchOrEnd_ends context (by rw [h.target]; exact ends)] at ht
  exact ht.ended context

variable (one : d.earlier = none) (target : s.mostStock (s.isTarget c d.product) = some e)
include one target

omit ht

theorem State.Dry.enough (room : d.limit - cLof d.current.net_uL ≤ s.availableOn e) :
    w.switchOrEnd c p =
      if d.limit - cLof d.current.net_uL < d.minimum then w.finish p .stockEmpty
      else w.switchTo p e (d.limit - cLof d.current.net_uL) :=
  State.switchOrEnd_enough (h.context hd) one (by rw [h.target]; exact target)
    (by rw [h.available (State.target_ne target)]; exact room)

theorem State.Dry.short (room : s.availableOn e < d.limit - cLof d.current.net_uL) :
    w.switchOrEnd c p =
      if s.availableOn e < d.minimum then
        (w.lowerLimit p (cLof d.current.net_uL + s.availableOn e) .stock).finish p .stockEmpty
      else
        ((w.lowerLimit p (cLof d.current.net_uL + s.availableOn e) .stock).switchTo p e
          (s.availableOn e)).compareLowered p := by
  have same := h.available (State.target_ne target)
  have short := State.switchOrEnd_short (h.context hd) one (by rw [h.target]; exact target)
    (by rw [same]; exact room)
  rwa [same] at short

include ht

/-- What is left is below the minimum delivery (R113, step 2). -/
theorem State.Dry.outcome_small (room : d.limit - cLof d.current.net_uL ≤ s.availableOn e)
    (small : d.limit - cLof d.current.net_uL < d.minimum) : t.EndedEmpty p d := by
  rw [h.enough hd one target room, if_pos small] at ht
  exact ht.ended (h.context hd)

include hx hc

/-- The target holds what is left: the delivery moves to it (R113, step 4). -/
theorem State.Dry.outcome_moves (room : d.limit - cLof d.current.net_uL ≤ s.availableOn e)
    (whole : d.minimum ≤ d.limit - cLof d.current.net_uL) :
    (t.point p).context = some (d.switched e (d.limit - cLof d.current.net_uL)) ∧
      ((t.point p).state = if (s.point p).state.wantsFlow then .suspended k else (s.point p).state) ∧
      ∀ f, (t.comp f).map (fun y => y.reserved) =
        (s.comp f).map fun y =>
          if f = c then y.reserved - d.current.remaining
          else if f = e then y.reserved + (d.limit - cLof d.current.net_uL)
          else y.reserved := by
  have context := h.context hd
  rw [h.enough hd one target room, if_neg (Nat.not_lt_of_le whole)] at ht
  have point := State.switchTo_point (e := e) (n := d.limit - cLof d.current.net_uL) context
  have comp := State.switchTo_comp (n := d.limit - cLof d.current.net_uL) context
    (by rw [hc]; exact State.target_ne target)
  rw [hc] at comp
  rw [ht.point, point]
  refine ⟨rfl, h.point.state, fun f => ?_⟩
  rw [ht.reserved, (marks_of (comp f)).2]
  exact h.reserved_map hx (fun v =>
    if f = c then v - d.current.remaining
    else if f = e then v + (d.limit - cLof d.current.net_uL)
    else v) f

variable (room : s.availableOn e < d.limit - cLof d.current.net_uL)
include room

omit hx hc in
/-- The limit is lowered to what the two compartments hold, with its reservations (R59, R113). -/
theorem State.Dry.outcome_lowers :
    (∀ n, findMachine t.roster n =
      (findMachine s.roster n).map fun m =>
        if n = d.machine then { m with reserved := cLof d.current.net_uL + s.availableOn e } else m) ∧
      ∀ n, findAccount t.accounts n =
        (findAccount s.accounts n).map fun a =>
          if n = d.account then
            { a with
              reserved :=
                a.reserved - (d.reservation - reservationFor (cLof d.current.net_uL + s.availableOn e) d.price) }
          else a := by
  have context := h.context hd
  have kept : (w.switchOrEnd c p).roster =
      (w.lowerLimit p (cLof d.current.net_uL + s.availableOn e) .stock).roster ∧
      (w.switchOrEnd c p).accounts =
        (w.lowerLimit p (cLof d.current.net_uL + s.availableOn e) .stock).accounts := by
    rw [h.short hd one target room]
    split <;> simp only [State.finish_frame, State.compareLowered_frame, State.switchTo_frame, and_self]
  rw [ht.roster, ht.accounts, kept.1, kept.2]
  refine ⟨fun n => ?_, fun n => ?_⟩
  · rw [State.lowerLimit_machine _ _ context, h.roster]
  · rw [State.lowerLimit_account _ _ context, h.accounts]

/-- The target holds less than the minimum delivery (R113, step 3). -/
theorem State.Dry.outcome_poor (poor : s.availableOn e < d.minimum) :
    t.EndedEmpty p (d.lowered (cLof d.current.net_uL + s.availableOn e) .stock) ∧
      ∀ f, (t.comp f).map (fun y => y.reserved) =
        (s.comp f).map fun y =>
          if f = c then
            y.reserved - min (d.limit - (cLof d.current.net_uL + s.availableOn e)) d.current.remaining
          else y.reserved := by
  rw [h.short hd one target room, if_pos poor] at ht
  refine ⟨ht.ended (by rw [h.lowered_point hd]), fun f => ?_⟩
  rw [ht.reserved, ← h.lowered_reserved hx hd hc]
  simp only [State.finish_frame]

/-- The target holds the minimum delivery at least: the delivery moves to it with the lowered limit, and its point is
compared with it (R78, R113). -/
theorem State.Dry.outcome_lowered (rich : d.minimum ≤ s.availableOn e) :
    (t.point p).context =
        some ((d.lowered (cLof d.current.net_uL + s.availableOn e) .stock).switched e (s.availableOn e)) ∧
      (cLof d.current.net_uL + s.availableOn e ≤ cLof d.net_uL + (s.point p).closeAhead →
        (s.point p).state.unfinished = true →
          (t.point p).state = .finishing ∧ (t.point p).pendingEnd = some .limit) ∧
      (cLof d.net_uL + (s.point p).closeAhead < cLof d.current.net_uL + s.availableOn e →
        (t.point p).state = if (s.point p).state.wantsFlow then .suspended k else (s.point p).state) ∧
      ∀ f, (t.comp f).map (fun y => y.reserved) =
        (s.comp f).map fun y =>
          if f = c then y.reserved - d.current.remaining
          else if f = e then y.reserved + s.availableOn e
          else y.reserved := by
  have he := State.target_ne target
  have net (n v : Nat) : ((d.lowered n .stock).switched e v).net_uL = d.net_uL := by
    simp [Delivery.switched, Delivery.lowered, one]
  rw [h.short hd one target room, if_neg (Nat.not_lt_of_le rich)] at ht
  have point := h.lowered_switches_point hd (e := e) (cLof d.current.net_uL + s.availableOn e) (s.availableOn e)
  have context := State.compareLowered_context (s := (w.lowerLimit p (cLof d.current.net_uL + s.availableOn e)
    .stock).switchTo p e (s.availableOn e)) (p := p) p
  rw [point] at context
  refine ⟨?_, fun within unfinished => ?_, fun beyond => ?_, fun f => ?_⟩
  · rw [ht.point, context]
  · have finishes := State.compareLowered_within (s := (w.lowerLimit p (cLof d.current.net_uL + s.availableOn e)
      .stock).switchTo p e (s.availableOn e)) (p := p) (by rw [point]) (by rw [point]; exact h.point.unfinished unfinished)
      (by rw [point, net, h.point.closeAhead]; exact within)
    obtain ⟨⟨state, cause⟩, -⟩ := State.finish_finishes ((w.lowerLimit p (cLof d.current.net_uL + s.availableOn e)
      .stock).switchTo p e (s.availableOn e)) p
      ((d.lowered (cLof d.current.net_uL + s.availableOn e) .stock).switched e (s.availableOn e)).limitCause
    rw [ht.point, finishes]
    exact ⟨state, cause⟩
  · rw [ht.point, State.compareLowered_beyond (by rw [point])
      (by rw [point]; exact (PointState.still_of_wants h.point.wants).2)
      (by rw [point, net, h.point.closeAhead]; exact beyond), point]
    exact h.point.state
  · have comp := State.switchTo_comp (s := w.lowerLimit p (cLof d.current.net_uL + s.availableOn e) .stock)
      (n := s.availableOn e) (e := e) (d := d.lowered (cLof d.current.net_uL + s.availableOn e) .stock)
      (by rw [h.lowered_point hd]) (fun same => he (same.trans hc)) f
    rw [ht.reserved]
    simp only [State.compareLowered_frame]
    rw [(marks_of comp).2]
    have cut := Nat.min_le_right (d.limit - (cLof d.current.net_uL + s.availableOn e)) d.current.remaining
    have figures := congrArg (Option.map fun v =>
      if f = c then
        v - (d.current.remaining -
          min (d.limit - (cLof d.current.net_uL + s.availableOn e)) d.current.remaining)
      else if f = e then v + s.availableOn e
      else v) (h.lowered_reserved hx hd hc (cLof d.current.net_uL + s.availableOn e) f)
    simp only [Option.map_map] at figures
    subst hc
    refine figures.trans (congrArg (Option.map · (s.comp f)) (funext fun y => ?_))
    by_cases here : f = d.current.comp
    · simp only [Function.comp_apply, if_pos here]
      omega
    · simp only [Function.comp_apply, if_neg here]

end outcome

end Sys2Proof.Machine

/-! SUPPORT AND CERTIFICATES. A dry run acts by its action, marks the compartment, and switches or ends the delivery (R107
to R113). -/

namespace Sys2Proof.Machine

open Sys2Proof

/-! ### The kind's action (R107, R108, R110) -/

section acted

variable {s v : State} {x y z : Pump} {action : FaultAction}

/-- `v` is `s` with a fault acted on: the points are told where the pump stopped, and nothing of the stock or the books is
moved. -/
structure State.Acted (s v : State) (action : FaultAction) : Prop where
  stock : v.stock = s.stock
  roster : v.roster = s.roster
  accounts : v.accounts = s.accounts
  told : action ≠ .report → ∀ q, (s.point q).HoldsTo (v.point q) .pumpFault
  points : action = .report → v.points = s.points

theorem State.Acted.context (h : s.Acted v action) (q : PointId) : (v.point q).context = (s.point q).context := by
  by_cases report : action = .report
  · exact congrArg (fun w : Pair Point => (w.get q).context) (h.points report)
  · exact (h.told report q).context

theorem State.struck_acted (h : action ≠ .report) : s.Acted (s.struck z) action := by
  refine ⟨?_, ?_, ?_, fun _ q => ?_, fun report => absurd report h⟩
  · simp only [State.struck, State.raise_stock, State.tellFault_frame, State.setPump_stock]
  · simp only [State.struck, State.raise_roster, State.tellFault_frame, State.setPump_roster]
  · simp only [State.struck, State.raise_accounts, State.tellFault_frame, State.setPump_accounts]
  · exact State.tellFault_holds (s := s.setPump z) q

/-- The pump with its dry-run timer spent. -/
def Pump.dried (x : Pump) : Pump := x.detected .dryRun x.noFlow

/-- The state behind the action of a detected dry run. -/
def State.dryActed (s : State) : State := (s.setPump s.pump.dried).act .dryRun

theorem State.dryActed_latches
    (h : s.pump.faults.dryRun.action = .latch ∨ s.pump.faults.dryRun.action = .retry ∧ s.pump.mayRetry = false) :
    s.dryActed = s.struck (s.pump.dried.latchedBy .dryRun false) := by
  have action : ((s.setPump s.pump.dried).pump.faults.get .dryRun).action = s.pump.faults.dryRun.action := rfl
  have may : (s.setPump s.pump.dried).pump.mayRetry = s.pump.mayRetry := rfl
  unfold State.dryActed State.act
  rw [action]
  rcases h with h | ⟨h, spent⟩
  · rw [h]
    rfl
  · rw [h]
    dsimp only
    rw [if_neg (by rw [may, spent]; exact Bool.false_ne_true)]
    rfl

theorem State.dryActed_retries (h : s.pump.faults.dryRun.action = .retry) (room : s.pump.mayRetry = true) :
    s.dryActed = s.struck (s.pump.dried.heldOffBy .dryRun) :=
  State.act_retries (s := s.setPump s.pump.dried) h room

theorem State.dryActed_reports (h : s.pump.faults.dryRun.action = .report) :
    s.dryActed = (s.setPump s.pump.dried).report .dryRun := State.act_reports (s := s.setPump s.pump.dried) h

theorem State.dryActed_acted (h : s.pump.faults.dryRun.action = action)
    (k : action = .latch ∨ action = .retry ∨ action = .report) : s.Acted s.dryActed action := by
  subst h
  by_cases report : s.pump.faults.dryRun.action = .report
  · rw [State.dryActed_reports report]
    unfold State.report
    dsimp only
    split <;> exact ⟨rfl, rfl, rfl, fun other => absurd report other, fun _ => rfl⟩
  · by_cases room : s.pump.faults.dryRun.action = .retry ∧ s.pump.mayRetry = true
    · rw [State.dryActed_retries room.1 room.2]
      exact State.struck_acted report
    · rw [State.dryActed_latches]
      · exact State.struck_acted report
      · rcases k with latch | retry | other
        · exact .inl latch
        · exact .inr ⟨retry, Bool.eq_false_iff.mpr fun may => room ⟨retry, may⟩⟩
        · exact absurd other report

theorem exec_dryRun {c : CompId} (runs : s.pump.deglitch.dryRun.isSome = true) (held : s.arbiter.selector = .held c) :
    exec (.faultDeglitchExpiry .dryRun) s = .next ((s.dryActed.dryRun c).follow s) := by
  refine congrArg Host.Outcome.next ((if_pos runs).trans ?_)
  have detects : s.detect .dryRun = s.dryActed.dryRun c := by
    unfold State.detect
    dsimp only
    rw [State.setPump_arbiter, held]
    rfl
  rw [detects]

end acted

/-! ### The marks (R111, R129) -/

section marked

variable {s v : State} {p : PointId} {c : CompId} {x : Compartment} {d : Delivery} {action : FaultAction}
variable (h : s.Acted v action) (hx : s.comp c = some x)
include h hx

theorem State.Acted.marked : (v.markSuctionLost c).comp c = some { x with suctionLost := true } := by
  have same : v.comp c = some x := (congrArg (Quad.get · c) h.stock).trans hx
  rw [State.markSuctionLost_comp, if_pos rfl, same]
  rfl

theorem State.Acted.nearEmpty : (v.markSuctionLost c).nearEmpty c = decide (s.drawnDown c ≤ x.heel + x.margin) := by
  have a := h.context .a
  have b := h.context .b
  simp only [State.point, Pair.get] at a b
  have nets : (v.markSuctionLost c).openNetOn c = s.openNetOn c := by
    simp only [State.openNetOn, State.markSuctionLost_frame, a, b]
  have drawn : (v.markSuctionLost c).drawnDown c = s.drawnDown c := by
    simp only [State.drawnDown, h.marked hx, hx, nets]
    rfl
  simp only [State.nearEmpty, h.marked hx, drawn, Option.any_some]

/-- Away from empty the mark is all (R111). -/
theorem State.Acted.far (far : x.heel + x.margin < s.drawnDown c) : v.dryRun c = v.markSuctionLost c := by
  have full : (v.markSuctionLost c).nearEmpty c = false := by
    rw [h.nearEmpty hx]
    exact decide_eq_false (Nat.not_le_of_lt far)
  exact if_neg (Bool.eq_false_iff.mp full)

variable (hd : (s.point p).context = some d) (hc : d.current.comp = c) (hu : (s.point p).state.unfinished = true)
  (ho : (s.point p.other).context = none)
include hd hc hu ho

/-- Near empty, the compartment is EMPTY and its one delivery is switched or ended in the state that the marks and the
report to the point leave (R84, R111). -/
theorem State.Acted.near (near : s.drawnDown c ≤ x.heel + x.margin) :
    ∃ w, s.Dry w p c x (if action = .report then .suctionLost else .pumpFault) ∧ v.dryRun c = w.switchOrEnd c p := by
  have empty : (v.markSuctionLost c).nearEmpty c = true := by
    rw [h.nearEmpty hx]
    exact decide_eq_true near
  have points (q : PointId) : ((v.markSuctionLost c).markEmpty c).point q = v.point q := by
    simp only [State.markEmpty_frame, State.markSuctionLost_frame]
  have unfinished : (v.point p).state.unfinished = true := by
    by_cases report : action = .report
    · exact (congrArg (fun w : Pair Point => (w.get p).state.unfinished) (h.points report)).trans hu
    · exact (h.told report p).unfinished hu
  have loses : v.dryRun c = (((v.markSuctionLost c).markEmpty c).suspendFlow p .suctionLost).switchOrEnd c p :=
    (if_pos empty).trans (State.loseSuction_alone (by rw [points, h.context]; exact hd) hc
      (by rw [points]; exact unfinished) (by rw [points, h.context]; exact ho))
  have holds := State.suspendFlow_holds (s := (v.markSuctionLost c).markEmpty c) p .suctionLost
  rw [points] at holds
  refine ⟨_, ⟨?_, ?_, ?_, ?_, fun f hf => ?_⟩, loses⟩
  · by_cases report : action = .report
    · rw [if_pos report]
      have same : v.point p = s.point p := congrArg (Pair.get · p) (h.points report)
      rwa [same] at holds
    · rw [if_neg report]
      exact (h.told report p).trans holds
  · simp only [State.suspendFlow_frame, State.markEmpty_frame, State.markSuctionLost_frame, h.roster]
  · simp only [State.suspendFlow_frame, State.markEmpty_frame, State.markSuctionLost_frame, h.accounts]
  · simp only [State.suspendFlow_frame, State.markEmpty_comp, if_true, h.marked hx]
    rfl
  · simp only [State.suspendFlow_frame, State.markEmpty_comp, State.markSuctionLost_comp, if_neg hf]
    exact congrArg (Quad.get · f) h.stock

end marked

/-! ### The pump behind the dry run (R107, R108, R110) -/

section pump

variable {s t v : State} {z : Pump}

/-- Where the pump stopped, neither what follows of the dry run nor the other blocks move it. -/
theorem State.dryRun_pump {c : CompId} {old : State} (h : z.state.blocks = true) (hv : v.pump = z) :
    ((v.dryRun c).follow old).pump = z := by
  have pump : (v.dryRun c).pump = z := by simp only [State.dryRun_frame, hv]
  exact ((State.follow_followedBy (v.dryRun c) old).pumpStill (by rw [pump]; exact h)).trans pump

theorem State.dryRun_lastFault {c : CompId} {old : State} :
    ((v.dryRun c).follow old).pump.lastFault = v.pump.lastFault := by
  rw [(State.follow_followedBy (v.dryRun c) old).pump]
  simp only [State.dryRun_frame]

theorem State.struck_pump : (s.struck z).pump = z := by
  simp only [State.struck, State.raise_pump, State.tellFault_frame, State.setPump_pump]

theorem State.report_lastFault {k : FaultKind} : (s.report k).pump.lastFault = some (k, .report) := by
  unfold State.report
  dsimp only
  split <;> rfl

end pump

/-! ### The statement -/

/-- Settles O42: the action of the kind's setting, the marks, and the switch or the end of the one delivery, each carried
through the blocks that follow. -/
theorem dryRunSwitchesOrEnds : Obligations.DryRunSwitchesOrEnds := by
  intro s p c x d action runs setting kind held hx hd hc hu ho suspended cause
  have acted := State.dryActed_acted setting kind
  have hf := State.follow_followedBy (s.dryActed.dryRun c) s
  refine ⟨_, exec_dryRun runs held, fun latch => ?_, fun retry may fresh => ?_, fun report => ?_, ?_, fun far => ?_,
    fun near => ?_⟩
  · obtain ⟨state, -, last, -, -, -, -, latched, -⟩ :=
      Pump.latchedBy_kept (x := s.pump.dried) (k := .dryRun) (auto := false)
    rw [State.dryRun_pump (z := s.pump.dried.latchedBy .dryRun false) (by rw [state]; rfl)
      (by rw [State.dryActed_latches (by rw [setting]; exact latch), State.struck_pump])]
    exact ⟨state, last, fun fresh => latched.trans (if_neg fresh)⟩
  · obtain ⟨state, -, -, timer, last⟩ := Pump.heldOffBy_kept (x := s.pump.dried) (k := .dryRun) fresh
    rw [State.dryRun_pump (z := s.pump.dried.heldOffBy .dryRun) (by rw [state]; rfl)
      (by rw [State.dryActed_retries (setting.trans retry) may, State.struck_pump])]
    exact ⟨state, timer, last⟩
  · rw [State.dryRun_lastFault, State.dryActed_reports (setting.trans report), State.report_lastFault]
  · by_cases near : s.drawnDown c ≤ x.heel + x.margin
    · obtain ⟨w, dry, same⟩ := acted.near hx hd hc hu ho near
      rw [same]
      exact ((dry.spent hd hc).lands s).lost
    · rw [acted.far hx (Nat.lt_of_not_le near)]
      exact (State.follow_followedBy _ s).lost (by rw [acted.marked hx]; rfl)
  · have point : (s.dryActed.dryRun c).point p = s.dryActed.point p := by
      rw [acted.far hx far]
      simp only [State.markSuctionLost_frame]
    refine ⟨?_, fun other => ?_, fun report flow => ?_⟩
    · rw [(hf.points p).context, point, acted.context]
      exact hd
    · have told := acted.told other p
      rw [(hf.points p).still (by rw [point]; exact (PointState.still_of_wants told.wants).1), point]
      exact told.state
    · have same : s.dryActed.point p = s.point p := congrArg (Pair.get · p) (acted.points report)
      rw [(hf.points p).still (by rw [point, same]; exact flow), point, same]
  · obtain ⟨w, dry, same⟩ := acted.near hx hd hc hu ho near
    have lands : (w.switchOrEnd c p).Lands ((s.dryActed.dryRun c).follow s) p c := by
      rw [same]
      exact (dry.spent hd hc).lands s
    generalize (s.dryActed.dryRun c).follow s = t at lands
    intro ended
    refine ⟨lands.empty, lands.claim, fun ends => ?_, ?_⟩
    · exact dry.outcome_ends hd lands ends
    rintro one e target v left room rfl rfl rfl
    refine ⟨fun holds => ⟨fun small => ?_, fun whole => ?_⟩, ?_⟩
    · exact dry.outcome_small hd lands one target holds small
    · exact dry.outcome_moves hx hd hc lands one target holds whole
    · rintro lacks cut low rfl rfl
      obtain ⟨machines, accounts⟩ := dry.outcome_lowers hd lands one target lacks
      refine ⟨machines, accounts, fun poor => ?_, fun rich => ?_⟩
      · exact dry.outcome_poor hx hd hc lands one target lacks poor
      · obtain ⟨context, within, beyond, reserved⟩ := dry.outcome_lowered hx hd hc lands one target lacks rich
        exact ⟨context, fun close => within close hu, beyond, reserved⟩

end Sys2Proof.Machine
